-- ==== Sys2Proof/Word.lean ====
section
/-!
DEFINITION. The word types of the block: every width the manual gives a name to.
-/

namespace Sys2Proof

/-- Eight bits (R7). -/
abbrev Byte := BitVec 8

/-- One word of the register port (R46). -/
abbrev Word := BitVec 32

/-- The integer part of hall time, one count a nanosecond (R12). -/
abbrev Tick := BitVec 64

/-- Hall time: whole nanoseconds in [79:16], the fraction in units of 2^-16 ns in [15:0] (R8). -/
abbrev HT80 := BitVec 80

/-- A partition tag: partition [9:0], generation [15:10] (R76). -/
abbrev PTag := BitVec 16

/-- A node ID; 0xF_FFFF means none (R79). -/
abbrev NodeId := BitVec 20

/-- A Ronoux port number, 0 to 63. -/
abbrev PortNo := BitVec 6

/-- A 64-byte descriptor, byte k in bits [8k+7:8k] (R7, R306). -/
abbrev Desc := BitVec 512

/-- A 128-byte reduction record, byte k in bits [8k+7:8k] (R247). -/
abbrev Record := BitVec 1024

end Sys2Proof
end

