-- ==== Sys2Proof/Syntax.lean ====
section
/-!
DEFINITION. The commands of the block, one constructor for each row of spec/opcode_table.json, in
the table's order, with the row's operands. A command is a write or a read of a register, an edge on
a pin, a flit or a Trellis word received, a descriptor taken, or one of the block's own timed events.
-/

namespace Sys2Proof

/-- Which of the two node resets (R44). -/
inductive RstKind where
  | cold | warm
  deriving DecidableEq, Repr

/-- Address of a Trellis unit or cell: REGION, BLOCK, CELL in the ADDR layout (R176). -/
structure CellAddr where
  region : BitVec 7
  block : BitVec 6
  cell : BitVec 6
  deriving DecidableEq, Repr

/-- LAUNCH payload (03, partition payloads). -/
structure LaunchMsg where
  ptag : PTag
  launchId : BitVec 32
  t : HT80
  origin : NodeId
  up : Bool
  leafOrig : Bool
  chan : BitVec 4
  deriving DecidableEq, Repr

/-- SWAP payload. -/
structure SwapMsg where
  ptag : PTag
  swapId : BitVec 32
  t : HT80
  origin : NodeId
  up : Bool
  leafOrig : Bool
  deriving DecidableEq, Repr

/-- PARK payload. -/
structure ParkMsg where
  ptag : PTag
  bid : Byte
  round : BitVec 2
  origin : NodeId
  up : Bool
  leafOrig : Bool
  deriving DecidableEq, Repr

/-- Header H of a barrier flit, with the record of a reduction flit. `red` tells ARRIVE_RED and
RELEASE_RED from ARRIVE and RELEASE; without it `types` and `record` are 0. -/
structure BarMsg where
  ptag : PTag
  bid : Byte
  round : BitVec 2
  t : HT80
  types : BitVec 32
  record : Record
  red : Bool
  deriving DecidableEq, Repr

/-- SIGNAL payload. -/
structure SignalMsg where
  ptag : PTag
  destRank : BitVec 32
  obj : BitVec 12
  op : Byte
  xlated : Bool
  value : BitVec 32
  srcRank : BitVec 32
  destNode : NodeId
  deriving DecidableEq, Repr

/-- ANNOUNCE payload. -/
structure AnnounceMsg where
  hwid : BitVec 64
  node : NodeId
  ports : Byte
  prof : BitVec 2
  root : NodeId
  cport : Byte
  deriving DecidableEq, Repr

/-- ASSIGN payload; ROUTE holds eight port bytes, nearest hop in the lowest byte. -/
structure AssignMsg where
  hwid : BitVec 64
  node : NodeId
  root : NodeId
  route : BitVec 64
  deriving DecidableEq, Repr

/-- TREE payload. -/
structure TreeMsg where
  root : NodeId
  hops : Byte
  node : NodeId
  offer : Bool
  altOffer : Bool
  utcOfs : BitVec 32
  utcV : Bool
  deriving DecidableEq, Repr

/-- ELECT payload: a claim. -/
structure ElectMsg where
  prio : Byte
  qual : Byte
  hwid : BitVec 64
  node : NodeId
  rootClaim : Bool
  standbyClaim : Bool
  deriving DecidableEq, Repr

/-- MIRROR payload: an entry of 20 bytes. -/
structure MirrorMsg where
  ptag : PTag
  op : Byte
  shadow : Bool
  nodeHi : BitVec 4
  index : BitVec 16
  entry : BitVec 160
  deriving DecidableEq, Repr

/-- PART payload without its OP, which the row or the sender names. `aux` is FAULT or RANK_CNT_M1,
`dmax` is MARGIN or D_MAX. -/
structure PartMsg where
  ptag : PTag
  bidsM1 : Byte
  node : NodeId
  feat : Byte
  t : HT80
  aux : BitVec 16
  dmax : BitVec 32
  deriving DecidableEq, Repr

/-- The OP of a PART flit. -/
inductive PartOp where
  | opOpen | openAck | deferred | refused | close | closeAck | fault
  deriving DecidableEq, Repr

/-- DELAY payload. -/
structure DelayMsg where
  node : NodeId
  port : Byte
  delay : BitVec 32
  deriving DecidableEq, Repr

/-- HEALTH payload. -/
structure HealthMsg where
  node : NodeId
  port : Byte
  fault : BitVec 16
  t : HT80
  count : BitVec 32
  kind : Byte
  index : Byte
  deriving DecidableEq, Repr

/-- BEAT payload (R86 to R88). -/
structure BeatMsg where
  idx : Byte
  echo : Byte
  tPrevTx : HT80
  tEchoRx : HT80
  state : BitVec 2
  rootState : BitVec 2
  tp : Bool
  echoV : Bool
  prevV : Bool
  ackSeq : BitVec 5
  ackV : Bool
  deriving DecidableEq, Repr

/-- TRAIN payload (R81, R84). -/
structure TrainMsg where
  revMax : Byte
  revMin : Byte
  hwid : BitVec 64
  node : NodeId
  port : Byte
  asym : BitVec 16
  negDone : Bool
  calDone : Bool
  isHub : Bool
  rev : Byte
  deriving DecidableEq, Repr

/-- NODE_DOWN payload (R100). -/
structure NodeDownMsg where
  reason : Byte
  node : NodeId
  hwid : BitVec 64
  t : HT80
  fault : BitVec 16
  deriving DecidableEq, Repr

/-- LAST_GASP payload (R101). -/
structure LastGaspMsg where
  node : NodeId
  hwid : BitVec 64
  t : HT80
  deriving DecidableEq, Repr

/-- A sequenced message as a port sends it (03, flit types). -/
inductive Msg where
  | launch (m : LaunchMsg)
  | swap (m : SwapMsg)
  | park (m : ParkMsg)
  | arrive (m : BarMsg)
  | release (m : BarMsg)
  | signal (m : SignalMsg)
  | announce (m : AnnounceMsg)
  | assign (m : AssignMsg)
  | tree (m : TreeMsg)
  | elect (m : ElectMsg)
  | mirror (m : MirrorMsg)
  | part (op : PartOp) (m : PartMsg)
  | delay (m : DelayMsg)
  | health (m : HealthMsg)
  deriving DecidableEq, Repr

/-- What seating measures in one region (R184, R185). -/
structure RegionMeas where
  region : BitVec 7
  /-- the Pergola locks to words and echoes -/
  lock : Bool
  /-- the round trips of the 8 markers, in whole host cycles -/
  trips : List Byte
  /-- the fractional part of the up crossing as the TDC reads it, in 1/256 host cycle -/
  phase : Byte
  /-- of each Arbor: the latency from the Pergola, and those of its Stakes from it, in whole host cycles -/
  arbors : List (BitVec 4 × List (BitVec 4))
  /-- the largest up latency of the HOLD bit -/
  upHold : Byte
  /-- at each unit: CYC of the CHECK, and its own count less its frame offset -/
  checks : List (BitVec 12 × BitVec 12)
  deriving DecidableEq, Repr

/-- What seating measures (R183 to R185): the regions being seated, and the two halves of the count of tr_ck_in over
1,024 ticks. -/
structure SeatMeas where
  regions : List RegionMeas
  half0 : BitVec 16
  half1 : BitVec 16
  deriving DecidableEq, Repr

/-- A report as a unit hands it to the collector (R320, R325): code, LOC, partition, stamp and the
DETAIL bytes 24 to 31. -/
structure Report where
  code : BitVec 16
  loc : BitVec 24
  partV : Bool
  ptag : PTag
  stamp : HT80
  detail : BitVec 64
  deriving DecidableEq, Repr

/-- Where FAULT_REPORT takes its report from: the oldest one that waits at the collector, or one
that a unit hands over now. -/
inductive ReportSrc where
  | waiting
  | unit (r : Report)
  deriving DecidableEq, Repr

/-- A scheduled word as a unit receives it (R168, R172): both copies, CRC in the top bits. -/
inductive TrellisWord where
  /-- from the parent; `slot` is the S slot of the first copy -/
  | down (slot : BitVec 6) (first second : BitVec 28)
  /-- from a child -/
  | up (child : BitVec 7) (first second : BitVec 28)
  deriving DecidableEq, Repr

/-- The 32 bytes of a flit as a receiver holds them, byte 0 in the lowest bits (R72, R76). -/
abbrev Flit := BitVec 256

/-- The level of a Trellis unit, coded as in the fault code (R163). -/
abbrev Level := BitVec 2

/-- A C or U packet: class, header content, contents of the words that follow (R176). -/
structure Packet where
  classU : Bool
  header : BitVec 20
  body : List (BitVec 20)
  deriving DecidableEq, Repr

/-- The commands, in the order of spec/opcode_table.json. -/
inductive Instr where
  -- pins, resets and the power rail
  | rstAssert (k : RstKind)
  | rstColdRelease (xoSel : BitVec 3)
  | rstWarmRelease
  | oscLock
  | rstLinkAssert (p : PortNo)
  | rstLinkRelease (p : PortNo)
  | pfailFirstHigh
  | pfailAssert
  | pfailRingDrainEnd
  | pfailCommitDone
  | mcForcedEdge (m : BitVec 4) (stamp : HT80)
  | capInEdge (n : BitVec 3) (falling : Bool) (stamp : HT80)
  -- references and election
  | refInEdge (n : BitVec 2) (stamp : HT80) (widthNs : BitVec 32)
  | refEdgeMissing (n : BitVec 2)
  | refFreqCheck (n : BitVec 2) (ppb : BitVec 32)
  | waitToRestoreEnd (n : BitVec 2)
  | refAgreeCompare
  | referenceConflictRepeat
  | measureEnd
  | holdHistoryStore
  | accelStageEnd
  | electSettle
  | standbyTakeoverTimer
  | noStandbyRootRepeat
  | claimHoldEnd
  -- power domains
  | pwPdAckRise (d : BitVec 6)
  | pwPdAckFall (d : BitVec 6)
  | powerDomainTimeout (d : BitVec 6)
  | bankClearDone (d : BitVec 6)
  -- cells
  | trCellHoldReq (a : CellAddr) (level : Bool)
  | trRgnHoldReq (region : BitVec 7) (level : Bool)
  | holdBitRx (region : BitVec 7) (level : Bool)
  | cellArrive (a : CellAddr) (chan : BitVec 4)
  | cellContrib (a : CellAddr) (ctl : BitVec 24) (data : BitVec 128)
  | cellPost (a : CellAddr) (obj : BitVec 12) (op : Byte) (val : BitVec 32)
  -- host memory and registers
  | hmResponse (tag : BitVec 6) (err : Bool) (data : BitVec 512)
  | hmTimeout (tag : BitVec 6)
  | registerWrite (addr : BitVec 18) (w : Word)
  | sunNowRead
  | snapshotRead (addr : BitVec 18)
  | capTsRead (n : BitVec 3)
  | preset
  | tlEnSet (p : PortNo) (w : Word)
  | tlEnClear (p : PortNo) (w : Word)
  | retrain (p : PortNo)
  | calNow (p : PortNo)
  | accel
  | reelect (w : Word)
  | orgUtcOfsWrite (w : Word)
  | trEnWrite (w : Word)
  | seat
  | reseat (region : BitVec 7)
  | seatingEnd (m : SeatMeas)
  | copy
  | trellisSetSwitch
  | clrStretch
  | clrSat
  | bsClr
  | soClr
  | syncWinPost (obj : BitVec 12) (w : Word)
  | syncWinOp (obj : BitVec 12) (w : Word)
  | syncWinCfg (obj : BitVec 12) (w : Word)
  | dgLayerHiWrite (w : Word)
  | ringEnSet (n : BitVec 3) (w : Word)
  | ringEnClear (n : BitVec 3) (w : Word)
  | ringStopped (n : BitVec 3)
  | dbNudge (w : Word)
  | doorbellPoll (n : BitVec 3)
  | load
  | fwVerifyDone
  | chal
  | chalDrawn
  | chalExpire
  | gateOpen (scope : BitVec 3)
  | gateExit
  | sessionTimeLimit
  | rekey
  | confirm
  | retire
  | ship
  | fuseId
  | fuseKey
  | lockoutEnd
  | fcClr (w : Word)
  | force
  | fcInjReport (w : Word)
  | fcInjUnit (w : Word)
  | fcInjCrc (w : Word)
  | fcInjWire (w : Word)
  | fcInjSelf (w : Word)
  | pdEnWrite (d : BitVec 6) (en : Bool)
  | bankOwnerWrite (b : BitVec 5) (code : BitVec 4)
  | flush
  | lgRdSelWrite (w : Word)
  | ledgerReadDone
  | clrHard
  | hsClr
  | hsSparesWrite (w : Word)
  | hsFloorWrite (w : Word)
  | sparesStale
  | winOpenNow (n : BitVec 3)
  | winCloseNow (n : BitVec 3)
  | capClr (n : BitVec 3)
  | bvClr
  | bistGo (w : Word)
  | bistDone (firstFail : Option (BitVec 16))
  | coreHalt (w : Word)
  | coreStep (w : Word)
  -- descriptors: taken from ring 1 when `u`, from ring 0 otherwise
  | unsupportedOpcode (u : Bool) (d : Desc)
  | launchAt (u : Bool) (d : Desc)
  | barrierArm (u : Bool) (d : Desc)
  | signal (u : Bool) (d : Desc)
  | swapAt (u : Bool) (d : Desc)
  | cfgWrite (u : Bool) (d : Desc)
  | partitionOpen (u : Bool) (d : Desc)
  | partitionClose (u : Bool) (d : Desc)
  | parkAt (u : Bool) (d : Desc)
  | windowSet (u : Bool) (d : Desc)
  | dump (u : Bool) (d : Desc)
  | ledgerNote (u : Bool) (d : Desc)
  | captureArm (u : Bool) (d : Desc)
  | loadEnv (u : Bool) (d : Desc)
  | fence (u : Bool) (d : Desc)
  | fenceDone (u : Bool)
  | replayStart (u : Bool) (d : Desc)
  | openNotReceived (part : BitVec 10)
  -- the tick table
  | launchCheck (seq : BitVec 32)
  | windowOpen (sched : BitVec 4)
  | windowClose (sched : BitVec 4)
  | loadStep (seq : BitVec 32)
  | signalEntry (seq : BitVec 32)
  | swap (ptag : PTag)
  | park (seq : BitVec 32)
  | captureOpen (seq : BitVec 32)
  | captureClose (seq : BitVec 32)
  | eventPresent (a : CellAddr)
  -- the Ronoux link
  | beatSend (p : PortNo) (stamp : HT80)
  | beatRx (p : PortNo) (m : BeatMsg) (stamp : HT80)
  | beatTimeout (p : PortNo)
  | acknakRx (p : PortNo) (seq : BitVec 5) (nak : Bool)
  | trainRx (p : PortNo) (m : TrainMsg)
  | nodeDownRx (p : PortNo) (m : NodeDownMsg)
  | lastGaspRx (p : PortNo) (m : LastGaspMsg)
  | flitErrorRx (p : PortNo) (f : Flit × Option Flit)
  | stompedFlitRx (f : PortNo × Flit × Option Flit)
  | unknownFlitRx (p : PortNo) (type : Byte) (sequenced : Bool)
  | blockLock (headers : PortNo × BitVec 128)
  | flitLock (blocks : PortNo × List (BitVec 64))
  | flitLockLost (failed : PortNo × BitVec 64 × Bool)
  | calibrateDone (p : PortNo)
  | linkStateTimeout (p : PortNo)
  | lostHoldEnd (p : PortNo)
  | downHeldEnd (p : PortNo)
  | replayTimeout (p : PortNo)
  | forcedRetrain (p : PortNo)
  | flitAging (p : PortNo)
  | phyRecal (p : PortNo)
  -- flits received
  | launchRx (p : PortNo) (m : LaunchMsg)
  | swapRx (p : PortNo) (m : SwapMsg)
  | parkRx (p : PortNo) (m : ParkMsg)
  | arriveRx (p : PortNo) (m : BarMsg) (tc : HT80)
  | arriveRedRx (p : PortNo) (m : BarMsg) (tc : HT80)
  | releaseRx (p : PortNo) (m : BarMsg)
  | releaseRedRx (p : PortNo) (m : BarMsg)
  | releaseDue (ptag : PTag) (bid : Byte)
  | signalRx (p : PortNo) (m : SignalMsg)
  | announceRx (p : PortNo) (m : AnnounceMsg)
  | assignRx (p : PortNo) (m : AssignMsg)
  | treeRx (p : PortNo) (m : TreeMsg)
  | treeOfferRepeat
  | parentWaitEnd (p : PortNo)
  | electRx (p : PortNo) (m : ElectMsg)
  | mirrorRx (p : PortNo) (m : MirrorMsg)
  | reportRepeat (p : PortNo)
  | delayRx (p : PortNo) (m : DelayMsg)
  | delayPeriodic
  | locationExpire (hwid : BitVec 64)
  | partOpenRx (p : PortNo) (m : PartMsg)
  | partOpenAckRx (p : PortNo) (m : PartMsg)
  | partDeferredRx (p : PortNo) (m : PartMsg)
  | partRefusedRx (p : PortNo) (m : PartMsg)
  | partCloseRx (p : PortNo) (m : PartMsg)
  | partCloseAckRx (p : PortNo) (m : PartMsg)
  | partFaultRx (p : PortNo) (m : PartMsg)
  | healthRx (p : PortNo) (m : HealthMsg)
  -- timed events of partitions
  | openAckTimeout (part : BitVec 10)
  | openTick (part : BitVec 10)
  | closeTick (part : BitVec 10)
  | quiescePoint (part : BitVec 10)
  | deferTimeout (part : BitVec 10)
  | reopenHoldEnd
  -- the Trellis
  | trellisWordRx (level : Level) (a : CellAddr) (w : TrellisWord)
  | trellisPacketRx (level : Level) (a : CellAddr) (src : Option (BitVec 7)) (words : Bool × List (BitVec 28))
  | unitErrorReport (a : CellAddr) (code : BitVec 16) (cnt : BitVec 12)
  | resultRx (level : Level) (a : CellAddr) (ctl : BitVec 20) (data : BitVec 128)
  | checkSend
  | regionClockSlip (region : BitVec 7)
  | laneClockLost (level : Level) (a : CellAddr) (child : Byte)
  | hostClockWindow (ends : Tick)
  | trellisAccessRetry (write : Bool) (level : Level) (a : CellAddr)
  | telemReport (level : Level) (a : CellAddr) (due : Tick)
  | errorWireFault (level : Level) (a : CellAddr) (child : Byte)
  | islandWireFault (island : Byte)
  -- steps, load and lending
  | stepOverrun (ptag : PTag)
  | overrunReadDone (ptag : PTag) (region : BitVec 7)
  | loadLevelChange
  | pwLendRise
  | pwLendFall
  | resumeTick (part : BitVec 10)
  -- objects and replay
  | waitTimeout (obj : BitVec 12)
  | timerFire (obj : BitVec 12)
  | barrierTimeout (bid : Byte)
  | replayInject (n : BitVec 3)
  | dumpAbandon
  -- faults
  | faultReport (src : ReportSrc)
  | collectorSelfFault
  | sundialCheck
  | controlCoreWatchdog (core : Bool)
  | safeDrainEnd
  -- ledger and health
  | odoInterval
  | pageProgramDone (readBackOk : Bool)
  | sectorEraseDone
  | ledgerScanDone (answers : Bool) (idBytes : BitVec 24)
  | tempSample
  | healthWindowEnd
  | healthCharge
  | tdcCalibrationDone (failed : Option Byte)
  | tdcRecal (failed : Option Byte)
  -- remaining events
  | trellisActionSample (ix : BitVec 32)
  | contextSlotClearDone (slot : Bool)
  | pwPfailLowSample
  | trainSend (p : PortNo)
  | ckXoEdgesCounted
  | ckHmStop
  | vddGyOff
  | checkerPatternLock
  deriving DecidableEq, Repr

end Sys2Proof
end

