-- ==== Sys2Proof/Decode.lean ====
section
/-!
DEFINITION. Reading a command from a word. The block has no instruction words: spec/opcode_table.json gives no row
any bits, so that no word spells a command.
-/

namespace Sys2Proof

/-- The command that a word of the table spells: none does. Log entry 2. -/
def decodeTableWord (_nbits _w : Nat) : Option Instr := none

end Sys2Proof
end

