-- ==== Sys2Proof/Config.lean ====
section
/-!
DEFINITION. The values that the manual leaves open, as constants with no body: nothing in Lean can
evaluate them or prove a value of them, so a theorem holds whatever they are. A step applies one to
the counter `freeIx` of the state, which it reads and advances, or to the operands it depends on.
-/

namespace Sys2Proof.Config

/-- How many tr_ck_in edges fall in one tick: the host core clock is an input of the block and is
never derived from the Sundial (R41, R163). Log entry 4. -/
opaque hostCycles : Nat → BitVec 8

/-- The oscillator rate that the loop sets after one phase sample, in steps of 2^-40: the manual
gives the loop's type, bandwidths and dwells but no gains (R111). Log entry 5. -/
opaque loopRate : Nat → BitVec 48

/-- Does an image signature verify? The public key in the block's read-only memory is not given
(R392). Arguments: SHA-256 digest, r, s. Log entry 6. -/
opaque fwSignatureOk : BitVec 256 → BitVec 256 → BitVec 256 → Bool

/-- The 128 bits that the Gatehouse draws from its entropy source (R361). Log entry 7. -/
opaque challenge : Nat → BitVec 128

/-- A byte of a bank after a self-test has overwritten the bank with a pattern the manual does not
give (R416). Arguments: the draw, the address within the bank. Log entry 8. -/
opaque bistByte : Nat → Nat → Byte

/-- The program counter of a control core after it has executed instructions of a firmware the
manual does not describe (R416). Log entry 9. -/
opaque corePc : Nat → BitVec 32

/-- Bin widths of a time-to-digital converter's table (R395, R416): narrowest and widest bin, in
1/64 LSB. Argument: the converter's number and the draw. Log entry 10. -/
opaque tdcBins : BitVec 8 → Nat → BitVec 16

/-- The die temperature the Grotto's sensor reads, in degrees (R369). Log entry 11. -/
opaque temperature : Nat → BitVec 8

/-- The fraction of an arrival stamp in TDC units of 0x0200 (R14): the phase of the arriving edge against the Sundial.
Log entry 18. -/
opaque arrivalFrac : Nat → BitVec 7

/-- What a port's TDC measures of its path: transmit latency in the low half, receive latency in the high half, 2^-16 ns
(R89). Log entry 20. -/
opaque pathLatency : Nat → BitVec 64

/-- The state of a transmitter's self-synchronising scrambler before its first block, which the manual does not give
(R72). Argument: the port. Log entry 17. -/
opaque scramblerStart : PortNo → BitVec 58

/-- Tree hops between two nodes by their nearest common ancestor, where each knows only its own hop count (R36). Log entry
19. -/
opaque treeHops : NodeId → NodeId → Nat

/-- ARG and CYC of the SEAT word on a root lane at a host cycle of seating: the rows of R184 have an order and no fixed
times. Arguments: the region, the cycle. Log entry 54. -/
opaque seatWord : Nat → BitVec 64 → BitVec 16

/-- R360, R365, R372: whether the read-back of a page that a command of the Gatehouse has programmed itself finds what was
written. Log entry 45. -/
opaque flashOk : Nat → Bool

/-- A value the block drives or stores where the manual gives an effect and no value; log entry 12 lists the places. -/
opaque anyWord : Nat → BitVec 32

end Sys2Proof.Config
end

