-- ==== Sys2Proof/Machine/State.lean ====
section
/-!
DEFINITION. The state of the block, as plain data: every register, counter, buffer, table and pin
the manual gives it, the queue of waiting commands, and the state after reset. INVENTORY.md lists
each field with its rule and its reset value.
-/

namespace Sys2Proof.Machine

/-- Why the block stops. -/
inductive Fault where
  /-- Raised by a command that names a port, domain, bank, input, cell or pin that the profile of the
  block does not have, so that no such event can reach it (R1, R48, R404). Safe: the event cannot
  happen. -/
  | absentUnit
  deriving DecidableEq, Repr

/-- Why a command has no meaning. -/
inductive Refusal where
  /-- Raised by no arm of this model: every row of the table has its meaning. Kept for the form. -/
  | notModelled (mnemonic : String)
  deriving DecidableEq, Repr

/-- The two builds (R1). -/
inductive Profile where
  | leaf | hub
  deriving DecidableEq, Repr

/-- SUN_STATE.STATE (01, time quality states). -/
inductive SunSt where
  | freerun | locked | holdover | untrusted
  deriving DecidableEq, Repr

/-- Which node reset is asserted (R44, R45). -/
inductive RstSt where
  | none | cold | warm
  deriving DecidableEq, Repr

/-- Pins and rails (02). -/
structure Pins where
  /-- VDD_GY is on (R39). -/
  powered : Bool := true
  /-- the reset that holds the block (R44, R45). -/
  rst : RstSt := .none
  /-- rst_cold_n and rst_warm_n as driven low (R45) -/
  coldLow : Bool := false
  warmLow : Bool := false
  /-- released while ck_xo was stopped: still counting 64 edges (R45). -/
  edgesOwed : Bool := false
  /-- rst_link_n[p] asserted (R44). -/
  linkLow : BitVec 64 := 0
  /-- ck_xo runs (R45). -/
  xoRunning : Bool := true
  /-- ck_xo_sel as sampled (R41). -/
  xoSel : BitVec 3 := 0
  /-- ck_hm runs (R43). -/
  hmRunning : Bool := true
  /-- pw_pfail as sampled now (R57). -/
  pfail : Bool := false
  /-- t0 of the run of high samples (R57). -/
  pfailRun : Option Tick := none
  /-- tr_lat_sig (R55). -/
  latSig : BitVec 64 := 0
  /-- mc_present, mc_trefi, mc_ppmax (R56). -/
  mcPresent : BitVec 16 := 0
  mcTrefi : List (BitVec 16) := []
  mcPpmax : List (BitVec 4) := []
  /-- mc_win as driven (R56). -/
  mcWin : BitVec 16 := 0
  /-- pw_load_target, in Gray code (R58). -/
  loadTarget : BitVec 4 := 0
  /-- pw_lend (R59). -/
  lend : Bool := false
  /-- fl_err_p, fl_err_n (R61), fl_halt (R62). -/
  flErrP : Bool := false
  flErrN : Bool := true
  flHalt : Bool := false
  deriving DecidableEq, Repr

/-- The Sundial and its registers (01). -/
structure Sun where
  counting : Bool := false
  now : HT80 := 0
  staged : HT80 := 0
  snap : HT80 := 0
  st : SunSt := .freerun
  rootSt : BitVec 2 := 0
  isRoot : Bool := false
  isStandby : Bool := false
  utcValid : Bool := false
  stepCnt : BitVec 8 := 0
  deriving DecidableEq, Repr

/-- One ref_in input: ORG_REFSEL and ORG_REFQUAL fields and the Orangery's measurements (R104 to R108). -/
structure RefIn where
  /-- TYPE and RANK as the register holds them; they take effect at the next second (R132) -/
  ntype : BitVec 2 := 0
  nrank : BitVec 2 := 0
  type : BitVec 2 := 0
  rank : BitVec 2 := 0
  act : Bool := false
  qual : Bool := false
  wtr : Bool := false
  suspect : Bool := false
  phaseHit : Bool := false
  /-- tick from which the input has been good without a break -/
  goodSince : Option Tick := none
  lastEdge : Option HT80 := none
  /-- the edge from which the next 1PPS edge is predicted (R105, R106) -/
  expect : Option HT80 := none
  /-- 1PPS edges off their prediction in a row (R106) -/
  misses : BitVec 2 := 0
  /-- the frequency measured each second, ppb, newest first, at most 100 (R108) -/
  freqs : List Int := []
  deriving DecidableEq, Repr

/-- A pair of inputs of equal rank (R108): the two disagree, and for how many seconds in a row their difference has
since stayed within 80 % of LIMIT. -/
structure RefPair where
  conflict : Bool := false
  calm : Nat := 0
  deriving DecidableEq, Repr

/-- A running MEASURE: edges seen, the phase of the first one and the sum of the differences from it,
in units of 2^-16 ns (R115). -/
structure Measure where
  edges : Nat
  base : Nat
  sum : Int
  deriving DecidableEq, Repr

/-- The Orangery (04): its registers, its loop and its holdover history. -/
structure Org where
  ins : List RefIn
  /-- the six pairs of inputs (R108) -/
  pairs : List RefPair := List.replicate 6 {}
  sel : BitVec 3 := 0
  switching : Bool := false
  target : BitVec 3 := 0
  ppsAlign : Bool := false
  force : BitVec 3 := 0
  stage : BitVec 3 := 0
  srcType : BitVec 3 := 0
  perr : BitVec 16 := 0
  limit : BitVec 10 := 0x32
  diff : BitVec 16 := 0
  win : BitVec 8 := 0x0A
  gap : BitVec 8 := 0x1E
  age : BitVec 24 := 0
  short : Bool := false
  frozen : Bool := false
  utcOfs : BitVec 32 := 0
  prio : BitVec 8
  osc : Bool := false
  qual : BitVec 8 := 0x50
  /-- oscillator rate correction, steps of 2^-40 (R13) -/
  rate : Int := 0
  rateAtLock : Int := 0
  /-- the 512-entry history, newest first; none is an invalid second (R119) -/
  hist : List (Option Int) := []
  /-- whole seconds since the node last entered LOCKED (R119) -/
  lockedS : Nat := 0
  /-- the running second includes acceleration, MEASURE, COMMIT, a clipped change or holdover (R119) -/
  dirty : Bool := false
  accel : Bool := false
  /-- tick on which the running acceleration stage began (R112) -/
  stageSince : Tick := 0
  /-- tick from which the phase error has stayed below the threshold (R113) -/
  belowSince : Option Tick := none
  /-- rate × ns in the running second, the tick to which it is summed, and the second's start (R119) -/
  rateAcc : Int := 0
  rateSince : Tick := 0
  histAt : Tick := 0
  /-- the rate that the loop or the holdover asks for; the oscillator goes there as R114 allows -/
  rateWant : Int := 0
  /-- rates that were in force within the last millisecond, with the tick on which each ended, newest first (R114) -/
  rateLog : List (Tick × Int) := []
  /-- consecutive repetitions of stage 3 (R113) -/
  reps : Nat := 0
  everLocked : Bool := false
  /-- phase against which a reference is held, 2^-16 ns (R115) -/
  buildOut : Nat := 0
  /-- the slew of the build-out under PPS_ALIGN in the second just past, ppb (R122) -/
  slew : Nat := 0
  /-- the running HOLDOVER follows an external input (R124) -/
  heldExt : Bool := false
  measure : Option Measure := none
  /-- the CE of R109 was last raised on this tick -/
  conflictAt : Tick := 0
  deriving DecidableEq, Repr

/-- Election and the node's place in the fabric (R123 to R141). -/
structure Elect where
  /-- best claim seen -/
  best : Option ElectMsg := none
  /-- tick of the latest improvement of the node's own claim (R125) -/
  improvedAt : Tick := 0
  /-- the claim hold of R397 stands -/
  hold : Bool := true
  /-- tick of the first port's UP, for R397 -/
  firstUp : Option Tick := none
  /-- on the root: the best claim received (R126) -/
  recorded : Option ElectMsg := none
  /-- on the root: the standby's port; the standby holds its full copy (R127, R128). On the standby: its own copy
  is complete -/
  standbyPort : Option PortNo := none
  mirrorDone : Bool := false
  /-- on the standby: loss of the root link at this tick, R129's 2 us running -/
  rootLostAt : Option Tick := none
  /-- on the standby: the port toward the root -/
  rootPort : Option PortNo := none
  /-- root's node ID; all ones when none is known -/
  root : NodeId := BitVec.allOnes 20
  /-- own node ID (R138, R140) -/
  node : NodeId := BitVec.allOnes 20
  route : List Byte := []
  /-- time-parent port and own hop count (R134) -/
  parent : Option PortNo := none
  hops : Byte := 0xFF
  withdrawn : Bool := false
  /-- tick on which the node withdrew (R131, R135) -/
  withdrawnAt : Tick := 0
  /-- the root has changed and the children are to be reported again once there is a parent (R141) -/
  rereport : Bool := false
  /-- the next offset sample of the parent steps the Sundial (R15): at the first acquisition, or for `merge` -/
  stepOwed : Bool := false
  /-- the change of root may be a merge of islands (R24) -/
  merge : Bool := false
  /-- the old root's hand-over has been seen, so a new root brings no step (R126) -/
  handed : Bool := false
  /-- "hall time merge" has been raised for the merge in progress (R24) -/
  mergeRaised : Bool := false
  /-- tick of the last offer sent (R133) -/
  offerAt : Tick := 0
  deriving DecidableEq, Repr

/-- A message waiting to start (R97): class 5 to 7, the tick it became ready, and, once it is known, how many MIRROR
messages the standby has yet to acknowledge before it may leave the root (R128). -/
structure Waiting where
  cls : Nat
  ready : Tick
  msg : Msg
  hold : Option Nat := none
  /-- it is the copy of a message that is in error or stomped, and leaves stomped (R92) -/
  bad : Bool := false
  deriving DecidableEq, Repr

/-- A message in the replay buffer (R93). -/
structure Sent where
  seq : BitVec 5
  msg : Msg
  bad : Bool := false
  deriving DecidableEq, Repr

/-- Link states (R82). -/
inductive LinkSt where
  | disabled | train | align | negotiate | calibrate | up | lost | downHeld | revFail
  deriving DecidableEq, Repr

/-- One Ronoux port: its registers and its link engine (03). -/
structure Port where
  -- TL_CTL
  en : Bool := false
  noTime : Bool := false
  revCap : BitVec 2 := 0
  swing : BitVec 4 := 8
  -- TL_STAT
  st : LinkSt := .disabled
  partnerTp : Bool := false
  calDone : Bool := false
  loss : Bool := false
  gasp : Bool := false
  ndown : Bool := false
  asymMm : Bool := false
  xcheck : Bool := false
  partnerPort : BitVec 6 := 0
  partnerSt : BitVec 2 := 0
  partnerRootSt : BitVec 2 := 0
  stomp : BitVec 4 := 0
  unknown : BitVec 4 := 0
  -- TL_ASYM, TL_DELAY, TL_RETRY_CNT, TL_RETRAIN_CNT, TL_REV
  asym : BitVec 16 := 0
  partnerAsym : BitVec 16 := 0
  delay : BitVec 32 := 0
  replays : BitVec 16 := 0
  crcErr : BitVec 16 := 0
  retrain : BitVec 16 := 0
  losses : BitVec 16 := 0
  rev : BitVec 4 := 0
  partnerMax : BitVec 4 := 0
  partnerMin : BitVec 4 := 0
  -- negotiation and the partner (R84, R136)
  negDone : Bool := false
  partnerNeg : Bool := false
  partnerCal : Bool := false
  partnerHub : Bool := false
  partnerHwid : BitVec 64 := 0
  partnerNode : NodeId := BitVec.allOnes 20
  partnerAnn : Option AnnounceMsg := none
  /-- the partner's own latest claim (R127) -/
  claim : Option ElectMsg := none
  -- state entered on this tick
  since : Tick := 0
  -- BEATs (R86 to R90)
  beatIdx : Byte := 0
  /-- the Sundial tick, a multiple of 128, for which the latest BEAT or what takes its place was sent (R86) -/
  beatAt : Option Tick := none
  /-- departure stamps of own BEATs, newest first, at most 16: index, stamp -/
  txStamps : List (Byte × HT80) := []
  /-- arrival stamps of the partner's BEATs, newest first, at most 16 -/
  rxStamps : List (Byte × HT80) := []
  lastBeat : Option HT80 := none
  /-- the newest BEAT of the partner with both stamps: index, departure, arrival; the pair that made the latest sample (R88) -/
  pairIn : Option (Byte × HT80 × HT80) := none
  lastPair : Option (Byte × Byte) := none
  /-- path latency of the transmitter and of the receiver as last measured, 2^-16 ns (R87, R89) -/
  latTx : BitVec 32 := 0
  latRx : BitVec 32 := 0
  /-- arrival stamp of the latest flit received (R14) -/
  lastRx : HT80 := 0
  /-- block phase on which the receiver found flit lock (R75) -/
  lockPhase : BitVec 2 := 0
  /-- the last 64 mean delays, newest first, 2^-16 ns (R90) -/
  delays : List (BitVec 32) := []
  theta : Int := 0
  exchanges : Nat := 0
  /-- BEATs in a row beyond the bound of R36 -/
  xcheckRun : Nat := 0
  -- sending (R93, R96, R97)
  waiting : List Waiting := []
  /-- time since the latest flit boundary in units of 1/25 ns, of which a flit lasts 256; flits still to go of the messages
  in progress (R74, R97) -/
  phase : Nat := 0
  left : Nat := 0
  replay : List Sent := []
  txSeq : BitVec 5 := 0
  /-- replays in a row that began at the oldest message (R96) -/
  sameStart : Nat := 0
  startSeq : BitVec 5 := 0
  replayAt : Tick := 0
  /-- tick of the last PHY self-calibration (R89) -/
  calAt : Tick := 0
  ackAt : Tick := 0
  -- receiving (R94, R95)
  rxSeq : BitVec 5 := 0
  unacked : Nat := 0
  nakAt : Option Tick := none
  discarding : Bool := false
  /-- flits still to be sent with a CRC in error (R340 mode 2) -/
  crcInject : BitVec 8 := 0
  /-- NODE_DOWN flits still owed by an orderly exit (R83) -/
  exiting : Nat := 0
  lastNodeDown : Tick := 0
  -- the tree (R133 to R137)
  tree : Option TreeMsg := none
  offeringSince : Option Tick := none
  /-- tick from which the port has qualified (R107) -/
  qualSince : Option Tick := none
  /-- the port has been lost since it last served as a source (R107) -/
  returned : Bool := false
  delaySent : Option (BitVec 32) := none
  /-- a DELAY that may be the first half of a report pair (R137) -/
  half : Option DelayMsg := none
  /-- lane test pattern drives the port (R416) -/
  lastTp : Bool := false
  -- health (R380)
  /-- link units of the running window and of the one that ended last; the partner's HEALTH: T, COUNT -/
  units : Nat := 0
  winUnits : Nat := 0
  partnerHealth : Option (HT80 × BitVec 32) := none
  deriving DecidableEq, Repr

/-- States of a partition entry (R153). -/
inductive PartSt where
  | free | opening | open_ | closing | quiesce
  deriving DecidableEq, Repr

/-- The part of a partition entry that each configuration set holds (R153). -/
structure PartSet where
  apex : Bool := false
  apexNode : NodeId := BitVec.allOnes 20
  upPort : Option PortNo := none
  children : List PortNo := []
  expArr : BitVec 16 := 0
  rankBase : BitVec 16 := 0
  dMax : BitVec 32 := 0
  deriving DecidableEq, Repr

/-- A barrier slot (R234). -/
structure BarSlot where
  bid : Byte
  cur : BitVec 2 := 0
  cntCur : BitVec 16 := 0
  cntNext : BitVec 16 := 0
  typesCur : BitVec 32 := 0
  typesNext : BitVec 32 := 0
  recCur : Record := 0
  recNext : Record := 0
  tlCur : HT80 := 0
  tlNext : HT80 := 0
  sent : Bool := false
  misuse : BitVec 16 := 0
  deriving DecidableEq, Repr

/-- An armed swap (R224). -/
structure SwapArm where
  t : HT80
  id : BitVec 32
  deriving DecidableEq, Repr

/-- A rank-map entry (R147). -/
structure RankEntry where
  node : NodeId := BitVec.allOnes 20
  valid : Bool := false
  resolved : Bool := false
  below : Bool := false
  ptag : PTag := 0
  rank : BitVec 16 := 0
  /-- HWID while unresolved, PATH once resolved -/
  path : BitVec 64 := 0
  apexHops : Byte := 0
  port : Byte := 0xFF
  deriving DecidableEq, Repr

/-- A tree link: the parent and its port, the child and its port (R142). -/
structure Link where
  parent : NodeId
  port : Byte
  child : NodeId
  cport : Byte
  deriving DecidableEq, Repr

/-- A partition as this node holds it (R153 to R161). -/
structure Part where
  part : BitVec 10
  ptag : PTag
  st : PartSt
  rev4 : Bool := false
  act : PartSet := {}
  shd : PartSet := {}
  copy : Bool := false
  rankCntM1 : BitVec 16 := 0
  bidsM1 : Byte := 0
  feat : Byte := 0
  tEvent : HT80 := 0
  tOpen : HT80 := 0
  tClose : Option HT80 := none
  opener : NodeId := BitVec.allOnes 20
  /-- this node has accepted the OPEN; children that acknowledged; the commit -/
  accepted : Bool := false
  acks : List PortNo := []
  committed : Bool := false
  closeAcks : List PortNo := []
  ended : Bool := false
  /-- fault that ended it; 0 after a close -/
  fault : BitVec 16 := 0
  slots : List BarSlot := []
  swap : Option SwapArm := none
  swaps : BitVec 8 := 0
  /-- hop count of the apex below the root, and whether this node is a member (R145, R147) -/
  apexHops : Byte := 0
  member : Bool := false
  /-- on a node above the apex: the port toward it -/
  down : Option PortNo := none
  /-- on the root: the links from the apex to each member, as the paths stood at OPEN (R144, R145) -/
  links : List (NodeId × List Link) := []
  /-- a member whose PARTITION_OPEN is posted and whose open block is still being read -/
  unread : Bool := false
  /-- this node has sent OPEN_ACK, and CLOSE_ACK (R154, R159) -/
  acked : Bool := false
  closeAcked : Bool := false
  /-- on the root: the margin in ns (R143), and whether a deferred open moved its tick (R160) -/
  margin : Nat := 96
  moved : Bool := false
  /-- on the standby: the state that the root has mirrored (R128) -/
  mst : PartSt := .free
  /-- on the standby: SWAP_ARMED as mirrored (R153) -/
  armedBit : Bool := false
  /-- rank-map entries of the active and the shadow set, by rank (R148) -/
  ranksA : List RankEntry := []
  ranksS : List RankEntry := []
  /-- first barrier slot of the run this node allocated (R149) -/
  slotBase : Nat := 0
  deriving DecidableEq, Repr

/-- A row of the root's node table (R138, R141, R142). -/
structure NodeRow where
  hwid : BitVec 64
  node : NodeId
  hub : Bool := false
  parent : NodeId := BitVec.allOnes 20
  port : Byte := 0
  cport : Byte := 0xFF
  hops : Byte := 0
  live : Bool := false
  seenAt : Tick := 0
  /-- link delay from the parent as a tree entry brought it (R139); TR_LTR in 2^-16 ns -/
  dly : BitVec 32 := 0
  ltr : BitVec 32 := 0
  /-- pairs of duplicate locations already reported: older parent and port, newer parent and port, last report -/
  dups : List ((NodeId × Byte) × (NodeId × Byte) × Tick) := []
  deriving DecidableEq, Repr

/-- A member table streamed ahead of its OPEN (R155): the index of its run, and the entries by rank. -/
structure Staged where
  ptag : PTag
  start : Nat := 0
  members : List (BitVec 16 × BitVec 64) := []
  dropped : Bool := false
  deriving DecidableEq, Repr

/-- An open that waits at the root (R160). -/
structure Deferred where
  msg : PartMsg
  since : Tick
  deriving DecidableEq, Repr

/-- The runs of one partition at one Hub: rank-map entries and barrier slots (R149). -/
structure Run where
  node : NodeId
  ptag : PTag
  rankAt : Nat
  ranks : Nat
  slotAt : Nat
  slots : Nat
  deriving DecidableEq, Repr

/-- The fabric state of a node, and of the root (05). -/
structure Fabric where
  parts : List Part := []
  /-- last generation per partition number (R159), and its count of stale flits (R162) -/
  gens : List (Nat × BitVec 6) := []
  /-- generation taken as last used where none is listed: 63 after a loss of state (R161) -/
  genBase : BitVec 6 := 0
  stales : List (Nat × BitVec 16) := []
  /-- on the root: the runs allocated at each Hub (R149) -/
  runs : List Run := []
  nodes : List NodeRow := []
  /-- on the root: the latest DELAY of each node and port (R142) -/
  delays : List ((NodeId × Byte) × BitVec 32) := []
  /-- the root took its role without a node table (R141) -/
  rebuild : Bool := false
  /-- the port through which an ASSIGN went to each node below this one (R140, R146) -/
  ways : List (NodeId × PortNo) := []
  /-- on a root with a standby: word 0 of each partition entry, by set and partition number, as the standby has
  acknowledged it (R128) -/
  shown : List ((Bool × BitVec 10) × BitVec 160) := []
  staged : List Staged := []
  defer : List Deferred := []
  /-- no PART OPEN is accepted before this tick (R161) -/
  reopenAt : Option Tick := none
  noStandbyAt : Tick := 0
  -- PT_SELECT
  ptPart : BitVec 10 := 0
  ptSet : Bool := false
  deriving DecidableEq, Repr

/-- A scheduled word a Stake has decoded: the host cycle it takes effect, CODE, ARG (R174). -/
structure Pend where
  hc : BitVec 64
  code : BitVec 4
  arg : BitVec 4
  deriving DecidableEq, Repr

/-- A combined or raw contribution to one slot (R243). -/
structure Contrib where
  slot : BitVec 3
  type : BitVec 4
  fmt : BitVec 3
  s : Byte
  data : BitVec 128
  deriving DecidableEq, Repr

/-- What a unit, or the Leaf core, holds for one barrier channel (R242, R244). -/
structure ChanSt where
  chan : BitVec 4
  /-- children that have arrived -/
  arrived : BitVec 128 := 0
  slots : List Contrib := []
  /-- at a Stake: an arrival made, and the one held for the next round -/
  cur : Bool := false
  next : Bool := false
  deriving DecidableEq, Repr

/-- A packet that waits at a unit for slots of its class on an output lane (R178). -/
structure Ready where
  pkt : Packet
  /-- 0: the unit's own; k + 1: of child k -/
  child : Byte := 0
  /-- it came in on a lane, whose buffer it holds until it starts (R177, R179) -/
  fwd : Bool := false
  /-- arbitrations lost -/
  lost : Nat := 0
  /-- copies of one packet for several children share it -/
  num : BitVec 32 := 0
  deriving DecidableEq, Repr

/-- One class of a unit's lane pair: the output lane's queue and credit, and what the input lane's buffer has to give
back (R177, R179). -/
structure TLane where
  /-- the neighbour: the parent, or child k -/
  port : Option Byte := none
  classU : Bool := false
  ready : List Ready := []
  /-- words of the packet in progress that are still to be sent -/
  rest : List (BitVec 20) := []
  /-- the word in the latest slot of the class, and the slot's first cycle -/
  last : Option (BitVec 64 × BitVec 20) := none
  /-- words for which the neighbour has returned no credit yet -/
  used : Nat := 0
  /-- words freed in the input buffer whose credit is still to be returned -/
  freed : Nat := 0
  deriving DecidableEq, Repr

/-- A Trellis set as one unit holds it (R181): the maps, an Arbor's TRIM, a Stake's LISTEN masks. -/
structure UnitSet where
  mapDn : BitVec 32 := 0x5555_5555
  mapUp : BitVec 32 := 0x5555_5555
  trim : BitVec 32 := 0
  fire : BitVec 16 := 0xFFFF
  rel : BitVec 16 := 0xFFFF
  wake : BitVec 16 := 0xFFFF
  win : BitVec 16 := 0xFFFF
  deriving DecidableEq, Repr

/-- A Trellis unit that holds anything beyond its reset state (06, R323). -/
structure TUnit where
  level : Level
  addr : CellAddr
  /-- the unit's host cycle count less HCC, modulo 4,096: seating loads the count, so that it is 0 (R163) -/
  slip : BitVec 12 := 0
  setA : UnitSet := {}
  setS : UnitSet := {}
  /-- down and up map before the latest switch, for the frame that was running then (R182) -/
  wasDn : BitVec 32 := 0x5555_5555
  wasUp : BitVec 32 := 0x5555_5555
  /-- the switch cycle of a SWAP word that the unit has taken (R182) -/
  swapAt : Option (BitVec 64) := none
  lanes : List TLane := []
  /-- ARRIVE words that wait for an S slot, and the word whose D copy is still to come (R172) -/
  upQ : List (BitVec 4) := []
  upD : Option (BitVec 28) := none
  /-- slots in which a ready packet of its own did not start, since the last TELEM (R179) -/
  deferrals : BitVec 32 := 0
  telemAt : Tick := 0
  chans : List ChanSt := []
  due : List Pend := []
  first : BitVec 16 := 0
  ovf : Bool := false
  /-- reports queued toward the Leaf core: code, DETAIL (R323) -/
  queued : List (BitVec 16 × BitVec 64) := []
  misuse : Byte := 0
  hold : Bool := false
  deriving DecidableEq, Repr

/-- One set of the Trellis configuration (R181): maps, the trims and masks that differ from reset. -/
structure TrellisSet where
  mapDn : BitVec 32 := 0x5555_5555
  mapUp : BitVec 32 := 0x5555_5555
  /-- region · 64 + block → TRIM word -/
  trims : List (Nat × BitVec 32) := []
  /-- ((region · 64 + block) · 64 + cell) · 4 + mask → LISTEN mask -/
  listen : List (Nat × BitVec 16) := []
  deriving DecidableEq, Repr

/-- A READ or WRITE that awaits its RDATA (R180), for descriptor `desc` if a CFG_WRITE sent it. A
broadcast covers the units of `level` below the unit `addr` of level `scope`. -/
structure Access where
  write : Bool
  level : Level
  addr : CellAddr
  scope : Option Level := none
  /-- the units that have yet to acknowledge -/
  owed : Nat
  sentAt : Tick
  /-- register index and value of a WRITE -/
  ix : BitVec 7 := 0
  value : BitVec 32 := 0
  /-- units of a broadcast that have answered -/
  heard : List CellAddr := []
  tries : Nat := 0
  desc : Option Nat := none
  deriving DecidableEq, Repr

/-- A down word to be sampled at the due tick of T − L_tr (R187). -/
structure Act where
  ix : BitVec 32
  t : HT80
  code : BitVec 4
  arg : BitVec 4
  /-- the partition whose SWAP it is, for the switch; of a FIRE, the partition of its LAUNCH -/
  ptag : PTag := 0
  /-- the TIMER whose WAKE it is (R262) -/
  obj : Option Nat := none
  /-- of a FIRE: the descriptor that its LAUNCH answers, and the due tick -/
  desc : Option Nat := none
  deriving DecidableEq, Repr

/-- What seating has found of a region (R184): dn_r, and per Arbor its latency from the Pergola and those of its Stakes
from it. -/
structure RegionSeat where
  region : BitVec 7
  dn : BitVec 8
  arbors : List (BitVec 4 × List (BitVec 4))
  upHold : BitVec 8
  deriving DecidableEq, Repr

/-- TR_SEAT_STAT.STATE. -/
inductive SeatSt where
  | unseated | seating | seated | failed
  deriving DecidableEq, Repr

/-- The Trellis as the Leaf core sees it (06). -/
structure Trellis where
  hcc : BitVec 64 := 0
  en : Bool := false
  view : Bool := false
  reseatRegion : BitVec 7 := 0
  regions : BitVec 8 := 0
  blocks : BitVec 8 := 0
  cells : BitVec 8 := 0
  seat : SeatSt := .unseated
  cause : BitVec 4 := 0
  failRegion : BitVec 7 := 0
  hPa : BitVec 4 := 0
  hAs : BitVec 4 := 0
  lSeat : BitVec 8 := 0
  ltr : BitVec 12 := 0
  k : BitVec 12 := 0
  kMin : BitVec 8 := 0
  holdLat : BitVec 8 := 0
  hCell : BitVec 8 := 0
  hTrellis : BitVec 8 := 0
  lastErr : BitVec 16 := 0
  maxErr : BitVec 16 := 0x8000
  episodes : BitVec 16 := 0
  lastRegion : BitVec 7 := 0
  /-- HCC at which the latest episode began (R194: ties) -/
  episodeAt : BitVec 64 := 0
  defer : BitVec 8 := 0
  /-- HOLD bits of the up lanes -/
  upHold : BitVec 128 := 0
  /-- the cycle on which their OR last changed, and the OR before that (R193) -/
  upHoldAt : BitVec 64 := 0
  upHoldWas : Bool := false
  /-- changes of HOLD on the root lanes, latest first, each with its first cycle (R193, R194) -/
  holdLog : List (BitVec 64 × Bool) := []
  /-- TR_SAT residues in slots, by level: cell, block, region, chip -/
  sat : List Nat := [0, 0, 0, 0]
  cyc1024 : BitVec 16 := 0
  /-- a reseat of one region runs (R417) -/
  reseating : Bool := false
  /-- bit r: the units of region r are seated (R165, R183) -/
  seated : BitVec 128 := 0
  /-- what the last seating found, by region (R184, R417) -/
  seats : List RegionSeat := []
  /-- tick on which STATE became SEATED; HCC at the start of the window that runs, and the count of the one that ended
  last (R186) -/
  seatedAt : Tick := 0
  winHcc : BitVec 64 := 0
  winCount : Nat := 0
  setA : TrellisSet := {}
  setS : TrellisSet := {}
  trimRegion : BitVec 7 := 0
  trimBlock : BitVec 6 := 0
  /-- switch cycle of a COPY or of a SWAP word, and whether it exchanges (SWAP) or copies (R182) -/
  switchAt : Option (BitVec 64 × Bool) := none
  /-- the latest switch cycle, and the Leaf core's maps before it (R182) -/
  switchedAt : BitVec 64 := 0
  wasDn : BitVec 32 := 0x5555_5555
  wasUp : BitVec 32 := 0x5555_5555
  acts : List Act := []
  actIx : BitVec 32 := 0
  units : List TUnit := []
  pktIx : BitVec 32 := 0
  accesses : List Access := []
  /-- what the Leaf core's READs have brought, by unit (R176, R213, R277) -/
  reads : List ((Level × CellAddr) × List (BitVec 20)) := []
  /-- S slots allotted whose words are not wholly sent: first cycle and content (R172, R175) -/
  slots : List (BitVec 64 × BitVec 20) := []
  /-- first cycle of the latest S slot used, and of the latest CHECK sent (R175, R191) -/
  lastSlot : BitVec 64 := 0
  checkAt : BitVec 64 := 0
  /-- down words sent whose effective cycle is still to come (R190, R194) -/
  sent : List (BitVec 64 × Act) := []
  deriving DecidableEq, Repr

/-- Actions of the tick table (R201). -/
inductive Action where
  | launch | windowOpen | windowClose | loadStep | signal | swap | park | capOpen | capClose
  deriving DecidableEq, Repr

/-- A tick-table entry (R200), with the descriptor that inserted it. -/
structure Entry where
  action : Action
  rel : Bool := false
  env : Bool := false
  node : Bool := false
  resolved : Bool := true
  ptag : PTag := 0
  id : BitVec 32 := 0
  t : HT80 := 0
  ofs : BitVec 32 := 0
  arg : Byte := 0
  relBid : Byte := 0
  relRound : BitVec 32 := 0
  seq : BitVec 32 := 0
  /-- number of the taken descriptor it answers; none for an entry from a flit -/
  desc : Option Nat := none
  /-- it is the last entry of its descriptor -/
  last : Bool := true
  deriving DecidableEq, Repr

/-- A refresh-window schedule (R215). -/
structure Sched where
  t0 : HT80 := 0
  period : BitVec 32 := 0
  length : BitVec 32 := 0
  count : BitVec 16 := 0
  mask : BitVec 16 := 0
  announce : Bool := false
  en : Bool := false
  deriving DecidableEq, Repr

/-- A load envelope (R220). -/
structure Env where
  lRun : BitVec 4 := 0
  lFloor : BitVec 4 := 0
  rUp : BitVec 32 := 0
  rDn : BitVec 32 := 0
  dwell : BitVec 32 := 0
  en : Bool := false
  deriving DecidableEq, Repr

/-- A ramp of a LOAD_STEP entry that has begun (R223): the entry, its due tick, OFS in ns, the levels. -/
structure Ramp where
  seq : BitVec 32
  due : Tick
  ofs : Nat
  start : BitVec 4
  target : BitVec 4
  deriving DecidableEq, Repr

/-- A step overrun whose region is being read (R213): SEQ of its FAULT record once written. -/
structure Overrun where
  seq : Option (BitVec 16) := none
  ptag : PTag
  region : BitVec 7
  stamp : HT80
  /-- the barrier channel that the units are asked about -/
  chan : Option (BitVec 4) := none
  deriving DecidableEq, Repr

/-- The Bandstand (07) and the load and lending outputs (R220 to R223, R347). -/
structure Band where
  table : List Entry := []
  seq : BitVec 32 := 0
  hwm : BitVec 13 := 0
  sigHost : BitVec 64 := 0
  lateSteps : BitVec 16 := 0
  slack : BitVec 32 := 0
  forced : BitVec 16 := 0
  lastMc : BitVec 4 := 0
  lastInside : Bool := false
  /-- window schedules of the active and the shadow set, 16 each, and the openings so far -/
  schedA : List Sched
  schedS : List Sched
  openW : BitVec 16 := 0
  /-- openings taken so far of each active schedule -/
  opened : List Nat
  envA : Env := {}
  envS : Env := {}
  level : BitVec 4 := 0
  ramps : List Ramp := []
  /-- t_d of the step whose local arrival has been made (R221) -/
  descent : Option Tick := none
  /-- the target is L_RUN: the due tick of an ENV launch has passed, and no t_d since (R221) -/
  run : Bool := false
  /-- T of ENV launches whose FIRE has been sent and whose due tick is to come -/
  envFires : List HT80 := []
  /-- the level that LOAD_STEP entries have asked for (R223) -/
  stepTarget : BitVec 4 := 0
  /-- the descent without an active context: its start, the level then, s_dn in ns (R223) -/
  idle : Option (Tick × BitVec 4 × Nat) := none
  /-- an upward move of more than one level is under way (R222) -/
  compressing : Bool := false
  compressed : Bool := false
  lastChange : Tick := 0
  lastFall : Option Tick := none
  lendCaseA : Bool := false
  -- PW_ENV_CTL, PW_LEND_CTL, PW_LEND_STAT
  force : Bool := false
  forceLevel : BitVec 4 := 0
  lendEn : Bool := false
  lendIdle : Bool := false
  lendMin : BitVec 12 := 0
  lendGuard : BitVec 16 := 0
  lendEpisodes : BitVec 16 := 0
  lendShort : BitVec 16 := 0
  overrun : Option Overrun := none
  deriving DecidableEq, Repr

/-- Object types (R259). -/
inductive ObjType where
  | none | counter | flag | barrier | timer
  deriving DecidableEq, Repr

/-- A synchronisation object (R259). -/
structure Obj where
  type : ObjType := .none
  armed : Bool := false
  consume : Bool := false
  double : Bool := false
  expired : Bool := false
  remoteOk : Bool := false
  wchan : BitVec 4 := 0
  wakeEn : Bool := false
  auto : Bool := false
  rel : Bool := false
  cnt16 : BitVec 16 := 0
  value : BitVec 32 := 0
  thresh : BitVec 16 := 0
  chan : BitVec 4 := 0
  chanEn : Bool := false
  localDone : Bool := false
  hostCur : Bool := false
  hostNext : Bool := false
  timeout : BitVec 32 := 0
  deadline : HT80 := 0
  deriving DecidableEq, Repr

/-- What BARRIER_ARM supplied (R232). -/
structure Arm where
  bid : Byte
  step : Bool
  notify : Bool
  chanEn : Bool
  chan : BitVec 4
  types : BitVec 32
  s : BitVec 64
  cfg : BitVec 64
  resultAddr : BitVec 64
  timeout : BitVec 32
  hostTag : BitVec 32
  deriving DecidableEq, Repr

/-- A release accepted and not yet taken (R239, R240). -/
structure Rel where
  bid : Byte
  round : BitVec 32
  /-- T_rel as stamped by the apex, and moved by 32 ns × j -/
  tApex : HT80
  t : HT80
  j : BitVec 16
  red : Bool
  record : Record
  deriving DecidableEq, Repr

/-- Step limits and expected signatures of one set (R209, R211). -/
structure StepCfg where
  budget : BitVec 32 := 0
  limit : BitVec 32 := 0
  sigHost : BitVec 64 := 0
  sigBlock : BitVec 64 := 0
  deriving DecidableEq, Repr

/-- The five section accumulators with their counts, in the order L, B, E, H, O (R282). -/
structure DigAcc where
  a : List (BitVec 64) := [0, 0, 0, 0, 0]
  n : List (BitVec 16) := [0, 0, 0, 0, 0]
  deriving DecidableEq, Repr

/-- States of a context slot (R256). -/
inductive CtxSt where
  | free | opening | active | parked | ended
  deriving DecidableEq, Repr

/-- What a digest interval takes (R282, R284). -/
inductive DigEv where
  | item (sec : Nat) (bytes : List Byte)
  | edge (input : BitVec 3) (falling : Bool)
  | double (o : BitVec 12)
  | held
  | intr
  | lateQ (j : BitVec 16)
  | stretch (e : BitVec 16)
  | realign (v : BitVec 64)
  deriving DecidableEq, Repr

/-- A context slot and the member's state of its partition (R211, R256, R280 to R290). -/
structure Ctx where
  st : CtxSt := .free
  ptag : PTag := 0
  image : Bool := false
  /-- tag of the ended partition whose entries are kept (R257, R278) -/
  imageTag : PTag := 0
  /-- barrier-slot records as they stood at the end (R276) -/
  endSlots : List (BitVec 256) := []
  /-- a context has become ACTIVE since this one ended (R275) -/
  superseded : Bool := false
  /-- resumed, with no step-barrier release since (R273) -/
  resumed : Bool := false
  dumpBusy : Bool := false
  disarmed : Byte := 0
  clearing : Bool := false
  objs : List (Nat × Obj) := []
  arms : List Arm := []
  rels : List Rel := []
  chans : List ChanSt := []
  cfgA : StepCfg := {}
  cfgS : StepCfg := {}
  rank : BitVec 32 := 0
  rankCnt : BitVec 32 := 0
  step : BitVec 64 := 0
  step0 : BitVec 64 := 0
  tStart : Option Tick := none
  tArr : Option Tick := none
  lastArr : Option Tick := none
  held : BitVec 32 := 0
  intr : BitVec 16 := 0
  stretch : Option (BitVec 16) := none
  lateQ : BitVec 16 := 0
  overrun : Bool := false
  p : BitVec 64 := 0
  gPrev : BitVec 64 := 0
  firstStep : Bool := true
  /-- digest interval start and its values (R280 to R284) -/
  iStart : HT80 := 0
  acc : DigAcc := {}
  doubles : List (BitVec 12) := []
  /-- events by stamp that no interval has taken yet (R280) -/
  digQ : List (HT80 × DigEv) := []
  iHeld : BitVec 32 := 0
  iIntr : BitVec 16 := 0
  iStretch : Option (BitVec 16) := none
  iLateQ : BitVec 16 := 0
  iRealign : BitVec 64 := 0
  d0 : BitVec 64 := 0
  d1 : BitVec 64 := 0
  /-- region digests of the running interval, and of the one whose step is current (R290) -/
  w : List (Nat × BitVec 64) := []
  wStep : List (Nat × BitVec 64) := []
  /-- G0 of the latest step-barrier release, and G1 (R285) -/
  g0 : BitVec 64 := 0
  g1 : BitVec 64 := 0
  /-- provenance check made and passed (R289) -/
  prov : Bool := false
  divThis : Bool := false
  /-- the interval of the step whose arrival has been made was replayed (R289) -/
  rep : Bool := false
  /-- first fault code that ended it -/
  fault : BitVec 16 := 0
  endT : HT80 := 0
  deriving DecidableEq, Repr

/-- A recorded entry read from the Replay ring (R292 to R294). -/
inductive RepEntry where
  | capture (input : BitVec 3) (edge : Bool) (step : BitVec 32) (ofs : HT80)
  | step (gv : Bool) (step : BitVec 32) (d0 g0 : BitVec 64)
  deriving DecidableEq, Repr

/-- A post that has reached the object engine and waits for its turn in the tick (R263). `src` 0 cell, 1 sync window, 2 remote. -/
structure PostEv where
  slot : Bool
  obj : Nat
  op : Byte
  operand : BitVec 32
  src : Nat
  rank : BitVec 32
  deriving DecidableEq, Repr

/-- Sync-engine and digest registers (09, 10). -/
structure Sync where
  sel : Bool := false
  autoDump : Bool := true
  stale : BitVec 16 := 0
  remote : BitVec 16 := 0
  ops : BitVec 16 := 0
  noctx : BitVec 16 := 0
  rises : BitVec 16 := 0
  /-- posts of this tick, in order of arrival -/
  posts : List PostEv := []
  -- DG_
  rec_ : Bool := false
  recCap : Bool := false
  recRegion : Bool := false
  capMask : Byte := 0
  layerLo : BitVec 32 := 0
  recDrop : BitVec 16 := 0
  liveIgn : BitVec 16 := 0
  clamp : Byte := 0
  cellDrop : Byte := 0
  layerNoctx : Byte := 0
  provMm : Bool := false
  divStep : Option (BitVec 32) := none
  recOvf : Bool := false
  -- replay in progress: ptag, FIRST_STEP, LAST_STEP, descriptor number
  replay : Option (PTag × BitVec 64 × BitVec 64 × Nat) := none
  replayQ : List RepEntry := []
  lastOfs : Option (BitVec 32 × HT80) := none
  /-- recorded G0 of the step whose release is awaited -/
  recG0 : Option (BitVec 32 × BitVec 64) := none
  deriving DecidableEq, Repr

/-- RING_STAT.STATE. -/
inductive RingSt where
  | stopped | running | halted | stopping
  deriving DecidableEq, Repr

/-- One ring (11): registers and both indices. -/
structure Ring where
  base : BitVec 64 := 0
  log2 : BitVec 5 := 4
  db : BitVec 64 := 0
  en : Bool := false
  poll : Bool := true
  cls : Bool := false
  st : RingSt := .stopped
  err : BitVec 2 := 0
  drop : BitVec 16 := 0
  /-- groups of records held (R304), each with the number of the descriptor it completes -/
  held : List (List (BitVec 256) × Option Nat) := []
  ovf : Bool := false
  /-- the read of CONS before a write has shown no space (R300) -/
  full : Bool := false
  /-- host-produced: PROD last read; block-produced: PROD written -/
  prod : BitVec 32 := 0
  /-- CONS: the block's own, or the host's last read (RING_CONS) -/
  cons : BitVec 32 := 0
  /-- next index to read or to write -/
  next : BitVec 32 := 0
  /-- entries read and not yet taken, by index (R305) -/
  fetched : List (BitVec 32 × Desc) := []
  /-- host-produced: CONS as last written to the doorbell block -/
  consOut : BitVec 32 := 0
  /-- number of the FENCE that holds the ring (R315) -/
  fence : Option Nat := none
  lastPoll : Tick := 0
  deriving DecidableEq, Repr

/-- What an hm_ request is for (R51). -/
inductive HmKind where
  | doorbell (ring : BitVec 3)
  | entry (ring : BitVec 3) (ix : BitVec 32)
  /-- a record at index `ix`; `num` is the descriptor whose final record it is -/
  | record (ring : BitVec 3) (ix : BitVec 32) (num : Option Nat)
  | prod (ring : BitVec 3)
  | cons (ring : BitVec 3)
  | openBlock (ring : BitVec 3) (desc : Nat) (half : Bool)
  | members (ring : BitVec 3) (desc : Nat) (first : Nat)
  | area
  | image (core : Bool) (ofs : Nat)
  deriving DecidableEq, Repr

/-- An hm_ request (R49). -/
structure HmReq where
  kind : HmKind
  write : Bool
  addr : BitVec 64
  beats : Nat
  data : BitVec 512 := 0
  /-- hm_req_be: bytes of a write, from the first beat on -/
  be : BitVec 64 := BitVec.allOnes 64
  deriving DecidableEq, Repr

/-- The open block of a PARTITION_OPEN (R310). -/
structure OpenBlock where
  prog : BitVec 64 := 0
  weights : BitVec 64 := 0
  inputs : BitVec 64 := 0
  sigHost : BitVec 64 := 0
  sigBlock : BitVec 64 := 0
  step0 : BitVec 64 := 0
  rank : BitVec 32 := 0
  rankCnt : BitVec 32 := 0
  budget : BitVec 32 := 0
  limit : BitVec 32 := 0
  margin : BitVec 32 := 0
  bidsM1 : Byte := 0
  feat : Byte := 0
  deriving DecidableEq, Repr

/-- A descriptor taken and not yet final (R305, R312). -/
structure Taken where
  num : Nat
  urgent : Bool
  opcode : Byte
  node : Bool
  ptag : PTag
  hostTag : BitVec 32
  takenAt : Tick
  body : Desc
  /-- its final record has been handed to the Completion ring -/
  fin : Bool := false
  /-- PARTITION_OPEN: what has been read of the open block, members streamed, bound to an OPEN -/
  lo : Option (BitVec 512) := none
  blk : Option OpenBlock := none
  streamed : Nat := 0
  bound : Bool := false
  /-- BARRIER_ARM and RELEASE carry it; CFG_WRITE: units still to acknowledge -/
  owed : Nat := 0
  deriving DecidableEq, Repr

/-- A record that a dump has still to write (R275). -/
inductive DumpItem where
  /-- the HEADER, and what is shown as it stood at the end of the partition (R276) -/
  | fixed (rec : BitVec 256)
  | object (o : Nat)
  | slot (bid : Byte)
  | entry (seq : BitVec 32)
  | unit (level : BitVec 2) (a : CellAddr)
  | last
  deriving DecidableEq, Repr

/-- A dump being written (R275 to R277, R304). -/
structure DumpJob where
  slot : Option Bool
  ptag : PTag
  desc : Option Nat
  todo : List DumpItem
  written : Nat := 0
  bytes : List (BitVec 256) := []
  /-- tick from which the ring has had no space -/
  stalled : Option Tick := none
  deriving DecidableEq, Repr

/-- A group of completion records that waits for its place among those of its tick (R314). -/
structure Answer where
  stamp : HT80
  /-- 0 STEP and RELEASE, 1 entries, 2 other descriptors, 3 END -/
  cls : Nat
  /-- taken order, in class 2 -/
  order : Nat
  group : List (BitVec 256)
  num : Option Nat
  deriving DecidableEq, Repr

/-- The ring engine and its hm_ port (11, R49 to R51). -/
structure Engine where
  rings : List Ring
  /-- outstanding requests by tag -/
  hm : List (BitVec 6 × HmReq × Tick) := []
  hmQ : List HmReq := []
  /-- tags whose request timed out and whose late response is still owed (R49, R51) -/
  dead : List (BitVec 6) := []
  /-- completion groups of this tick -/
  answers : List Answer := []
  /-- END records that wait for an event record's write response (R314) -/
  ends : List (BitVec 256) := []
  /-- completion groups that wait for the write responses of a result area (R255) -/
  areaQ : List (List (BitVec 256) × Option Nat) := []
  taken : List Taken := []
  takenNum : Nat := 0
  /-- tick of the latest take (R305) -/
  lastTake : Option Tick := none
  pollHost : BitVec 16 := 0x40
  pollRemote : BitVec 16 := 0x3E8
  dump : Option DumpJob := none
  /-- dumps at a fault end that wait for another dump (R274) -/
  dumpQ : List DumpJob := []
  /-- the engine writes no more record (R336, R350) -/
  quiet : Bool := false
  deriving DecidableEq, Repr

/-- An event record of the collector (R316). -/
structure EvRec where
  kind : Byte
  flags : Byte
  ptag : PTag
  code : BitVec 16
  seq : BitVec 16
  stamp : HT80
  node : NodeId
  loc : BitVec 24
  detail : BitVec 64
  deriving DecidableEq, Repr

/-- A value held with its complement (R9, R333). -/
structure CPair (n : Nat) where
  v : BitVec n
  c : BitVec n
  deriving DecidableEq, Repr

/-- The fault collector (12). -/
structure Collector where
  /-- FC_FIRST: FAULT, SEQ, LOC, VALID, PART_V as the 64-bit value words -/
  first : CPair 64
  /-- FC_FIRST_T and its PTAG: T in [79:0], PTAG in [95:80] -/
  firstT : CPair 96
  ovf : CPair 32
  mask : CPair 32
  promote : CPair 32
  ceCnt : CPair 32
  /-- history, newest first -/
  hist : List (CPair 256) := []
  ceLost : BitVec 16 := 0
  histSel : BitVec 5 := 0
  seq : BitVec 16 := 0
  /-- FAULT_DETAIL contents that wait for their FAULT record: code, PTAG, DETAIL (R210, R316) -/
  details : List (BitVec 16 × PTag × BitVec 64) := []
  /-- reports waiting, oldest first -/
  inbox : List Report := []
  /-- records written, for coalescing: code, LOC, partV, PTAG, stamp of writing -/
  recent : List (BitVec 16 × BitVec 24 × Bool × PTag × Tick) := []
  safe : Bool := false
  safeAt : Tick := 0
  /-- the SAFE record has still to be written (R336) -/
  safeOwed : Bool := false
  self : Bool := false
  recLost : Bool := false
  wasSafe : Bool := false
  safeFault : BitVec 16 := 0
  -- FC_INJ
  injCode : BitVec 16 := 0
  injMode : BitVec 3 := 0
  injCount : BitVec 8 := 0
  injDone : BitVec 3 := 0
  injLoc : BitVec 24 := 0
  injPtag : PTag := 0
  injPartV : Bool := false
  deriving DecidableEq, Repr

/-- PD_STAT.STATE (R344). -/
inductive DomSt where
  | off | waking | on | shutting
  deriving DecidableEq, Repr

/-- One power domain (R342 to R346). -/
structure Domain where
  en : Bool := false
  st : DomSt := .off
  req : Bool := false
  ack : Bool := false
  clearing : Bool := false
  errTimeout : Bool := false
  errLost : Bool := false
  wakes : BitVec 16 := 0
  /-- req changed on this tick and ack has not followed (R345) -/
  since : Option Tick := none
  deriving DecidableEq, Repr

/-- Power domains, power fail and banks (13). -/
structure Power where
  doms : List Domain
  filt : BitVec 3 := 1
  shed : Bool := true
  pfail : Bool := false
  pfailT : HT80 := 0
  /-- tick on which pw_pfail was asserted -/
  pfailAt : Tick := 0
  committed : Bool := false
  drained : Bool := false
  owners : List (BitVec 4)
  conflicts : List (BitVec 16)
  /-- bank bytes: address bank · 2^19 + offset, strictly rising, none equal to what it reads as -/
  mem : List Host.Cell := []
  /-- banks whose unlisted bytes a self-test left: bank, draw (R416) -/
  scrambled : List (Nat × Nat) := []
  deriving DecidableEq, Repr

/-- Lifecycle states (R359). -/
inductive Life where
  | blank | factory | field | service | retired
  deriving DecidableEq, Repr

/-- Fuses and the Gatehouse (14). -/
structure Gate where
  -- fuses
  lc : BitVec 3 := 0
  hwidFuse : BitVec 64 := 0
  devKey : BitVec 256 := 0
  lgcfgFuse : BitVec 8 := 0
  thermFuse : BitVec 16 := 0
  eOwnFuse : BitVec 5 := 0
  eLgFuse : BitVec 7 := 0
  -- as read at cold reset
  life : Life := .blank
  hwid : BitVec 64 := 0
  eOwn : BitVec 5 := 0
  -- GH_STATE
  scope : BitVec 3 := 0
  keyOk : Bool := false
  fails : BitVec 4 := 0
  result : BitVec 4 := 0
  locked : Bool := false
  lockedAt : Tick := 0
  chal : Option (BitVec 128) := none
  chalAt : Tick := 0
  drawing : Bool := false
  staged : Option (BitVec 256) := none
  resp : BitVec 256 := 0
  openedAt : Tick := 0
  /-- the first failure since cold start has been written (R364) -/
  failNoted : Bool := false
  deriving DecidableEq, Repr

/-- Odometer totals (R369). -/
structure Odo where
  poweredS : BitVec 32 := 0
  thermal : BitVec 32 := 0
  retrains : BitVec 32 := 0
  ce : BitVec 64 := 0
  uc : BitVec 32 := 0
  ft : BitVec 16 := 0
  serdesS : BitVec 64 := 0
  pfails : BitVec 16 := 0
  unclean : BitVec 16 := 0
  coldStarts : BitVec 32 := 0
  svcCount : BitVec 32 := 0
  svcLost : BitVec 32 := 0
  tMax : BitVec 8 := 0x80
  tNow : BitVec 8 := 0
  deriving DecidableEq, Repr

/-- What a page of the ledger flash holds (R368). -/
inductive Page where
  | valid (bytes : BitVec 1024)
  | invalid
  /-- programmed to 0x00 throughout (R366) -/
  | wiped
  deriving DecidableEq, Repr

/-- A SERVICE record waiting to be written: NOTE_CODE, SOURCE, NOTE, descriptor (R370, R372). -/
structure SvcReq where
  code : BitVec 16
  host : Bool
  note : BitVec 256
  desc : Option Nat := none
  deriving DecidableEq, Repr

/-- The page program in progress (R372). -/
inductive Job where
  | odo (pfail : Bool)
  | svc (r : SvcReq)
  deriving DecidableEq, Repr

/-- The Grotto ledger (14). -/
structure Ledger where
  tHi : BitVec 8 := 0x55
  tLo : BitVec 8 := 0x2D
  cfg : BitVec 7 := 0
  cfgWritten : Bool := false
  seq : BitVec 64 := 0
  unanchored : Bool := false
  ready : Bool := false
  absent : Bool := false
  rollback : Bool := false
  scanning : Bool := false
  rdBusy : Bool := false
  rdValid : Bool := false
  rdErased : Bool := false
  svcFull : Bool := false
  bad : BitVec 8 := 0
  rdArea : BitVec 2 := 0
  rdIndex : BitVec 22 := 0
  rdData : BitVec 1024 := 0
  odo : Odo := {}
  /-- the temperature has reached T_HI since the last count (R369) -/
  hot : Bool := false
  queue : List SvcReq := []
  odoDue : Bool := false
  job : Option Job := none
  /-- the record being programmed, and read-backs that have failed -/
  rec_ : BitVec 1024 := 0
  tries : Nat := 0
  /-- a SERVICE record waits for the next 10 s boundary (R372) -/
  svcHold : Bool := false
  /-- POWERED_S of the latest 10 s boundary, and the tick of the latest second -/
  odoAt : BitVec 32 := 0
  sampleAt : Tick := 0
  lastFlush : Option Tick := none
  /-- MAC of the newest SERVICE record -/
  chain : BitVec 128 := 0
  -- the flash: journal pages and service-log pages by page index, headers A and B
  journal : List (Nat × Page) := []
  jPos : Nat := 0
  log : List Page := []
  hdrA : Option Page := none
  hdrB : Option Page := none
  erasing : Option Nat := none
  /-- the power-fail commit has run; nothing more is written until cold reset (R373) -/
  sealed : Bool := false
  exhaustedRaised : Bool := false
  /-- what the scan's check of the service log's chain found (R374) -/
  chained : Bool := true
  deriving DecidableEq, Repr

/-- One scored entity (R378 to R383), kept only when it differs from the reset score. -/
structure Score where
  s : BitVec 24 := 0
  /-- units of the running window and of the one that ended last -/
  units : Nat := 0
  win : Nat := 0
  hard : Bool := false
  verdict : BitVec 2 := 0
  capped : Bool := false
  deriving DecidableEq, Repr

/-- Health scoring (14). -/
structure Health where
  en : Bool := true
  tAdv : BitVec 8 := 0x10
  tExp : BitVec 8 := 0x40
  halflife : BitVec 24 := 0x5460
  floor : BitVec 16 := 0
  spares : BitVec 16 := 0
  /-- tick of the last write of HS_SPARES; none since reset -/
  sparesAt : Option Tick := none
  stale : Bool := true
  base : BitVec 9 := 0
  scores : List (Nat × Score) := []
  /-- tick W of the latest window end, whose charge at W + 1 ms is still due -/
  window : Tick := 0
  due : Bool := false
  /-- the verdicts are evaluated as this tick ends (R383) -/
  evalDue : Bool := false
  deriving DecidableEq, Repr

/-- A capture FIFO entry (R413). -/
structure CapEnt where
  t : HT80
  falling : Bool
  injected : Bool
  deriving DecidableEq, Repr

/-- One capture input (R411). -/
structure Capture where
  en : Bool := false
  slope : BitVec 2 := 1
  winMode : Bool := false
  winOpen : Bool := false
  thresh : Byte := 0x78
  tOpen : BitVec 32 := 0
  tClose : BitVec 32 := 0
  fifo : List CapEnt := []
  dead : Byte := 0
  ovf : Byte := 0
  lastEdge : Option HT80 := none
  snap : Option CapEnt := none
  /-- edges of this tick that EN and SLOPE take: falling, stamp (R412) -/
  edges : List (Bool × HT80) := []
  deriving DecidableEq, Repr

/-- Belvedere's trace (R414). -/
structure Trace where
  en : Bool := false
  src : BitVec 2 := 0
  stopOnFault : Bool := false
  port : PortNo := 0
  wrapped : Bool := false
  stopped : Bool := false
  index : BitVec 9 := 0
  /-- entries, oldest first -/
  buf : List (BitVec 256) := []
  deriving DecidableEq, Repr

/-- The Test page (R416). -/
structure TestPage where
  port : PortNo := 0
  loop : BitVec 2 := 0
  pattern : BitVec 2 := 0
  check : Bool := false
  plock : Bool := false
  errors : BitVec 32 := 0
  bank : BitVec 5 := 0
  alg : Bool := false
  busy : Bool := false
  pass : Bool := false
  fail : Bool := false
  firstFail : BitVec 16 := 0
  tdc : Byte := 0
  halt0 : Bool := false
  halt1 : Bool := false
  pc0 : BitVec 32 := 0
  pc1 : BitVec 32 := 0
  deriving DecidableEq, Repr

/-- FW_STAT.STATE. -/
inductive FwSt where
  | none | loading | verifying | running | failed
  deriving DecidableEq, Repr

/-- Firmware and TDCs (15). -/
structure Firmware where
  base : BitVec 64 := 0
  len : BitVec 24 := 0
  st : FwSt := .none
  cause : BitVec 4 := 0
  rev : BitVec 16 := 0
  /-- what core 0 and core 1 have read of the image: the header and their own segment, as 64-byte blocks by offset -/
  blocks : List (Nat × BitVec 512) := []
  blocks1 : List (Nat × BitVec 512) := []
  /-- the offset up to which each has asked -/
  asked : Nat := 0
  asked1 : Nat := 0
  tdcOk : Bool := false
  calibrating : Bool := false
  /-- draw of the current TDC tables -/
  tdcDraw : Nat := 0
  /-- tick of PD2's wake, or of the latest calibration; the first TDC that failed the latest one -/
  tdcAt : Tick := 0
  tdcFailed : Option Byte := none
  /-- the image gives core 0, core 1 no segment, so that it stays halted (R390) -/
  idle0 : Bool := false
  idle1 : Bool := false
  deriving DecidableEq, Repr

/-- The register port's answer to the last access (R46, R47). -/
structure RegPort where
  err : Bool := false
  rdata : Word := 0
  /-- snapshots of R406 by lowest word's offset -/
  snaps : List (Nat × List Word) := []
  deriving DecidableEq, Repr

/-- What the block drives outward: flits, hm_ transfers, Trellis words, events at cells. -/
inductive Out where
  | flit (p : PortNo) (seq : BitVec 5) (m : Msg) (crcBad : Bool)
  | beat (p : PortNo) (m : BeatMsg)
  | acknak (p : PortNo) (seq : BitVec 5) (nak : Bool)
  | train (p : PortNo) (m : TrainMsg)
  | nodeDown (p : PortNo) (m : NodeDownMsg)
  | lastGasp (p : PortNo) (m : LastGaspMsg)
  | hm (tag : BitVec 6) (r : HmReq)
  /-- one copy of a scheduled word on every root lane: the slot's first cycle, the word (R172) -/
  | word (at_ : BitVec 64) (w : BitVec 28)
  /-- one copy of a scheduled word toward the parent -/
  | upWord (level : Level) (a : CellAddr) (at_ : BitVec 64) (w : BitVec 28)
  /-- the header of a packet, and the words that follow it, on one lane -/
  | packet (level : Level) (a : CellAddr) (port : Option Byte) (k : Packet)
  /-- one copy of a scheduled word that a unit passes on in slot `slot`, to the children of trim group `group` -/
  | fwdWord (level : Level) (a : CellAddr) (group : Nat) (slot : BitVec 6) (w : BitVec 28)
  /-- the HOLD bit of a unit toward its parent changes (R193) -/
  | hold (level : Level) (a : CellAddr) (b : Bool)
  | present (a : CellAddr) (code arg : BitVec 4)
  | result (a : CellAddr) (ctl : BitVec 9) (data : BitVec 128)
  /-- a stomped copy (R92) -/
  | stomp (p : PortNo) (seq : BitVec 5) (m : Msg)
  | idle (p : PortNo)
  /-- a command on the lg_ port, with its address and the page that it programs (R66) -/
  | lg (cmd : Byte) (addr : Option Nat) (page : Option Page)
  deriving DecidableEq, Repr

/-- The block. -/
structure State where
  profile : Profile
  pins : Pins
  sun : Sun
  org : Org
  elect : Elect
  ports : List Port
  fab : Fabric
  tr : Trellis
  band : Band
  ctx0 : Ctx
  ctx1 : Ctx
  sync : Sync
  eng : Engine
  fc : Collector
  pw : Power
  gate : Gate
  lg : Ledger
  hs : Health
  cap : List Capture
  bv : Trace
  tst : TestPage
  fw : Firmware
  rp : RegPort
  /-- everything driven outward so far, newest first: the model's record of the output pins -/
  out : List Out
  /-- the model's own counter, from which free values are drawn -/
  freeIx : Nat
  /-- commands that wait, first in, first out -/
  pending : List Instr
  deriving DecidableEq, Repr

/-- A value with its complement (R9). -/
def cpair {n : Nat} (v : BitVec n) : CPair n := ⟨v, ~~~v⟩

/-- Ports of the profile (R1). -/
def Profile.ports : Profile → Nat
  | .leaf => 8
  | .hub => 64

/-- Power domains of the profile, PD0 among them (R60). -/
def Profile.domains : Profile → Nat
  | .leaf => 21
  | .hub => 33

/-- SRAM banks of the profile (R352). -/
def Profile.banks : Profile → Nat
  | .leaf => 16
  | .hub => 32

/-- Owners after reset (13, table of R355). -/
def Profile.owners : Profile → List (BitVec 4)
  | .leaf => [6, 6, 4, 4, 4, 4, 5, 5, 8, 3, 7, 1, 1, 1, 2, 2]
  | .hub => [9, 9, 9, 9, 9, 9, 9, 5, 5, 5, 5, 5, 5, 5, 5, 5, 5, 5, 8, 3, 7, 1, 1, 1, 1, 1, 2, 2, 2, 2, 2, 9]

/-- PD0, which is on while the block is powered (R60). -/
def Domain.isOn : Domain := { en := true, st := .on }

/-- PD1, which the block itself brings on at the release of reset (R342, R388). -/
def Domain.pd1 : Domain := { en := true, st := .on, req := true, since := some 0 }

/-- PRIO after reset (R123). -/
def Profile.prio : Profile → BitVec 8
  | .leaf => 0xC0
  | .hub => 0x40

/-- The rings after reset (R318). -/
def resetRings : List Ring := List.replicate 8 {}

/-- The block of profile `f` after a cold reset, fuses unburned (BLANK), nothing yet commanded. -/
def State.resetOf (f : Profile) : State where
  profile := f
  pins := {}
  sun := {}
  org := { ins := List.replicate 4 {}, prio := f.prio }
  elect := {}
  ports := List.replicate f.ports {}
  fab := {}
  tr := {}
  band := { schedA := List.replicate 16 {}, schedS := List.replicate 16 {}, opened := List.replicate 16 0 }
  ctx0 := {}
  ctx1 := {}
  sync := {}
  eng := { rings := resetRings }
  fc := { first := cpair 0, firstT := cpair 0, ovf := cpair 0, mask := cpair 0, promote := cpair 0, ceCnt := cpair 0 }
  pw := { doms := [Domain.isOn, Domain.pd1] ++ List.replicate (f.domains - 2) {}
          owners := f.owners
          conflicts := List.replicate f.banks 0 }
  gate := {}
  lg := { scanning := true }
  hs := {}
  cap := List.replicate 8 {}
  bv := {}
  tst := {}
  fw := {}
  rp := {}
  out := []
  freeIx := 0
  pending := []

/-- The block right after reset: a Leaf, as it leaves the fab, after the release of rst_cold_n. -/
def State.reset : State := State.resetOf .leaf

end Sys2Proof.Machine
end

