-- ==== Sys2Proof/Machine/Flits.lean ====
section
/-!
DEFINITION. The bytes of a flit with its CRC-32C (R76 to R81 and the payload tables of 03), the blocks of a lane (R72),
the 28-bit Trellis word (R168), and the trace buffer (R414).
-/

namespace Sys2Proof.Machine

/-- The bytes of a value, lowest first (R7). -/
def leBytes (n : Nat) (x : Nat) : List Byte := (List.range n).map fun k => BitVec.ofNat 8 (x >>> (8 * k))

/-- One bit of the reflected CRC-32C. -/
def crcBit (c : BitVec 32) : BitVec 32 := if c.getLsbD 0 then (c >>> 1) ^^^ 0x82F63B78 else c >>> 1

/-- One byte. -/
def crcByte (c : BitVec 32) (b : Byte) : BitVec 32 :=
  let x := c ^^^ b.setWidth 32
  crcBit (crcBit (crcBit (crcBit (crcBit (crcBit (crcBit (crcBit x)))))))

/-- R77: CRC-32C of a message. -/
def crc32c (l : List Byte) : BitVec 32 := ~~~(l.foldl crcByte 0xFFFFFFFF)

/-- Go on from the CRC of an earlier part. -/
def crc32cMore (c : BitVec 32) (l : List Byte) : BitVec 32 := ~~~(l.foldl crcByte (~~~c))

/-- One bit as a byte. -/
def flagByte (l : List Bool) : List Byte := [BitVec.ofNat 8 (l.foldr (fun b n => b.toNat + 2 * n) 0)]

/-- DIR of LAUNCH, SWAP and PARK. -/
def dirByte (up leafOrig : Bool) : List Byte := flagByte [up, leafOrig]

/-- Header H (03, partition payloads). -/
def barHeader (m : BarMsg) : List Byte :=
  [m.bid, m.round.setWidth 8] ++ leBytes 10 m.t.toNat ++ leBytes 4 m.types.toNat

/-- OP of a PART flit. -/
def partOpCode : PartOp → Byte
  | .opOpen => 1
  | .openAck => 2
  | .deferred => 3
  | .refused => 4
  | .close => 5
  | .closeAck => 6
  | .fault => 7

/-- TYPE (03, flit types). -/
def msgType : Msg → Byte
  | .launch _ => 0x10
  | .swap _ => 0x11
  | .park _ => 0x12
  | .arrive m => if m.red then 0x15 else 0x13
  | .release m => if m.red then 0x16 else 0x14
  | .signal _ => 0x17
  | .announce _ => 0x20
  | .assign _ => 0x21
  | .tree _ => 0x22
  | .elect _ => 0x23
  | .mirror _ => 0x24
  | .part _ _ => 0x25
  | .delay _ => 0x26
  | .health _ => 0x27

/-- PTAG of a message; 0 in a type that is not partition-scoped (R76). A MIRROR names its partition. -/
def msgTag : Msg → PTag
  | .launch m => m.ptag
  | .swap m => m.ptag
  | .park m => m.ptag
  | .arrive m => m.ptag
  | .release m => m.ptag
  | .signal m => m.ptag
  | .part _ m => m.ptag
  | .mirror m => m.ptag
  | _ => 0

/-- The payload bytes of a message from byte 4 on, 24 of them for each flit. -/
def msgPayload : Msg → List Byte
  | .launch m => leBytes 4 m.launchId.toNat ++ leBytes 10 m.t.toNat ++ leBytes 3 m.origin.toNat ++
      dirByte m.up m.leafOrig ++ [m.chan.setWidth 8]
  | .swap m => leBytes 4 m.swapId.toNat ++ leBytes 10 m.t.toNat ++ leBytes 3 m.origin.toNat ++ dirByte m.up m.leafOrig
  | .park m => [m.bid, m.round.setWidth 8] ++ leBytes 3 m.origin.toNat ++ dirByte m.up m.leafOrig
  | .arrive m => barHeader m ++ (if m.red then leBytes 128 m.record.toNat else [])
  | .release m => barHeader m ++ (if m.red then leBytes 128 m.record.toNat else [])
  | .signal m => leBytes 4 m.destRank.toNat ++ leBytes 2 m.obj.toNat ++ [m.op] ++ flagByte [m.xlated] ++
      leBytes 4 m.value.toNat ++ leBytes 4 m.srcRank.toNat ++ leBytes 3 m.destNode.toNat
  | .announce m => leBytes 8 m.hwid.toNat ++ leBytes 3 m.node.toNat ++ [m.ports, m.prof.setWidth 8] ++
      leBytes 3 m.root.toNat ++ [m.cport]
  | .assign m => leBytes 8 m.hwid.toNat ++ leBytes 3 m.node.toNat ++ leBytes 3 m.root.toNat ++ leBytes 8 m.route.toNat
  | .tree m => leBytes 3 m.root.toNat ++ [m.hops] ++ leBytes 3 m.node.toNat ++ flagByte [m.offer, m.altOffer] ++
      leBytes 4 m.utcOfs.toNat ++ flagByte [m.utcV]
  | .elect m => [m.prio, m.qual] ++ leBytes 8 m.hwid.toNat ++ leBytes 3 m.node.toNat ++ flagByte [m.rootClaim, m.standbyClaim]
  | .mirror m => [m.op, BitVec.ofNat 8 (m.shadow.toNat + 2 * m.nodeHi.toNat)] ++ leBytes 2 m.index.toNat ++ leBytes 20 m.entry.toNat
  | .part op m => [partOpCode op, m.bidsM1] ++ leBytes 3 m.node.toNat ++ [m.feat] ++ leBytes 10 m.t.toNat ++
      leBytes 2 m.aux.toNat ++ leBytes 4 m.dmax.toNat
  | .delay m => leBytes 3 m.node.toNat ++ [m.port] ++ leBytes 4 m.delay.toNat
  | .health m => leBytes 3 m.node.toNat ++ [m.port] ++ leBytes 2 m.fault.toNat ++ leBytes 10 m.t.toNat ++
      leBytes 4 m.count.toNat ++ [m.kind, m.index]

/-- Flits of a message (R78). -/
def msgFlits : Msg → Nat
  | .arrive m => if m.red then 6 else 1
  | .release m => if m.red then 6 else 1
  | _ => 1

/-- Bytes 0 to 27 of flit `k` of a message with sequence number `seq` (R76, R78). -/
def flitHead (m : Msg) (seq : BitVec 5) (k : Nat) : List Byte :=
  let flags := seq.toNat + 32 + (if k + 1 < msgFlits m then 64 else 0)
  [msgType m, BitVec.ofNat 8 flags] ++ leBytes 2 (msgTag m).toNat ++ (((msgPayload m).drop (24 * k)) ++ List.replicate 24 0).take 24

/-- Bytes 0 to 27 of an unsequenced flit from its type and payload. -/
def plainHead (type : Byte) (payload : List Byte) : List Byte := [type, 0, 0, 0] ++ (payload ++ List.replicate 24 0).take 24

/-- Bytes 0 to 27 of the link-local flits. -/
def idleHead : List Byte := plainHead 0x00 []
def beatHead (m : BeatMsg) : List Byte :=
  plainHead 0x01 ([m.idx, m.echo] ++ leBytes 10 m.tPrevTx.toNat ++ leBytes 10 m.tEchoRx.toNat ++
    [BitVec.ofNat 8 (m.state.toNat + 4 * m.rootState.toNat + 16 * m.tp.toNat + 32 * m.echoV.toNat + 64 * m.prevV.toNat),
     BitVec.ofNat 8 (m.ackSeq.toNat + 32 * m.ackV.toNat)])
def acknakHead (seq : BitVec 5) (nak : Bool) : List Byte := plainHead 0x02 ([seq.setWidth 8] ++ flagByte [nak])
def trainHead (m : TrainMsg) : List Byte :=
  plainHead 0x03 ([m.revMax, m.revMin] ++ leBytes 8 m.hwid.toNat ++ leBytes 3 m.node.toNat ++ [m.port] ++
    leBytes 2 m.asym.toNat ++ flagByte [m.negDone, m.calDone, m.isHub] ++ [m.rev])
def nodeDownHead (m : NodeDownMsg) : List Byte :=
  plainHead 0x04 ([m.reason] ++ leBytes 3 m.node.toNat ++ leBytes 8 m.hwid.toNat ++ leBytes 10 m.t.toNat ++ leBytes 2 m.fault.toNat)
def lastGaspHead (m : LastGaspMsg) : List Byte :=
  plainHead 0x05 (leBytes 3 m.node.toNat ++ [0] ++ leBytes 8 m.hwid.toNat ++ leBytes 10 m.t.toNat)

/-- How a flit's CRC stands (R77, R92). -/
inductive CrcVerdict where
  | good | stomped | bad
  deriving DecidableEq, Repr

/-- R77: the CRC of a flit's bytes 0 to 27, as it stands in bytes 28 to 31. -/
def flitCrc (body : List Byte) : List Byte := leBytes 4 (crc32c (body.take 28)).toNat

/-- The bytes of a received flit. -/
def flitBytes (f : Flit) : List Byte := leBytes 32 f.toNat

/-- R77: a flit is good, stomped or in error. -/
def crcVerdict (f : Flit) : CrcVerdict :=
  let c := crc32c ((flitBytes f).take 28)
  if f.extractLsb' 224 32 = c then .good else if f.extractLsb' 224 32 = ~~~c then .stomped else .bad

/-- A flit from its bytes. -/
def flitOf (l : List Byte) : Flit := BitVec.ofNat 256 (l.foldr (fun b n => b.toNat + 256 * n) 0)

/-- A flit with its CRC: good, complemented (R92), or in error (R340). Which error an injected one has, the manual does not
say; bit 0 of the CRC is turned (DESIGN CHOICE, log entry 17). -/
def sealFlit (v : CrcVerdict) (body : List Byte) : Flit :=
  let c := crc32c (body.take 28)
  flitOf (body.take 28 ++ leBytes 4 (match v with | .good => c | .stomped => ~~~c | .bad => c ^^^ 1).toNat)

/-- TYPE, SEQ, SEQD and PTAG of a received flit (R76). -/
def flitType (f : Flit) : Byte := f.extractLsb' 0 8
def flitSeq (f : Flit) : BitVec 5 := f.extractLsb' 8 5
def flitSeqd (f : Flit) : Bool := f.getLsbD 13
def flitTag (f : Flit) : PTag := f.extractLsb' 16 16

/-- The types of the type table (03, flit types). -/
def knownType (t : Byte) : Bool := t.toNat ≤ 5 || (0x10 ≤ t.toNat && t.toNat ≤ 0x17) || (0x20 ≤ t.toNat && t.toNat ≤ 0x27)

/-- `n` bits of a flit from byte `k` on. -/
def flitAt (f : Flit) (k n : Nat) : BitVec n := f.extractLsb' (8 * k) n

/-- Header H of a barrier flit, from its first flit (03, partition payloads). -/
def barOf (f : Flit) (red : Bool) : BarMsg :=
  { ptag := flitTag f, bid := flitAt f 4 8, round := flitAt f 5 2, t := flitAt f 6 80, types := (if red then flitAt f 16 32 else 0),
    record := (if red then (flitAt f 20 64).setWidth _ else 0), red := red }

/-- The partition message that a first flit begins (03, partition payloads), as far as that flit holds it: what a node that
forwards it reads from the flit's head (R91). -/
def flitMsg (f : Flit) : Option Msg :=
  match (flitType f).toNat with
  | 0x10 => some (.launch {
      ptag := flitTag f, launchId := flitAt f 4 32, t := flitAt f 8 80, origin := flitAt f 18 20,
      up := f.getLsbD 168, leafOrig := f.getLsbD 169, chan := flitAt f 22 4 })
  | 0x11 => some (.swap {
      ptag := flitTag f, swapId := flitAt f 4 32, t := flitAt f 8 80, origin := flitAt f 18 20,
      up := f.getLsbD 168, leafOrig := f.getLsbD 169 })
  | 0x12 => some (.park {
      ptag := flitTag f, bid := flitAt f 4 8, round := flitAt f 5 2, origin := flitAt f 6 20,
      up := f.getLsbD 72, leafOrig := f.getLsbD 73 })
  | 0x13 => some (.arrive (barOf f false))
  | 0x14 => some (.release (barOf f false))
  | 0x15 => some (.arrive (barOf f true))
  | 0x16 => some (.release (barOf f true))
  | 0x17 => some (.signal {
      ptag := flitTag f, destRank := flitAt f 4 32, obj := flitAt f 8 12, op := flitAt f 10 8, xlated := f.getLsbD 88,
      value := flitAt f 12 32, srcRank := flitAt f 16 32, destNode := flitAt f 20 20 })
  | _ => none

-- The lane (R72, R75).

/-- The self-synchronising scrambler x^58 + x^39 + 1 over `n` bits of a payload, least significant bit first (R72). -/
def scrambleBits (d : BitVec 64) : Nat → BitVec 58 × BitVec 64 → BitVec 58 × BitVec 64
  | 0, x => x
  | n + 1, (r, o) =>
    let b := d.getLsbD (63 - n) != (r.getLsbD 57 != r.getLsbD 38)
    scrambleBits d n ((r <<< 1) ||| BitVec.ofNat 58 b.toNat, o ||| (BitVec.ofNat 64 b.toNat <<< (63 - n)))

/-- One 66-bit block: sync header 0b01 in bits [1:0], which go first, and the scrambled payload (R72). -/
def laneBlock (r : BitVec 58) (d : BitVec 64) : BitVec 58 × BitVec 66 :=
  let x := scrambleBits d 64 (r, 0)
  (x.1, x.2 ++ (1 : BitVec 2))

/-- The four blocks of each flit, one after another (R74). -/
def laneBlocks (r : BitVec 58) : List Flit → List (BitVec 66)
  | [] => []
  | f :: l =>
    let a := laneBlock r (f.extractLsb' 0 64)
    let b := laneBlock a.1 (f.extractLsb' 64 64)
    let c := laneBlock b.1 (f.extractLsb' 128 64)
    let d := laneBlock c.1 (f.extractLsb' 192 64)
    [a.2, b.2, c.2, d.2] ++ laneBlocks d.1 l

/-- R75, block lock: 64 valid sync headers, 0b01 or 0b10, in a row. -/
def headersLock (h : BitVec 128) : Bool := (List.range 64).all fun k => h.getLsbD (2 * k) != h.getLsbD (2 * k + 1)

/-- Flits of four blocks each. -/
def flitsOf : List (BitVec 64) → List Flit
  | a :: b :: c :: d :: l => (d ++ c ++ b ++ a) :: flitsOf l
  | _ => []

/-- R75, flit lock: the first of the four block phases on which 8 flits in a row pass their CRC, good or stomped. -/
def flitPhase (blocks : List (BitVec 64)) : Option Nat :=
  (List.range 4).find? fun ph =>
    let l := flitsOf (blocks.drop ph)
    8 ≤ l.length && (l.take 8).all fun f => crcVerdict f != .bad

/-- R75: 16 of the last 64 flits have failed. -/
def lockFails (failed : BitVec 64) : Bool := 16 ≤ ((List.range 64).filter fun k => failed.getLsbD k).length

/-- The flits that an output is, in order, on a lane (R76 to R78). -/
def Out.flits : Out → Option (PortNo × List Flit)
  | .flit p seq m bad => some (p, (List.range (msgFlits m)).map fun k => sealFlit (if bad then .bad else .good) (flitHead m seq k))
  | .stomp p seq m => some (p, (List.range (msgFlits m)).map fun k => sealFlit .stomped (flitHead m seq k))
  | .beat p m => some (p, [sealFlit .good (beatHead m)])
  | .acknak p seq nak => some (p, [sealFlit .good (acknakHead seq nak)])
  | .train p m => some (p, [sealFlit .good (trainHead m)])
  | .nodeDown p m => some (p, [sealFlit .good (nodeDownHead m)])
  | .lastGasp p m => some (p, [sealFlit .good (lastGaspHead m)])
  | .idle p => some (p, [sealFlit .good idleHead])
  | _ => none

/-- The flits that port `p` has sent, oldest first, and the blocks on its lane (R72 to R78). -/
def State.laneFlits (s : State) (p : PortNo) : List Flit :=
  s.out.reverse.flatMap fun o => match o.flits with | some (q, l) => if q = p then l else [] | none => []
def State.laneOut (s : State) (p : PortNo) : List (BitVec 66) := laneBlocks (Config.scramblerStart p) (s.laneFlits p)

/-- CRC-8 of a Trellis word's content (R168). -/
def crc8 (content : BitVec 20) : BitVec 8 :=
  let bit (c : BitVec 8) : BitVec 8 := if c.getLsbD 7 then (c <<< 1) ^^^ 0x07 else c <<< 1
  let byte (c : BitVec 8) (b : Byte) : BitVec 8 := (List.range 8).foldl (fun c _ => bit c) (c ^^^ b)
  (leBytes 3 content.toNat).foldl byte 0

/-- The 28-bit word of a content (R168). -/
def trellisWord (content : BitVec 20) : BitVec 28 := crc8 content ++ content

/-- A trace entry from its stamp, source, port and 20 data bytes (R414). -/
def traceEntry (stamp : HT80) (src : Nat) (port : PortNo) (data : List Byte) : BitVec 256 :=
  BitVec.ofNat 256 ((leBytes 10 stamp.toNat ++ [BitVec.ofNat 8 src, port.setWidth 8] ++ data.take 20).foldr
    (fun b n => b.toNat + 256 * n) 0)

/-- R37: `a` stands before `b`, or has the same key: by stamp (R18), level, node, region, block, cell, sequence number. -/
structure OrderKey where
  stamp : HT80
  level : Nat := 3
  node : Nat := 0
  region : Nat := 0
  block : Nat := 0
  cell : Nat := 0
  seq : Nat := 0
  deriving DecidableEq, Repr

/-- Lexicographic order of numbers. -/
def lexLe : List Nat → List Nat → Bool
  | a :: l, b :: r => a < b || (a == b && lexLe l r)
  | _, _ => true

/-- R37: the order of two keys. -/
def OrderKey.le (a b : OrderKey) : Bool :=
  if a.stamp = b.stamp then lexLe [a.level, a.node, a.region, a.block, a.cell, a.seq] [b.level, b.node, b.region, b.block, b.cell, b.seq]
  else (b.stamp - a.stamp).toNat < 2 ^ 79

/-- Insert into a list in the order of R37, after what has the same key. -/
def keyInsert {α : Type} (key : α → OrderKey) (x : α) (l : List α) : List α :=
  l.takeWhile (fun y => (key y).le (key x)) ++ x :: l.dropWhile (fun y => (key y).le (key x))

/-- The key of a trace entry (R37, R414). One stream is recorded at a time: its entries differ in the stamp alone. -/
def traceKey (e : BitVec 256) : OrderKey := { stamp := e.extractLsb' 0 80 }

/-- An entry enters the buffer of 512 in the order of R37; on a full buffer the oldest goes (R414). -/
def Trace.push (b : Trace) (e : BitVec 256) : Trace :=
  if b.buf.length ≥ 512 then { b with buf := keyInsert traceKey e b.buf.tail, wrapped := true } else { b with buf := keyInsert traceKey e b.buf }

/-- Is the stream `src` recorded? PD8 is on while EN is 1. -/
def Trace.takes (b : Trace) (src : Nat) (port : PortNo) : Bool :=
  b.en && b.src.toNat == src && (src ≥ 2 || b.port == port)

end Sys2Proof.Machine
end

