-- ==== Sys2Proof/Machine/Ops.lean ====
section
/-!
DEFINITION. The shared operations: hall-time arithmetic, list and counter helpers, the update of each
field of the state, faults as reports to the collector, hm_ requests, records to the rings, the bytes
of the banks, and the start of messages on the Ronoux ports.
-/

namespace Sys2Proof.Machine

-- Order.

/-- `x` before the first element that it may precede. -/
def insertBy {α : Type} (le : α → α → Bool) (x : α) : List α → List α
  | [] => [x]
  | y :: l => if le x y then x :: y :: l else y :: insertBy le x l

/-- The list in the order `le`; what `le` holds equal keeps its order. -/
def sortBy {α : Type} (le : α → α → Bool) (l : List α) : List α := l.foldr (insertBy le) []

-- Hall time (R8, R14, R17 to R20).

/-- The integer part, [79:16]. -/
def htInt (t : HT80) : Tick := t.extractLsb' 16 64

/-- The fraction, [15:0]. -/
def htFrac (t : HT80) : BitVec 16 := t.extractLsb' 0 16

/-- The whole tick `i` as HT80 (R14). -/
def htOf (i : Tick) : HT80 := i ++ (0 : BitVec 16)

/-- R17: add a duration of `d` ns, keeping the fraction. -/
def htAdd (t : HT80) (d : Nat) : HT80 := t + BitVec.ofNat 80 (d * 65536)

/-- R17 backwards. -/
def htSub (t : HT80) (d : Nat) : HT80 := t - BitVec.ofNat 80 (d * 65536)

/-- R18: `b` is later than `a`. -/
def htLt (a b : HT80) : Bool := let d := b - a; d != 0 && d.toNat < 2 ^ 79

/-- R18: `b` is later than `a`, or equal. -/
def htLe (a b : HT80) : Bool := (b - a).toNat < 2 ^ 79

/-- The later of two times. -/
def htMax (a b : HT80) : HT80 := if htLt a b then b else a

/-- R19: the due tick. -/
def dueTick (t : HT80) : Tick := if htFrac t = 0 then htInt t else htInt t + 1

/-- R18 on whole ticks. -/
def tickLe (a b : Tick) : Bool := (b - a).toNat < 2 ^ 63

/-- `b` is a later tick than `a`. -/
def tickLt (a b : Tick) : Bool := a != b && tickLe a b

/-- Signed difference a − b in units of 2^-16 ns. -/
def htDiff (a b : HT80) : Int := (a - b).toInt

/-- Signed difference in whole ns, floor. -/
def htDiffNs (a b : HT80) : Int := (htDiff a b).fdiv 65536

-- Counters and lists.

/-- A counter that saturates at all ones. -/
def satInc {n : Nat} (x : BitVec n) (k : Nat := 1) : BitVec n :=
  if x.toNat + k < 2 ^ n then x + BitVec.ofNat n k else BitVec.allOnes n

/-- A natural number, saturating in `n` bits. -/
def satNat (n : Nat) (k : Nat) : BitVec n := if k < 2 ^ n then BitVec.ofNat n k else BitVec.allOnes n

/-- An integer as `n` bits, signed, saturating. -/
def satInt (n : Nat) (k : Int) : BitVec n :=
  let hi : Int := 2 ^ (n - 1) - 1
  BitVec.ofInt n (if k > hi then hi else if k < -hi - 1 then -hi - 1 else k)

/-- Set bit `i`. -/
def setBit {n : Nat} (x : BitVec n) (i : Nat) (b : Bool := true) : BitVec n :=
  let m := BitVec.ofNat n (2 ^ i)
  if b then x ||| m else x &&& ~~~m

/-- Insert or replace the value of `k` in an association list. -/
def assocSet {α β : Type} [DecidableEq α] (k : α) (v : β) : List (α × β) → List (α × β)
  | [] => [(k, v)]
  | (a, b) :: r => if a = k then (k, v) :: r else (a, b) :: assocSet k v r

/-- The value of `k`, or `d`. -/
def assocGet {α β : Type} [DecidableEq α] (k : α) (d : β) : List (α × β) → β
  | [] => d
  | (a, b) :: r => if a = k then b else assocGet k d r

/-- Apply `f` to the first element that satisfies `p`. -/
def modFirst {α : Type} (p : α → Bool) (f : α → α) : List α → List α
  | [] => []
  | a :: r => if p a then f a :: r else a :: modFirst p f r

/-- The bytes of a value, lowest first. -/
def bytesOf (n : Nat) (x : Nat) : List Byte := (List.range n).map fun k => BitVec.ofNat 8 (x >>> (8 * k))

/-- A value from its bytes, lowest first (R7). -/
def ofBytes : List Byte → Nat
  | [] => 0
  | b :: r => b.toNat + 256 * ofBytes r

/-- `n` bytes of a wide value from byte `k` on (R7), as a number of `m` bits. -/
def field {w : Nat} (x : BitVec w) (k m : Nat) : BitVec m := x.extractLsb' (8 * k) m

-- Updates of the state, one for each field that a command changes.

/-- Apply `f` to the field `pins`. -/
def State.modPins (s : State) (f : Pins → Pins) : State := { s with pins := f s.pins }

/-- Apply `f` to the field `sun`. -/
def State.modSun (s : State) (f : Sun → Sun) : State := { s with sun := f s.sun }

/-- Apply `f` to the field `org`. -/
def State.modOrg (s : State) (f : Org → Org) : State := { s with org := f s.org }

/-- Apply `f` to the field `elect`. -/
def State.modElect (s : State) (f : Elect → Elect) : State := { s with elect := f s.elect }

/-- Apply `f` to the field `ports`. -/
def State.modPorts (s : State) (f : List Port → List Port) : State := { s with ports := f s.ports }

/-- Apply `f` to the field `fab`. -/
def State.modFab (s : State) (f : Fabric → Fabric) : State := { s with fab := f s.fab }

/-- Apply `f` to the field `tr`. -/
def State.modTr (s : State) (f : Trellis → Trellis) : State := { s with tr := f s.tr }

/-- Apply `f` to the field `band`. -/
def State.modBand (s : State) (f : Band → Band) : State := { s with band := f s.band }

/-- Apply `f` to the field `ctx0`. -/
def State.modCtx0 (s : State) (f : Ctx → Ctx) : State := { s with ctx0 := f s.ctx0 }

/-- Apply `f` to the field `ctx1`. -/
def State.modCtx1 (s : State) (f : Ctx → Ctx) : State := { s with ctx1 := f s.ctx1 }

/-- Apply `f` to the field `sync`. -/
def State.modSync (s : State) (f : Sync → Sync) : State := { s with sync := f s.sync }

/-- Apply `f` to the field `eng`. -/
def State.modEng (s : State) (f : Engine → Engine) : State := { s with eng := f s.eng }

/-- Apply `f` to the field `fc`. -/
def State.modFc (s : State) (f : Collector → Collector) : State := { s with fc := f s.fc }

/-- Apply `f` to the field `pw`. -/
def State.modPw (s : State) (f : Power → Power) : State := { s with pw := f s.pw }

/-- Apply `f` to the field `gate`. -/
def State.modGate (s : State) (f : Gate → Gate) : State := { s with gate := f s.gate }

/-- Apply `f` to the field `lg`. -/
def State.modLg (s : State) (f : Ledger → Ledger) : State := { s with lg := f s.lg }

/-- Apply `f` to the field `hs`. -/
def State.modHs (s : State) (f : Health → Health) : State := { s with hs := f s.hs }

/-- Apply `f` to the field `cap`. -/
def State.modCap (s : State) (f : List Capture → List Capture) : State := { s with cap := f s.cap }

/-- Apply `f` to the field `bv`. -/
def State.modBv (s : State) (f : Trace → Trace) : State := { s with bv := f s.bv }

/-- Apply `f` to the field `tst`. -/
def State.modTst (s : State) (f : TestPage → TestPage) : State := { s with tst := f s.tst }

/-- Apply `f` to the field `fw`. -/
def State.modFw (s : State) (f : Firmware → Firmware) : State := { s with fw := f s.fw }

/-- Apply `f` to the field `rp`. -/
def State.modRp (s : State) (f : RegPort → RegPort) : State := { s with rp := f s.rp }

/-- Apply `f` to the field `out`. -/
def State.modOut (s : State) (f : List Out → List Out) : State := { s with out := f s.out }

/-- Apply `f` to port `p`. -/
def State.modPort (s : State) (p : PortNo) (f : Port → Port) : State := s.modPorts fun l => l.modify p.toNat f

/-- Port `p`. -/
def State.port (s : State) (p : PortNo) : Port := s.ports.getD p.toNat {}

/-- Context slot 0 or 1. -/
def State.ctx (s : State) (slot : Bool) : Ctx := if slot then s.ctx1 else s.ctx0

/-- Apply `f` to a context slot. -/
def State.modCtx (s : State) (slot : Bool) (f : Ctx → Ctx) : State := if slot then s.modCtx1 f else s.modCtx0 f

/-- Power domain `d`. -/
def State.dom (s : State) (d : Nat) : Domain := s.pw.doms.getD d {}

/-- The Sundial's tick. -/
def State.tick (s : State) : Tick := htInt s.sun.now

/-- R14: a stamp taken as the Sundial's tick carries fraction 0. -/
def State.stamp (s : State) : HT80 := htOf s.tick

/-- The block is powered and out of cold and warm reset. -/
def State.alive (s : State) : Bool := s.pins.powered && s.pins.rst == .none && !s.pins.edgesOwed

/-- A due time has come. -/
def State.isDue (s : State) (t : Tick) : Bool := tickLe t s.tick

/-- Domain `d` is ON (R344). PD0 is on while the block is powered. -/
def State.pdOn (s : State) (d : Nat) : Bool := s.alive && (s.dom d).st == .on

/-- The node is a Leaf. -/
def State.isLeaf (s : State) : Bool := s.profile == .leaf

/-- Lane domain of port `p` (R40). -/
def laneDom (f : Profile) (p : Nat) : Nat :=
  match f with
  | .leaf => 13 + p
  | .hub => 17 + p / 4

/-- The ports of the node. -/
def State.portNos (s : State) : List PortNo := (List.range s.ports.length).map (BitVec.ofNat 6)

/-- Ports in UP. -/
def State.upPorts (s : State) : List PortNo := s.portNos.filter fun p => (s.port p).st == .up

/-- The model's own counter advances: one more free value has been drawn. -/
def State.drew (s : State) : State := { s with freeIx := s.freeIx + 1 }

/-- Belvedere records one entry of a stream (R414). -/
def State.traced (s : State) (stamp : HT80) (src : Nat) (port : PortNo) (data : List Byte) : State :=
  if s.bv.takes src port then s.modBv fun b => b.push (traceEntry stamp src port data) else s

/-- The flits of a message pass port `p` in the direction `src`: 0 received, 1 sent. -/
def State.tracedMsg (s : State) (stamp : HT80) (src : Nat) (p : PortNo) (seq : BitVec 5) (m : Msg) : State :=
  (List.range (msgFlits m)).foldl (fun s k => s.traced stamp src p (flitHead m seq k)) s

/-- What the trace shows of an output (R414). A scheduled word is sent twice (R172), in an S slot and in the D slot two
further on; each copy is an entry. -/
def State.traceOut (s : State) (stamp : HT80) : Out → State
  | .flit p seq m _ => s.tracedMsg stamp 1 p seq m
  | .stomp p seq m => s.tracedMsg stamp 1 p seq m
  | .idle p => s.traced stamp 1 p idleHead
  | .beat p m => s.traced stamp 1 p (beatHead m)
  | .acknak p seq nak => s.traced stamp 1 p (acknakHead seq nak)
  | .train p m => s.traced stamp 1 p (trainHead m)
  | .nodeDown p m => s.traced stamp 1 p (nodeDownHead m)
  | .lastGasp p m => s.traced stamp 1 p (lastGaspHead m)
  | .word c w =>
      let slot := c.toNat / 4 % 64
      s.traced stamp 2 0 (leBytes 4 w.toNat ++ [BitVec.ofNat 8 (2 * slot + (if slot % 4 = 2 then 1 else 0))])
  | _ => s

/-- Log what the block drives outward, at a stamp. -/
def State.emitAt (s : State) (stamp : HT80) (o : Out) : State := (s.modOut (o :: ·)).traceOut stamp o

/-- Log what the block drives outward now. -/
def State.emit (s : State) (o : Out) : State := s.emitAt s.stamp o

/-- The context slot that is ACTIVE, if any (R256). -/
def State.activeSlot (s : State) : Option Bool :=
  if s.ctx0.st = .active then some false else if s.ctx1.st = .active then some true else none

/-- The context slot that holds `t` in OPENING, ACTIVE or PARKED. -/
def State.slotOf (s : State) (t : PTag) : Option Bool :=
  let live (c : Ctx) : Bool := c.ptag == t && (c.st == .opening || c.st == .active || c.st == .parked)
  if live s.ctx0 then some false else if live s.ctx1 then some true else none

/-- The slot of a context in any state but FREE. -/
def State.slotAny (s : State) (t : PTag) : Option Bool :=
  let held (c : Ctx) : Bool := c.ptag == t && c.st != .free
  if held s.ctx0 then some false else if held s.ctx1 then some true else none

/-- The partition with tag `t` as the node holds it. -/
def State.part (s : State) (t : PTag) : Option Part := s.fab.parts.find? fun p => p.ptag == t && p.st != .free

/-- The partition with number `n`. -/
def State.partNo (s : State) (n : BitVec 10) : Option Part := s.fab.parts.find? fun p => p.part == n && p.st != .free

/-- Apply `f` to the partition with tag `t`. -/
def State.modPart (s : State) (t : PTag) (f : Part → Part) : State :=
  s.modFab fun b => { b with parts := modFirst (fun p => p.ptag == t && p.st != .free) f b.parts }

/-- Partition number of a tag. -/
def ptPart (t : PTag) : BitVec 10 := t.extractLsb' 0 10

/-- Generation of a tag. -/
def ptGen (t : PTag) : BitVec 6 := t.extractLsb' 10 6

/-- The barrier-tree ports of a partition: up, then down. -/
def Part.treePorts (p : Part) : List PortNo := p.act.upPort.toList ++ p.act.children

/-- The partitions in OPENING, OPEN or CLOSING that the node holds and has not ended. -/
def State.standing (s : State) : List PTag :=
  (s.fab.parts.filter fun p => (p.st == .opening || p.st == .open_ || p.st == .closing) && !p.ended).map (·.ptag)

/-- A record has one PTAG: a fault that touches exactly one partition names it, and one that touches several
names none (R316, R327). -/
def soleTag (l : List PTag) : Option PTag := match l with | [t] => some t | _ => none

-- Fault codes (R320).

/-- class · 2^14 + level · 2^12 + unit · 2^6 + cause. -/
def faultCode (cls level unit cause : Nat) : BitVec 16 := BitVec.ofNat 16 (cls * 16384 + level * 4096 + unit * 64 + cause)

/-- A CE at chip level. -/
def ce (unit cause : Nat) : BitVec 16 := faultCode 1 3 unit cause

/-- A UC at chip level. -/
def uc (unit cause : Nat) : BitVec 16 := faultCode 2 3 unit cause

/-- An FT. -/
def ft (unit cause : Nat) : BitVec 16 := faultCode 3 3 unit cause

/-- A refusal (R320, class 0b00). -/
def refusal (unit cause : Nat) : BitVec 16 := faultCode 0 3 unit cause

/-- Class, level, unit and cause of a code. -/
def codeClass (c : BitVec 16) : BitVec 2 := c.extractLsb' 14 2
def codeLevel (c : BitVec 16) : BitVec 2 := c.extractLsb' 12 2
def codeUnit (c : BitVec 16) : BitVec 6 := c.extractLsb' 6 6
def codeCause (c : BitVec 16) : BitVec 6 := c.extractLsb' 0 6

/-- LOC (R316): region or port, block, cell. -/
def mkLoc (region : Nat) (block : Nat := 0) (cell : Nat := 0) : BitVec 24 :=
  BitVec.ofNat 24 (region % 128 + (block % 64) * 128 + (cell % 64) * 8192)

/-- LOC of a port. -/
def portLoc (p : PortNo) : BitVec 24 := mkLoc p.toNat

/-- LOC of a Trellis unit or cell. -/
def cellLoc (a : CellAddr) : BitVec 24 := mkLoc a.region.toNat a.block.toNat a.cell.toNat

/-- Bytes 24 to 31 of an event record from a list of (byte, width in bytes, value) (R321). -/
def detail (l : List (Nat × Nat × Nat)) : BitVec 64 :=
  l.foldl (fun d (k, w, v) => d ||| BitVec.ofNat 64 ((v % 256 ^ w) <<< (8 * (k - 24)))) 0

/-- A unit hands a report to the collector, which takes it in order of arrival (R325). -/
def State.raise (s : State) (r : Report) : State := s.modFc fun f => { f with inbox := f.inbox ++ [r] }

/-- A report stamped with the tick on which the fault is detected (R14). -/
def State.raiseNow (s : State) (code : BitVec 16) (loc : BitVec 24 := 0) (part : Option PTag := none)
    (det : BitVec 64 := 0) : State :=
  s.raise { code := code, loc := loc, partV := part.isSome, ptag := part.getD 0, stamp := s.stamp, detail := det }

-- hm_ requests (R49 to R51) and records (R300, R304, R312).

/-- Is a tag free? A tag whose request timed out is free only after its late response (R49, R51). -/
def Engine.tagFree (e : Engine) (t : BitVec 6) : Bool := !(e.hm.any fun x => x.1 == t) && !(e.dead.contains t)

/-- The lowest free tag. -/
def Engine.freeTag (e : Engine) : Option (BitVec 6) := ((List.range 64).map (BitVec.ofNat 6)).find? e.tagFree

/-- A request leaves under a free tag. -/
def State.hmSend (s : State) (t : BitVec 6) (r : HmReq) : State :=
  (s.modEng fun e => { e with hm := e.hm ++ [(t, r, s.tick)] }).emit (.hm t r)

/-- Issue a request, or hold it, behind those that wait already, until a tag is free (R49, R50). While ck_hm is stopped the
engine issues none (R43); while PD4 is off its outputs are at their reset values (R40). -/
def State.hmIssue (s : State) (r : HmReq) : State :=
  if !s.pdOn 4 then s
  else match s.eng.hmQ, s.eng.freeTag with
    | [], some t => if s.pins.hmRunning then s.hmSend t r else s.modEng fun e => { e with hmQ := [r] }
    | _, _ => s.modEng fun e => { e with hmQ := e.hmQ ++ [r] }

/-- Start the oldest held request once a tag is free. -/
def State.hmNext (s : State) : State :=
  match s.eng.hmQ, s.eng.freeTag with
  | r :: q, some t => if s.pins.hmRunning then (s.modEng fun e => { e with hmQ := q }).hmSend t r else s
  | _, _ => s

/-- Ring `n`. -/
def State.ring (s : State) (n : Nat) : Ring := s.eng.rings.getD n {}

/-- Apply `f` to ring `n`. -/
def State.modRing (s : State) (n : Nat) (f : Ring → Ring) : State :=
  s.modEng fun e => { e with rings := e.rings.modify n f }

/-- Entries of a ring (R297). -/
def Ring.size (r : Ring) : Nat := 2 ^ r.log2.toNat

/-- R297: entries written and not consumed; PROD counts entries handed to memory. -/
def Ring.used (r : Ring) : Nat := (r.next - r.cons).toNat

/-- A block-produced ring is full for `k` more records. -/
def Ring.noRoom (r : Ring) (k : Nat) : Bool := r.used + k > r.size

/-- Address of entry `i` with entries of `2^e` bytes. -/
def Ring.entryAddr (r : Ring) (e : Nat) (i : BitVec 32) : BitVec 64 :=
  r.base + BitVec.ofNat 64 ((i.toNat % r.size) * 2 ^ e)

/-- All requests of the engine, outstanding and held, oldest first. -/
def Engine.reqs (e : Engine) : List HmReq := e.hm.map (fun x => x.2.1) ++ e.hmQ

/-- The first index of a block-produced ring whose record has no write response yet. -/
def Engine.firstOpen (e : Engine) (n : BitVec 3) : Option (BitVec 32) :=
  e.reqs.findSome? fun r => match r.kind with
    | .record m ix _ => if m = n then some ix else none
    | _ => none

/-- Is a write of PROD of ring `n` under way? -/
def Engine.prodOut (e : Engine) (n : BitVec 3) : Bool := e.reqs.any fun r => r.kind == .prod n

/-- R300: write the PROD that covers every record whose response has come, once the last such write
has its own response. -/
def State.flushProd (s : State) (n : BitVec 3) : State :=
  let r := s.ring n.toNat
  let upTo := (s.eng.firstOpen n).getD r.next
  if upTo = r.prod || s.eng.prodOut n || r.st == .halted then s
  else (s.modRing n.toNat fun x => { x with prod := upTo }).hmIssue
    { kind := .prod n, write := true, addr := r.db, beats := 1, data := upTo.setWidth 512, be := 0xF }

/-- Write one group at consecutive indices. The number rides on its last record. -/
def State.writeGroup (s : State) (n : BitVec 3) (g : List (BitVec 256)) (num : Option Nat) : State :=
  let start := (s.ring n.toNat).next
  (g.zipIdx).foldl (fun s (rec, k) =>
    let r := s.ring n.toNat
    (s.modRing n.toNat fun x => { x with next := x.next + 1 }).hmIssue
      { kind := .record n start (if k + 1 = g.length then num else none), write := true,
        addr := r.entryAddr 5 r.next, beats := 2, data := rec.setWidth 512 }) s

/-- Records a ring may hold while it is full or stopped (R304). -/
def holdLimit (n : BitVec 3) : Nat := if n = 2 then 256 else if n = 3 then 64 else 0

/-- Records held. -/
def Ring.heldCount (r : Ring) : Nat := (r.held.map fun h => h.1.length).sum

/-- OVF in the next record after a loss: byte 19 bit 5 of a completion record, byte 1 bit 1 of an event record (R304). -/
def markOvf (n : BitVec 3) (r : BitVec 256) : BitVec 256 :=
  if n = 2 then setBit r (19 * 8 + 5) else if n = 3 then setBit r (8 + 1) else r

/-- Is a write of a result area without its response (R255)? -/
def Engine.areaOut (e : Engine) : Bool := e.reqs.any fun r => r.kind == .area

/-- The ring does memory traffic and takes records (R43, R301 to R303). Without ck_hm the ring engine stands still. -/
def State.ringRuns (s : State) (n : Nat) : Bool :=
  let r := s.ring n
  s.pdOn 4 && s.pins.hmRunning && r.en && r.st == .running && !s.eng.quiet

/-- Read the doorbell block, unless such a read is under way. -/
def State.readDoorbell (s : State) (n : Nat) : State :=
  let k : HmKind := .doorbell (BitVec.ofNat 3 n)
  if !s.ringRuns n || s.eng.reqs.any (fun q => q.kind == k) then s
  else (s.modRing n fun r => { r with lastPoll := s.tick }).hmIssue { kind := k, write := false, addr := (s.ring n).db, beats := 1 }

/-- Records of ring `n` that find no place are lost (R304). -/
def State.loseGroup (s : State) (n : BitVec 3) (g : List (BitVec 256)) (num : Option Nat) : State :=
  let s := s.modRing n.toNat fun x => { x with drop := satInc x.drop g.length, ovf := n = 2 || n = 3 }
  let s := s.modEng fun e => { e with taken := e.taken.filter fun d => !(d.fin && some d.num == num) }
  if n = 2 then s.raiseNow (uc 0x0D 0x02) 0 (soleTag s.standing)
  else if n = 4 then s.modSync fun y => { y with recDrop := satInc y.recDrop g.length, recOvf := true }
  else s

/-- Rings 4 and 7 hold no record while they are full or stopped (R304). -/
def State.loseHeld (s : State) (n : Nat) : State :=
  if n = 4 || n = 7 then
    (s.ring n).held.foldl (fun s h => s.loseGroup (BitVec.ofNat 3 n) h.1 h.2) (s.modRing n fun x => { x with held := [] })
  else s

/-- R300, R304: hand a group of records to a block-produced ring: write it, hold it, or lose it. A record for an
entry that the last CONS shows as occupied waits for a new read of CONS. -/
def State.putGroup (s : State) (n : BitVec 3) (g : List (BitVec 256)) (num : Option Nat := none) : State :=
  let r := s.ring n.toNat
  if n = 2 && (s.eng.areaOut || !s.eng.areaQ.isEmpty) && !s.eng.quiet then
    s.modEng fun e => { e with areaQ := e.areaQ ++ [(g, num)] }
  else if s.eng.quiet || !s.pdOn 4 then s.modRing n.toNat fun x => { x with drop := satInc x.drop g.length }
  else
    let g := if r.ovf then g.modifyHead (markOvf n) else g
    let open_ := s.ringRuns n.toNat
    if open_ && r.held.isEmpty && !r.noRoom g.length then
      (s.modRing n.toNat fun x => { x with ovf := false }).writeGroup n g num
    else if (open_ && !r.full && (n = 4 || n = 7)) || r.heldCount + g.length ≤ holdLimit n then
      let s := s.modRing n.toNat fun x => { x with held := x.held ++ [(g, num)], ovf := false }
      if r.full then s else s.readDoorbell n.toNat
    else s.loseGroup n g num

/-- R255: completion groups that waited for a result area go out. -/
def State.flushArea (s : State) : State :=
  if s.eng.areaOut then s
  else s.eng.areaQ.foldl (fun s g => s.putGroup 2 g.1 g.2) (s.modEng fun e => { e with areaQ := [] })

/-- Records held go out as space appears. -/
def State.drainHeld (s : State) (n : BitVec 3) : State :=
  (s.ring n.toNat).held.foldl (fun s h =>
    let r := s.ring n.toNat
    if s.ringRuns n.toNat && r.held.head? == some h && !r.noRoom h.1.length then
      (s.modRing n.toNat fun x => { x with held := x.held.tail }).writeGroup n h.1 h.2
    else s) s

/-- A completion record (R312). `det` is bytes 22 to 31, `grp` byte 19. -/
def cplRecord (kind status : Byte) (ptag : PTag) (hostTag : BitVec 32) (stamp : HT80) (opcode grp : Byte)
    (cause : BitVec 16) (det : BitVec 80) : BitVec 256 :=
  det ++ cause ++ grp ++ opcode ++ stamp ++ hostTag ++ ptag ++ status ++ kind

/-- GRP of a record that stands alone: FINAL, one record (R312). -/
def grpOne (final : Bool) : Byte := if final then 0x10 else 0x00

/-- Status codes (R312). -/
def stDone : Byte := 0x00
def stDeferred : Byte := 0x01
def stDiscarded : Byte := 0x02
def stRefused : Byte := 0x03
def stLate : Byte := 0x04
def stBusy : Byte := 0x05
def stInvalid : Byte := 0x06
def stTableFull : Byte := 0x07
def stUnsupported : Byte := 0x08
def stIncomplete : Byte := 0x09

/-- A group of completion records; its turn comes once the tick of its stamp has passed (R314). -/
def State.reply (s : State) (stamp : HT80) (cls order : Nat) (g : List (BitVec 256)) (num : Option Nat := none) : State :=
  s.modEng fun e => { e with answers := e.answers ++ [{ stamp := stamp, cls := cls, order := order, group := g, num := num }] }

/-- R314: earlier stamps first, then the class, then taken order. -/
def Answer.before (a b : Answer) : Bool :=
  htLt a.stamp b.stamp || (a.stamp == b.stamp && (a.cls < b.cls || (a.cls == b.cls && a.order ≤ b.order)))

/-- The groups stamped before this tick go to the Completion ring (R314). -/
def State.flushAnswers (s : State) : State :=
  let (now, later) := s.eng.answers.partition fun a => htLt a.stamp s.stamp
  (sortBy Answer.before now).foldl (fun s a => s.putGroup 2 a.group a.num) (s.modEng fun e => { e with answers := later })

/-- The PTAG a record carries: 0 for node scope (R312). -/
def Taken.recTag (d : Taken) : PTag := if d.node then 0 else d.ptag

/-- A non-final record: DEFERRED (R160, R312). -/
def State.notice (s : State) (num : Nat) (status : Byte) : State :=
  match s.eng.taken.find? fun d => d.num == num && !d.fin with
  | none => s
  | some d => s.reply s.stamp 2 d.num [cplRecord 0x01 status d.recTag d.hostTag s.stamp d.opcode (grpOne false) 0 0]

/-- END (R313): CAUSE is the fault, 0 after a close (R312). STAMP is a whole tick. -/
def endRecord (ptag : PTag) (stamp tq : HT80) (fault : BitVec 16) : BitVec 256 :=
  cplRecord 0x05 (if fault = 0 then stDone else stDiscarded) ptag 0 (htOf (dueTick stamp)) 0 (grpOne true) fault tq

/-- An event record (R316). -/
def EvRec.bits (r : EvRec) : BitVec 256 :=
  r.detail ++ r.loc ++ (0 : BitVec 4) ++ r.node ++ r.stamp ++ r.seq ++ r.code ++ r.ptag ++ r.flags ++ r.kind

/-- Is an event record still without its write response? -/
def Engine.eventsOut (e : Engine) : Bool := (e.firstOpen 3).isSome

/-- A taken descriptor of the tag is not final. A posted PARTITION_OPEN is not one of them (R317). -/
def Engine.owes (e : Engine) (t : PTag) : Bool :=
  e.taken.any fun d => !d.fin && !d.node && d.opcode != 0x07 && d.ptag == t

/-- A fault of the partition waits at the collector. -/
def State.faultWaits (s : State) (t : PTag) : Bool :=
  s.fc.inbox.any fun r => r.partV && r.ptag == t && codeClass r.code != 1

/-- R314: an END record goes out once every event record written has its response and every taken
descriptor of its partition is final. -/
def State.flushEnds (s : State) : State :=
  if s.eng.eventsOut then s
  else
    let (go, stay) := s.eng.ends.partition fun r => !s.eng.owes (r.extractLsb' 16 16) && !s.faultWaits (r.extractLsb' 16 16)
    go.foldl (fun s r => s.reply s.stamp 3 0 [r]) (s.modEng fun e => { e with ends := stay })

/-- The taken descriptor `num` reaches its outcome: its final record goes to the Completion ring (R312). `entry` marks the outcome
of a tick-table entry (R314). -/
def State.complete (s : State) (num : Nat) (status : Byte) (cause : BitVec 16 := 0) (det : BitVec 80 := 0)
    (stamp : Option HT80 := none) (ptag : Option PTag := none) (entry : Bool := false) : State :=
  match s.eng.taken.find? fun d => d.num == num && !d.fin with
  | none => s
  | some d =>
    let s := s.modEng fun e => { e with taken := modFirst (fun x => x.num == num) (fun x => { x with fin := true }) e.taken }
    (s.reply (stamp.getD s.stamp) (if entry then 1 else 2) (if entry then 0 else num)
      [cplRecord 0x01 status (ptag.getD d.recTag) d.hostTag (stamp.getD s.stamp) d.opcode (grpOne true) cause det] (some num)).flushEnds

-- Messages on the Ronoux ports (R93, R97).

/-- The node sends nothing but NODE_DOWN or LAST_GASP (R100, R101). -/
def State.mute (s : State) : Bool := s.fc.safe || s.pw.pfail

/-- A message becomes ready on a port in UP, in class 5, 6 or 7 of R97. It starts under R93. -/
def State.send (s : State) (p : PortNo) (cls : Nat) (m : Msg) : State :=
  if (s.port p).st == .up && !s.mute then
    s.modPort p fun q => { q with waiting := q.waiting ++ [{ cls := cls, ready := s.tick, msg := m }] }
  else s

/-- The same message on several ports. -/
def State.sendOn (s : State) (ps : List PortNo) (cls : Nat) (m : Msg) : State :=
  ps.foldl (fun s p => s.send p cls m) s

/-- On every UP port but one (R125). -/
def State.sendExcept (s : State) (p : Option PortNo) (cls : Nat) (m : Msg) : State :=
  s.sendOn (s.upPorts.filter fun q => some q != p) cls m

/-- R378: scores are kept while PD3 is on, HS_CTL.EN is 1 and the control cores run (R337). -/
def State.scoring (s : State) : Bool := s.pdOn 3 && s.hs.en && !s.fc.safe

/-- R369, R373, R374: the odometer counts once the start-up scan is done, up to a power failure. -/
def State.odoCount (s : State) (f : Odo → Odo) : State :=
  if s.lg.ready && !s.pw.pfail then s.modLg fun l => { l with odo := f l.odo } else s

/-- GY_VERSION (R4). -/
def gyVersion : Word := 0x04020000

/-- R379, R380: evidence in units at a port. -/
def State.linkUnits (s : State) (p : PortNo) (n : Nat) : State :=
  if s.scoring then s.modPort p fun q => { q with units := q.units + n } else s

-- Meanings.

/-- What a meaning answers. -/
abbrev Result := Host.Outcome State Fault Refusal

/-- An event of a block that is powered and out of reset; otherwise nothing happens. Log entry 15. -/
def whenAlive (s : State) (f : State → State) : Result := .next (if s.alive then f s else s)

/-- A command that names port `p` of the block. -/
def onPort (p : PortNo) (s : State) (f : State → State) : Result :=
  if p.toNat < s.ports.length then whenAlive s f else .fault .absentUnit

/-- A command that only a Leaf has: the Trellis, the Bandstand, the sync engine (R1). -/
def onLeaf (s : State) (f : State → State) : Result :=
  if s.isLeaf then whenAlive s f else .fault .absentUnit

/-- Answer of the register port to an accepted access. -/
def State.rpOk (s : State) (w : Word := 0) : State := s.modRp fun r => { r with err := false, rdata := w }

/-- Answer of the register port to a refused access (R47). -/
def State.rpErr (s : State) : State := s.modRp fun r => { r with err := true, rdata := 0 }

/-- R41, R42: the strap names a frequency. -/
def State.xoOk (s : State) : Bool := s.pins.xoSel.toNat ≤ 4

/-- R47, R337: a register write in domain `d` is serviced. -/
def State.regOk (s : State) (d : Nat) : Bool := s.alive && s.xoOk && !s.fc.safe && s.pdOn d

/-- A register write in domain `d`. Without VDD_GY or ck_hm the port answers nothing (R39, R43); where
the write is not serviced it completes with rp_err. -/
def onReg (d : Nat) (s : State) (f : State → State) : Result :=
  .next (if s.pins.powered && s.pins.hmRunning then (if s.regOk d then f s else s.rpErr) else s)

/-- A register that only a Leaf has; on a Hub its page is not implemented (R2, R47). -/
def onLeafReg (d : Nat) (s : State) (f : State → State) : Result :=
  onReg d s fun s => if s.isLeaf then f s else s.rpErr

/-- Does the node hold any partition (R15, R132)? On a Leaf a context slot, on any node an entry. -/
def State.holdsPartition (s : State) : Bool :=
  s.ctx0.st != .free || s.ctx1.st != .free || s.fab.parts.any fun p => p.st != .free && !p.ended

-- Banks (R346, R352, R416).

/-- What a byte of a bank reads as when no write has reached it since the bank's last clear: zero
(R346), or the pattern a self-test left (R416), which the manual does not give. -/
def Power.unlisted (p : Power) (a : Nat) : Byte :=
  match p.scrambled.find? fun x => x.1 == a / 2 ^ 19 with
  | some (_, k) => Config.bistByte k (a % 2 ^ 19)
  | none => 0

/-- Read one byte. -/
def Power.read (p : Power) (a : Nat) : Byte := (p.mem.find? fun c => c.1 == a).elim (p.unlisted a) (·.2)

/-- Insert a cell in a list whose addresses rise. -/
def cellInsert (a : Nat) (b : Byte) : List Host.Cell → List Host.Cell
  | [] => [(a, b)]
  | c :: r => if a < c.1 then (a, b) :: c :: r else if a = c.1 then (a, b) :: r else c :: cellInsert a b r

/-- Write one byte, keeping the canonical form. -/
def Power.write (p : Power) (a : Nat) (b : Byte) : Power :=
  if b = p.unlisted a then { p with mem := p.mem.filter fun c => c.1 != a }
  else { p with mem := cellInsert a b p.mem }

/-- R346: every byte of bank `k` becomes zero. -/
def Power.clearBank (p : Power) (k : Nat) : Power :=
  { p with mem := p.mem.filter (fun c => c.1 / 2 ^ 19 != k), scrambled := p.scrambled.filter fun x => x.1 != k }

/-- R416: a self-test overwrites every byte of bank `k`. -/
def Power.scrambleBank (p : Power) (k draw : Nat) : Power :=
  { p with mem := p.mem.filter (fun c => c.1 / 2 ^ 19 != k), scrambled := (k, draw) :: p.scrambled.filter fun x => x.1 != k }

/-- The canonical form: addresses strictly rising, no byte equal to what it reads as unlisted. -/
def Power.wf (p : Power) : Bool :=
  decide (p.mem.Pairwise fun a b => a.1 < b.1) && p.mem.all fun c => c.2 != p.unlisted c.1

end Sys2Proof.Machine
end

