-- ==== Sys2Proof/Machine/Rebase.lean ====
section
/-!
DEFINITION. What the model measures intervals by. A running interval is a difference of Sundial ticks; where
the Sundial is loaded with a new value (R15, R22, R24) or restarts (R16), every mark from which an interval
runs moves with it, so that the interval is the elapsed time.
-/

namespace Sys2Proof.Machine

/-- Marks of the Orangery. `h` is the same move with its fraction, for the marks that are stamps. -/
def Org.rebase (o : Org) (d : Tick) (h : HT80) : Org :=
  { o with
    ins := o.ins.map fun i => { i with goodSince := i.goodSince.map (· + d), lastEdge := i.lastEdge.map (· + h), expect := i.expect.map (· + h) }
    stageSince := o.stageSince + d, belowSince := o.belowSince.map (· + d), rateSince := o.rateSince + d, histAt := o.histAt + d
    rateLog := o.rateLog.map fun x => (x.1 + d, x.2), conflictAt := o.conflictAt + d }

/-- Marks of the election. -/
def Elect.rebase (e : Elect) (d : Tick) : Elect :=
  { e with improvedAt := e.improvedAt + d, firstUp := e.firstUp.map (· + d), rootLostAt := e.rootLostAt.map (· + d), offerAt := e.offerAt + d
           withdrawnAt := e.withdrawnAt + d }

/-- Marks of a port. -/
def Port.rebase (q : Port) (d : Tick) (h : HT80) : Port :=
  { q with
    txStamps := q.txStamps.map fun x => (x.1, x.2 + h), rxStamps := q.rxStamps.map fun x => (x.1, x.2 + h)
    since := q.since + d, beatAt := q.beatAt.map (· + d), pairIn := q.pairIn.map fun x => (x.1, x.2.1, x.2.2 + h), lastRx := q.lastRx + h
    lastBeat := q.lastBeat.map (· + h), waiting := q.waiting.map fun w => { w with ready := w.ready + d }
    replayAt := q.replayAt + d, calAt := q.calAt + d, ackAt := q.ackAt + d, nakAt := q.nakAt.map (· + d), lastNodeDown := q.lastNodeDown + d
    offeringSince := q.offeringSince.map (· + d), qualSince := q.qualSince.map (· + d) }

/-- Marks of the fabric. -/
def Fabric.rebase (f : Fabric) (d : Tick) : Fabric :=
  { f with
    nodes := f.nodes.map fun r => { r with seenAt := r.seenAt + d, dups := r.dups.map fun x => (x.1, x.2.1, x.2.2 + d) }
    defer := f.defer.map fun x => { x with since := x.since + d }, reopenAt := f.reopenAt.map (· + d), noStandbyAt := f.noStandbyAt + d }

/-- Marks of the ring engine. -/
def Engine.rebase (e : Engine) (d : Tick) : Engine :=
  { e with
    rings := e.rings.map fun r => { r with lastPoll := r.lastPoll + d }, hm := e.hm.map fun x => (x.1, x.2.1, x.2.2 + d)
    lastTake := e.lastTake.map (· + d), dump := e.dump.map fun j => { j with stalled := j.stalled.map (· + d) } }

/-- Marks of the Gatehouse, the ledger and the health unit, which run on over a warm reset. -/
def Gate.rebase (g : Gate) (d : Tick) : Gate := { g with openedAt := g.openedAt + d, lockedAt := g.lockedAt + d, chalAt := g.chalAt + d }
def Ledger.rebase (l : Ledger) (d : Tick) : Ledger := { l with sampleAt := l.sampleAt + d, lastFlush := l.lastFlush.map (· + d) }
def Health.rebase (h : Health) (d : Tick) : Health := { h with window := h.window + d, sparesAt := h.sparesAt.map (· + d) }

/-- Every mark moves by `h`, whole ticks by its integer part `d`. The run of high samples of pw_pfail and the latest edge
of each capture input are among them (R57, R64). -/
def State.rebase (s : State) (d : Tick) (h : HT80) : State :=
  { s with
    pins := { s.pins with pfailRun := s.pins.pfailRun.map (· + d) }, cap := s.cap.map fun c => { c with lastEdge := c.lastEdge.map (· + h), edges := c.edges.map fun x => (x.1, x.2 + h) }
    org := s.org.rebase d h, elect := s.elect.rebase d, ports := s.ports.map fun q => q.rebase d h, fab := s.fab.rebase d
    tr := { s.tr with accesses := s.tr.accesses.map fun x => { x with sentAt := x.sentAt + d }, seatedAt := s.tr.seatedAt + d }
    band := { s.band with lastChange := s.band.lastChange + d, lastFall := s.band.lastFall.map (· + d) }
    eng := s.eng.rebase d
    fc := { s.fc with recent := s.fc.recent.map fun x => (x.1, x.2.1, x.2.2.1, x.2.2.2.1, x.2.2.2.2 + d) }
    pw := { s.pw with doms := s.pw.doms.map fun x => { x with since := x.since.map (· + d) } }
    gate := s.gate.rebase d, lg := s.lg.rebase d, hs := s.hs.rebase d, fw := { s.fw with tdcAt := s.fw.tdcAt + d } }

/-- The Sundial is loaded with `t`. -/
def State.loadSun (s : State) (t : HT80) : State :=
  let d := htInt t - s.tick
  (s.modSun fun u => { u with now := t }).rebase d (t - s.sun.now)

end Sys2Proof.Machine
end

