-- ==== Sys2Proof/Machine/Orangery.lean ====
section
/-!
DEFINITION. The Orangery (04): qualification of the external inputs, selection, the hitless switch,
lock acceleration, holdover and its history.
-/

namespace Sys2Proof.Machine

/-- Nanoseconds in a second. -/
def nsPerS : Nat := 1000000000

/-- Period of an input type in units of 2^-16 ns (R104). -/
def refPeriod (type : BitVec 2) : Nat :=
  if type = 1 then nsPerS * 65536 else if type = 2 then 100 * 65536 else 40 * 65536

/-- SRC_TYPE code of an input type (R132). -/
def refSrcType (type : BitVec 2) : BitVec 3 := if type = 0 then 0 else type.setWidth 3 + 1

/-- SEL code of an input (R132). -/
def refSel (n : Nat) : BitVec 3 := BitVec.ofNat 3 (4 + n)

/-- The input a SEL code names. -/
def selInput (c : BitVec 3) : Option Nat := if c.toNat ≥ 4 then some (c.toNat - 4) else none

/-- Input `n`. -/
def State.refIn (s : State) (n : Nat) : RefIn := s.org.ins.getD n {}

/-- Apply `f` to input `n`. -/
def State.modIn (s : State) (n : Nat) (f : RefIn → RefIn) : State :=
  s.modOrg fun o => { o with ins := o.ins.modify n f }

/-- Does the profile have the pin ref_in[n] (R1)? -/
def State.hasRef (s : State) (n : Nat) : Bool := if s.isLeaf then n < 2 else n < 4

/-- Centred residue of `x` modulo `m`. -/
def centred (x : Int) (m : Nat) : Int :=
  let r := x.emod m
  if 2 * r ≥ m then r - m else r

/-- 2^-16 ns to ps. -/
def unitsToPs (x : Int) : Int := (x * 1000).tdiv 65536

/-- Is any partition open in the fabric, as the root knows it (R114, R126)? -/
def State.fabricOpen (s : State) : Bool :=
  s.holdsPartition || s.fab.parts.any fun p => p.st == .opening || p.st == .open_ || p.st == .closing

/-- Sum the rate of the running second up to now (R119). -/
def Org.integrate (o : Org) (t : Tick) : Org :=
  { o with rateAcc := o.rateAcc + o.rate * (t - o.rateSince).toNat, rateSince := t }

/-- The largest rate correction, 200 ppm in steps of 2^-40 (R13). -/
def rateMax : Int := 219902325

/-- 1 ppb in steps of 2^-40 (R114). -/
def ratePpb : Int := 1099

/-- R114: the rate nearest to `want` that lies within 1 ppb of the present rate and of every rate that was in force within
the last millisecond. -/
def Org.limited (o : Org) (log : List (Tick × Int)) (want : Int) : Int :=
  let seen := log.map (·.2)
  let lo := seen.foldl max o.rate - ratePpb
  let hi := seen.foldl min o.rate + ratePpb
  if lo ≤ hi then max lo (min hi want) else o.rate

/-- Ask for an oscillator rate: under R13 and, on the root while a partition is open, as far as R114 allows now. -/
def State.setRate (s : State) (r : Int) : State :=
  let t := s.tick
  let o := s.org.integrate t
  let want := max (-rateMax) (min rateMax r)
  let log := o.rateLog.filter fun x => tickLt t (x.1 + 1000000)
  let r := if s.sun.isRoot && s.fabricOpen then o.limited log want else want
  s.modOrg fun _ => { o with
    rate := r, rateWant := want, rateLog := if r = o.rate then log else (t, o.rate) :: log, dirty := o.dirty || r != want }

/-- A rate that R114 has clipped goes on toward what the loop or the holdover asked for (R114, R119). -/
def State.rampRate (s : State) : State := if s.org.rate = s.org.rateWant then s else s.setRate s.org.rateWant

/-- R114: while a partition is open in the fabric the root runs no lock acceleration. -/
def State.stopAccel (s : State) : State :=
  if s.sun.isRoot && s.fabricOpen && s.org.accel then s.modOrg fun o => { o with accel := false, stage := 4, reps := 0, belowSince := none } else s

/-- R119: the holdover rate, and whether SHORT and FROZEN are set. The history lists seconds newest first. -/
def Org.holdRate (o : Org) : Int × Bool × Bool :=
  let h := o.lockedS
  let win := o.win.toNat
  let gap := o.gap.toNat
  let (start, stop, short) :=
    if h ≥ win + gap then (h - gap - win, h - gap, false)
    else if h ≥ 2 then ((if h / 2 > win then h / 2 - win else 0), h / 2, true)
    else (0, 0, false)
  let secs := (List.range (stop - start)).map fun k => start + k
  let vals := secs.filterMap fun i => (o.hist.getD (h - 1 - i) none)
  if vals.isEmpty then (o.rateAtLock, short, true) else (vals.sum.fdiv vals.length, short, false)

/-- The seconds of the history and of AGE are counted from the entry to the state (R119, R120). -/
def Org.newSecond (o : Org) (t : Tick) : Org := { o with histAt := t, rateAcc := 0, rateSince := t }

/-- Entry to HOLDOVER (R119, R120). A node that was never locked stays in FREERUN (R103). -/
def State.enterHoldover (s : State) : State :=
  if s.sun.st = .locked then
    let (r, sh, fr) := s.org.holdRate
    ((s.modSun fun u => { u with st := .holdover, rootSt := if u.isRoot then 2 else u.rootSt }).setRate r).modOrg fun o =>
      { o.newSecond s.tick with age := 0, short := sh, frozen := fr, dirty := true, belowSince := none, heldExt := (selInput o.sel).isSome }
  else s

/-- Entry to LOCKED (R113, R118, R120). -/
def State.enterLocked (s : State) : State :=
  if s.sun.st = .untrusted || s.sun.st = .locked then s
  else (s.modSun fun u => { u with st := .locked, rootSt := if u.isRoot then 1 else u.rootSt }).modOrg fun o =>
    { o.newSecond s.tick with age := 0, short := false, frozen := false, everLocked := true, lockedS := 0, dirty := o.accel || o.switching }

/-- Lock threshold of a followed source in 2^-16 ns: 100 ps, 1 ns, 20 ns (R113). -/
def lockLimit (src : BitVec 3) : Int := if src = 1 then 6554 else if src = 2 then 20 * 65536 else 65536

/-- Dwell of acceleration stage `k` in ns (R112). -/
def stageDwell (src : BitVec 3) (k : Nat) : Nat :=
  if src = 2 then (if k = 3 then 40000000000 else 12800000000)
  else
    let d := [128000, 400000, 1280000, 4000000].getD k 4000000
    if src = 1 then d else d * 10

/-- Start lock acceleration at stage 0 (R112). -/
def State.startAccel (s : State) : State :=
  s.modOrg fun o => { o with accel := true, stage := 0, stageSince := s.tick, reps := 0, dirty := true }

/-- May lock acceleration run: no partition open on the node, nor in the fabric on the root (R112, R114). -/
def State.accelAllowed (s : State) : Bool := !(s.holdsPartition || (s.sun.isRoot && s.fabricOpen))

/-- One phase sample of the followed source: PERR, the loop's new rate (a free value, R111), and the entry to LOCKED of a
node that runs no acceleration: a node in HOLDOVER that re-parents, and a former root in FREERUN that serves a partition,
on the first sample below the threshold (R15, R118); any other after one dwell of stage 3 (R113). -/
def State.phaseSample (s : State) (err : Int) : State :=
  let s := s.stopAccel
  let s := s.modOrg fun o => { o with perr := BitVec.ofInt 16 (max (-32767) (min 32767 (unitsToPs err))) }
  let s := (s.setRate (Config.loopRate s.freeIx).toInt).drew
  let below := decide (err.natAbs < (lockLimit s.org.srcType).natAbs)
  if s.org.accel || s.sun.st = .locked || s.sun.st = .untrusted then s
  else if !below then s.modOrg fun o => { o with belowSince := none }
  else if !s.sun.isRoot && (s.sun.st = .holdover || s.holdsPartition) then s.enterLocked
  else match s.org.belowSince with
    | none => s.modOrg fun o => { o with belowSince := some s.tick }
    | some t => if tickLe (t + BitVec.ofNat 64 (stageDwell s.org.srcType 3)) s.tick then s.enterLocked else s

/-- R124: the node's time quality class. -/
def State.quality (s : State) : BitVec 8 :=
  let avail := s.org.ins.filter fun i => i.qual && !i.suspect && i.type != 0
  if s.org.ppsAlign && avail.any (fun i => i.type == 1) then 0x10
  else if !avail.isEmpty then 0x20
  else if s.sun.isRoot && s.sun.st == .holdover && s.org.heldExt && s.org.age.toNat < 3600 then 0x30
  else if s.org.osc then 0x40 else 0x50

/-- A claim is better than another: lower PRIO, then QUAL, then hardware ID (R123). -/
def claimBetter (a b : ElectMsg) : Bool :=
  if a.prio != b.prio then a.prio.toNat < b.prio.toNat
  else if a.qual != b.qual then a.qual.toNat < b.qual.toNat
  else a.hwid.toNat < b.hwid.toNat

/-- The node's own claim (R123). -/
def State.ownClaim (s : State) : ElectMsg :=
  { prio := s.org.prio, qual := s.org.qual, hwid := s.gate.hwid, node := s.elect.node, rootClaim := true, standbyClaim := false }

/-- A control core is halted through TST_CORE_CTL: the node claims nothing and answers no discovery (R416). -/
def State.coresHalted (s : State) : Bool := s.tst.halt0 || s.tst.halt1

/-- May the node claim the root role (R123, R397)? -/
def State.candidate (s : State) : Bool := s.org.prio != 0xFF && s.sun.st != .untrusted && !s.elect.hold && !s.coresHalted

/-- Send the claim on every UP port and count it among the claims seen (R125). -/
def State.sendClaim (s : State) : State :=
  if s.candidate then
    let c := s.ownClaim
    let keep := match s.elect.best with
      | none => true
      | some b => b.hwid == c.hwid || claimBetter c b
    (s.modElect fun e => { e with best := if keep then some c else e.best, improvedAt := s.tick }).sendExcept none 7 (.elect c)
  else s

/-- QUAL follows R124; a change of a candidate's QUAL sends its claim again, except on a root while
partitions are open (R125, R126). -/
def State.requalify (s : State) : State :=
  let q := s.quality
  if q = s.org.qual then s
  else
    let s := s.modOrg fun o => { o with qual := q }
    if s.sun.isRoot && s.fabricOpen then s else s.sendClaim

/-- R110: the input that the selection order names. -/
def State.selection (s : State) : Option Nat :=
  let ok (n : Nat) : Bool := (s.refIn n).qual && !(s.refIn n).suspect
  let all := (List.range 4).filter s.hasRef
  let cur := (selInput s.org.sel).filter fun n => (s.refIn n).qual
  let best := all.foldl (fun (b : Option Nat) n =>
    if !ok n then b
    else match b with
      | none => some n
      | some m => if (s.refIn n).rank.toNat < (s.refIn m).rank.toNat then some n else b) none
  match (selInput s.org.force).filter fun n => s.hasRef n && (s.refIn n).qual with
  | some n => some n
  | none =>
    match cur, best with
    | some c, some b => if (s.refIn b).rank.toNat < (s.refIn c).rank.toNat then some b else some c
    | some c, none => some c
    | none, b => b

/-- R115, R117: on the root, selection names an input other than the selected one, and a switch starts.
A switch in progress runs to its COMMIT. -/
def State.runSelection (s : State) : State :=
  if !s.sun.isRoot || s.org.switching then s
  else match s.selection with
    | none => s
    | some n => if selInput s.org.sel = some n then s
                else s.modOrg fun o => { o with switching := true, target := refSel n, measure := none }

/-- The root has lost the input it followed (R103, R115). -/
def State.loseSelected (s : State) : State :=
  (s.enterHoldover).modOrg fun o => { o with sel := 0, srcType := 0, accel := false }

/-- Pairs of inputs. -/
def refPairs : List (Nat × Nat) := [(0, 1), (0, 2), (0, 3), (1, 2), (1, 3), (2, 3)]

/-- R108: an input is marked SUSPECT while a pair that it belongs to disagrees. -/
def Org.markSuspects (o : Org) : Org :=
  { o with ins := o.ins.zipIdx.map fun (i, n) => { i with
    suspect := (refPairs.zip o.pairs).any fun (pr, q) => (pr.1 == n || pr.2 == n) && q.conflict } }

/-- Pairs with input `n` are no longer compared. -/
def Org.dropPairs (o : Org) (n : Nat) : Org :=
  Org.markSuspects { o with pairs := (refPairs.zip o.pairs).map fun (pr, q) => if pr.1 == n || pr.2 == n then {} else q }

/-- What follows when input `n` is no longer qualified (R105, R115, R116, R132): a measurement of it is discarded, the root
that followed it is in HOLDOVER, and selection runs again at once. -/
def State.unqualify (s : State) (n : Nat) : State :=
  let s := (s.modIn n fun i => { i with act := false, qual := false, wtr := false, goodSince := none, misses := 0, freqs := [] }).modOrg (·.dropPairs n)
  let s := if s.org.switching && selInput s.org.target = some n
    then s.modOrg fun o => { o with switching := false, target := 0, measure := none } else s
  let s := if s.sun.isRoot && selInput s.org.sel = some n then s.loseSelected else s
  s.runSelection

/-- R105, R116, R322: an input is disqualified at the first failed criterion. -/
def State.disqualify (s : State) (n : Nat) (criterion : Byte) : State :=
  (if (s.refIn n).qual then s.raiseNow (ce 0x02 0x04) 0 none (detail [(24, 1, n), (25, 1, criterion.toNat)]) else s).unqualify n

/-- An edge of input `n` was good: it stays or becomes good (R105). -/
def State.refGood (s : State) (n : Nat) : State :=
  s.modIn n fun i => if i.act then i else { i with act := true, wtr := !i.qual, goodSince := some s.tick }

/-- Phase of a stamp modulo the period of a type, 2^-16 ns. -/
def refPhase (type : BitVec 2) (stamp : HT80) : Nat := stamp.toNat % refPeriod type

/-- R122: once a second, with PPS_ALIGN, the build-out of a followed 1PPS goes toward zero, by at most 10 ppm, and while a
partition is open by a slew that grows no faster than 1 ppb in a millisecond (R114). 1 ppb of a second is 1 ns. -/
def Org.slewBuild (o : Org) (type : BitVec 2) (open_ : Bool) : Org :=
  if type = 1 && o.ppsAlign then
    let off := centred o.buildOut (refPeriod type)
    let step := min off.natAbs ((if open_ then o.slew + 1000 else 10000) * 65536)
    { o with buildOut := ((off - off.sign * step).emod (refPeriod type)).toNat, slew := step / 65536 }
  else { o with slew := 0 }

/-- An edge that the loop or a MEASURE uses (R111, R115, R122). -/
def State.useEdge (s : State) (n : Nat) (stamp : HT80) : State :=
  let ty := (s.refIn n).type
  if s.org.switching && selInput s.org.target = some n then
    let ph := refPhase ty stamp
    s.modOrg fun o => { o with dirty := true, measure := match o.measure with
      | none => some ⟨1, ph, 0⟩
      | some m => some ⟨m.edges + 1, m.base, m.sum + centred ((ph : Int) - m.base) (refPeriod ty)⟩ }
  else if s.sun.isRoot && selInput s.org.sel = some n then
    let s := s.modOrg (·.slewBuild ty s.fabricOpen)
    s.phaseSample (centred ((refPhase ty stamp : Int) - s.org.buildOut) (refPeriod ty))
  else s

/-- R105: how far a 1PPS edge lies from the edge predicted from the loop, 2^-16 ns. The prediction is a whole number of
seconds, at least one, after the latest edge that met its own; for the input that the loop follows, at the build-out's
phase. Log entry 25. -/
def State.ppsError (s : State) (n : Nat) (last stamp : HT80) : Int :=
  let per := refPeriod 1
  let base : Int := if s.sun.isRoot && selInput s.org.sel = some n then centred ((refPhase 1 last : Int) - s.org.buildOut) per else 0
  let gap := htDiff stamp last + base
  gap - max 1 ((gap + per / 2).fdiv per) * per

/-- REF_IN_EDGE (R105, R106): a rising edge on ref_in[n]. -/
def State.refEdge (s : State) (n : Nat) (stamp : HT80) (width : BitVec 32) : State :=
  let i := s.refIn n
  let per := refPeriod i.type
  let s' := s.modIn n fun i => { i with lastEdge := some stamp, expect := some stamp }
  if i.type = 0 then s
  else if i.type = 1 then
    if width.toNat < 1000 || width.toNat > 500000000 then
      (s'.disqualify n ((Config.anyWord s.freeIx).setWidth 8)).drew
    else match i.expect with
      | none => s'.refGood n
      | some e =>
        if (s.ppsError n e stamp).natAbs ≤ 65536000 then
          ((s'.modIn n fun i => { i with misses := 0 }).refGood n).useEdge n stamp
        else if i.misses = 0 then
          -- a phase hit: the edge is not used, and prediction goes on from the edge before it
          s.modIn n fun i => { i with misses := 1, phaseHit := true, lastEdge := some stamp }
        else s'.disqualify n 0x04
  else match i.lastEdge with
    | none => s'
    | some e =>
      let d := htDiff stamp e
      if (d - per).natAbs * 20 ≤ per then (s'.refGood n).useEdge n stamp
      else s'.disqualify n 0x02

/-- A command on the pin ref_in[n]. -/
def onRef (n : Nat) (s : State) (f : State → State) : Result :=
  if s.hasRef n then whenAlive s fun s => (f s).requalify else .fault .absentUnit

/-- REF_IN_EDGE (R65, R105, R106, R115). -/
def execRefInEdge (n : BitVec 2) (stamp : HT80) (width : BitVec 32) (s : State) : Result :=
  onRef n.toNat s fun s => s.refEdge n.toNat stamp width

/-- Limit after the last edge, in ns (R105). -/
def missingLimit (type : BitVec 2) : Nat := if type = 1 then nsPerS + 1000 else if type = 2 then 150 else 60

/-- REF_EDGE_MISSING (R105): no edge within the limit of the input's type. -/
def execRefEdgeMissing (n : BitVec 2) (s : State) : Result :=
  onRef n.toNat s fun s =>
    let i := s.refIn n.toNat
    match i.lastEdge with
    | none => s
    | some e =>
      if i.type != 0 && htLe (htAdd e (missingLimit i.type)) s.stamp then
        ((s.disqualify n.toNat 0x01).modIn n.toNat fun i => { i with lastEdge := none, expect := none })
      else s

/-- REF_FREQ_CHECK (R105, R108): the frequency of the second just past, signed ppb from nominal. -/
def execRefFreqCheck (n : BitVec 2) (ppb : BitVec 32) (s : State) : Result :=
  onRef n.toNat s fun s =>
    let i := s.refIn n.toNat
    if i.type = 0 then s
    else
      let s := s.modIn n.toNat fun i => { i with freqs := (ppb.toInt :: i.freqs).take 100 }
      if i.type != 1 && ppb.toInt.natAbs > 100000 then s.disqualify n.toNat 0x03 else s

/-- WAIT_TO_RESTORE_END (R105, R110, R117): ten seconds good without a break. -/
def execWaitToRestoreEnd (n : BitVec 2) (s : State) : Result :=
  onRef n.toNat s fun s =>
    let i := s.refIn n.toNat
    match i.goodSince with
    | none => s
    | some t =>
      if i.act && !i.qual && tickLe (t + BitVec.ofNat 64 (10 * nsPerS)) s.tick then
        (s.modIn n.toNat fun i => { i with qual := true, wtr := false }).runSelection
      else s

/-- Mean of the last `w` seconds' frequencies, if there are that many (R108). -/
def meanFreq (i : RefIn) (w : Nat) : Option Int :=
  if i.freqs.length ≥ w then some ((i.freqs.take w).sum.fdiv w) else none

/-- Difference of a pair of equal rank over its window, and the window in seconds (R108). -/
def State.pairDiff (s : State) (a b : Nat) : Option (Nat × Nat) :=
  let i := s.refIn a
  let j := s.refIn b
  if i.qual && j.qual && i.rank == j.rank then
    let w := if i.type == 1 || j.type == 1 then 100 else 10
    match meanFreq i w, meanFreq j w with
    | some x, some y => some ((x - y).natAbs, w)
    | _, _ => none
  else none

/-- A conflict of pair `k` is reported (R109, R321). -/
def State.raiseConflict (s : State) (k : Nat) : State :=
  let (a, b) := refPairs.getD k (0, 0)
  (s.raiseNow (ce 0x02 0x01) 0 none (detail [(24, 1, a), (25, 1, b), (26, 2, min (((s.pairDiff a b).map (·.1)).getD 0) 65535)])).modOrg
    fun o => { o with conflictAt := s.tick }

/-- What one comparison leaves of a pair that differs by `d` over a window of `w` seconds (R108). -/
def RefPair.compare (q : RefPair) (d w lim : Nat) : RefPair :=
  if d > lim then { conflict := true }
  else if !q.conflict || d * 5 > lim * 4 then { q with calm := 0 }
  else if q.calm + 1 ≥ w then {}
  else { q with calm := q.calm + 1 }

/-- One pair's comparison (R108, R109). A pair of which an input is no longer qualified, or whose ranks differ, holds no
mark; one whose window is not yet full keeps it. -/
def State.comparePair (s : State) (k : Nat) : State :=
  let (a, b) := refPairs.getD k (0, 0)
  let q := s.org.pairs.getD k {}
  if !((s.refIn a).qual && (s.refIn b).qual && (s.refIn a).rank == (s.refIn b).rank) then s.modOrg fun o => { o with pairs := o.pairs.set k {} }
  else match s.pairDiff a b with
    | none => s
    | some (d, w) =>
      let new := q.compare d w s.org.limit.toNat
      let s := s.modOrg fun o => { o with diff := if o.diff.toNat < d then satNat 16 d else o.diff, pairs := o.pairs.set k new }
      if new.conflict && !q.conflict then s.raiseConflict k else s

/-- Declarations written since the last second take effect (R132). An input whose TYPE changes begins anew: it is
disqualified at once, and with it what followed or measured it. That disqualification is none of R105 and raises no CE
(R322). -/
def State.applyDecl (s : State) : State :=
  let changed := (List.range 4).filter fun n => (s.refIn n).ntype != (s.refIn n).type
  let s := s.modOrg fun o => { o with ins := o.ins.map fun i =>
    if i.ntype = i.type then { i with rank := i.nrank }
    else { type := i.ntype, rank := i.nrank, ntype := i.ntype, nrank := i.nrank, phaseHit := i.phaseHit } }
  changed.foldl State.unqualify s

/-- REF_AGREE_COMPARE (R108 to R110): the once-a-second comparison. -/
def execRefAgreeCompare (s : State) : Result :=
  whenAlive s fun s =>
    let s := s.applyDecl.modOrg fun o => { o with diff := 0 }
    (((List.range 6).foldl State.comparePair s).modOrg Org.markSuspects).runSelection.requalify

/-- REFERENCE_CONFLICT_REPEAT (R109): every 60 s while a suspect mark stands. -/
def execReferenceConflictRepeat (s : State) : Result :=
  whenAlive s fun s =>
    if tickLe (s.org.conflictAt + BitVec.ofNat 64 (60 * nsPerS)) s.tick then
      match (List.range 6).find? fun k => (s.org.pairs.getD k {}).conflict with
      | none => s
      | some k => s.raiseConflict k
    else s

/-- Edges a MEASURE averages (R115). -/
def measureEdges (type : BitVec 2) : Nat := if type = 1 then 4 else 1024

/-- COMMIT (R115): entirely on one tick. Where R112 asks for lock acceleration, at the first acquisition or with a
frequency error above 1 ppm, it starts then. -/
def State.commitSwitch (s : State) (n : Nat) (m : Measure) : State :=
  let ty := (s.refIn n).type
  let out := ((m.base : Int) + m.sum.fdiv (max m.edges 1)).emod (refPeriod ty)
  let fast := !s.org.everLocked || (s.refIn n).freqs.head?.elim false fun f => decide (f.natAbs > 1000)
  let s := s.modOrg fun o => { o with
    buildOut := out.toNat, sel := refSel n, srcType := refSrcType ty, switching := false, target := 0, measure := none,
    stage := 4, accel := false, dirty := true, belowSince := none }
  let s := if s.sun.st = .holdover then s.enterLocked.modOrg fun o => { o with dirty := true } else s
  if fast && s.accelAllowed then s.startAccel else s

/-- MEASURE_END (R115 to R117). -/
def execMeasureEnd (s : State) : Result :=
  whenAlive s fun s =>
    match s.org.measure, selInput s.org.target with
    | some m, some n =>
      if s.org.switching && m.edges ≥ measureEdges (s.refIn n).type then (s.commitSwitch n m).runSelection.requalify else s
    | _, _ => s

/-- HOLD_HISTORY_STORE (R119, R120, R124): the second's mean rate enters the history; AGE counts. -/
def execHoldHistoryStore (s : State) : Result :=
  whenAlive s fun s =>
    if tickLe (s.org.histAt + BitVec.ofNat 64 nsPerS) s.tick then
      let o := s.org.integrate s.tick
      let valid := s.sun.st = .locked && !o.dirty && o.stage = 4
      let keep := s.sun.st = .holdover || s.sun.st = .locked
      let entry := if valid then some (o.rateAcc.fdiv nsPerS) else none
      let s := s.modOrg fun _ => { o with
        hist := if keep then (entry :: o.hist).take 512 else o.hist
        lockedS := if s.sun.st = .locked then o.lockedS + 1 else o.lockedS
        age := if s.sun.st = .holdover then satInc o.age else o.age
        rateAcc := 0, dirty := s.sun.st = .holdover || o.accel || o.switching, histAt := s.tick }
      s.requalify
    else s

/-- ACCEL_STAGE_END (R112, R113): the dwell of the running stage is over. -/
def execAccelStageEnd (s : State) : Result :=
  whenAlive s fun s =>
    let s := s.stopAccel
    let o := s.org
    if o.accel && o.srcType != 0 && tickLe (o.stageSince + BitVec.ofNat 64 (stageDwell o.srcType o.stage.toNat)) s.tick then
      if o.stage.toNat < 3 then s.modOrg fun o => { o with stage := o.stage + 1, stageSince := s.tick }
      else if decide ((o.perr.toInt).natAbs < (unitsToPs (lockLimit o.srcType)).natAbs) then
        (s.modOrg fun o => { o with stage := 4, accel := false, reps := 0, rateAtLock := o.rate }).enterLocked
      else if o.reps ≥ 4 then
        (s.raiseNow (ce 0x02 0x02) 0 none (detail [(24, 1, o.srcType.toNat), (26, 2, o.perr.toNat)])).startAccel
      else s.modOrg fun o => { o with reps := o.reps + 1, stageSince := s.tick }
    else s

/-- ACCEL (R112, R132): ORG_BW.ACCEL written 1. A node that follows nothing has no loop to accelerate. -/
def State.writeAccel (s : State) : State :=
  if !s.accelAllowed then s.rpErr else if s.org.srcType = 0 then s.rpOk else s.startAccel.rpOk

end Sys2Proof.Machine
end

