-- ==== Sys2Proof/Machine/Tree.lean ====
section
/-!
DEFINITION. Election, the standby root, the time tree, discovery and link delays (04, R123 to R131;
05, R133 to R142).
-/

namespace Sys2Proof.Machine

/-- No node ID (R79). -/
def noNode : NodeId := BitVec.allOnes 20

-- The time tree.

/-- R107: port `p` qualifies as a time source. -/
def State.timeSource (s : State) (p : PortNo) : Bool :=
  let q := s.port p
  let partnerIsRoot := s.elect.root != noNode && q.partnerNode == s.elect.root
  q.st == .up && q.calDone && !q.noTime &&
    (q.partnerSt == 1 || q.partnerSt == 2 || (partnerIsRoot && q.partnerSt != 3))

/-- Ten seconds have passed since `t`. -/
def State.tenSeconds (s : State) (t : Option Tick) : Bool :=
  t.elim false fun t => tickLe (t + BitVec.ofNat 64 (10 * nsPerS)) s.tick

/-- R134: the port qualifies and its latest TREE names the node's root with HOPS of 7 or less. -/
def State.offers (s : State) (p : PortNo) : Option TreeMsg :=
  match (s.port p).tree with
  | some t => if s.timeSource p && t.offer && t.root == s.elect.root && t.hops.toNat ≤ 7 then some t else none
  | none => none

/-- The comparison keys of R134: HOPS, TL_DELAY, partner node ID, own port. -/
def State.parentKey (s : State) (p : PortNo) : Nat × Nat × Nat × Nat :=
  let q := s.port p
  ((q.tree.map (·.hops.toNat)).getD 255, q.delay.toNat, q.partnerNode.toNat, p.toNat)

/-- Lexicographic order of keys. -/
def keyLt (a b : Nat × Nat × Nat × Nat) : Bool :=
  a.1 < b.1 || (a.1 == b.1 && (a.2.1 < b.2.1 || (a.2.1 == b.2.1 && (a.2.2.1 < b.2.2.1 || (a.2.2.1 == b.2.2.1 && a.2.2.2 < b.2.2.2)))))

/-- The first of some ports by the keys of R134. -/
def State.bestPort (s : State) (ps : List PortNo) : Option PortNo :=
  ps.foldl (fun (b : Option PortNo) p => match b with
    | none => some p
    | some c => if keyLt (s.parentKey p) (s.parentKey c) then some p else some c) none

/-- Ports from which a parent may be taken. A port that returned after a loss waits 10 s unless the
node has no other parent (R107). -/
def State.parentPorts (s : State) : List PortNo := s.upPorts.filter fun p => (s.offers p).isSome

/-- R135: the alternates, in no order. -/
def State.alternates (s : State) : List PortNo :=
  s.parentPorts.filter fun p =>
    some p != s.elect.parent && ((s.offers p).elim false fun t => t.hops.toNat ≤ s.elect.hops.toNat) && !(s.port p).partnerTp

/-- The node's offer (R133, R23). -/
def State.offerMsg (s : State) : TreeMsg :=
  { root := s.elect.root, hops := s.elect.hops, node := s.elect.node, offer := true, altOffer := false,
    utcOfs := s.org.utcOfs, utcV := s.sun.utcValid }

/-- A withdrawal (R135). -/
def State.withdrawMsg (s : State) : TreeMsg := { s.offerMsg with hops := 0xFF, offer := false }

/-- The node holds a root and a hop count below 8 (R133). -/
def State.canOffer (s : State) : Bool := s.elect.root != noNode && s.elect.hops.toNat < 8

/-- R133: the offer on every UP port except the parent port. -/
def State.sendOffers (s : State) : State :=
  let s := s.modElect fun e => { e with offerAt := s.tick }
  if s.canOffer then s.sendExcept s.elect.parent 7 (.tree s.offerMsg) else s

/-- R135: withdraw on every UP port. -/
def State.withdraw (s : State) : State :=
  let s := s.modElect fun e => { e with withdrawn := true, hops := 0xFF, offerAt := s.tick }
  s.sendExcept none 7 (.tree s.withdrawMsg)

/-- A parent's UTC offset reaches the node (R23). The second component says that something changed. -/
def State.takeUtc (s : State) (t : TreeMsg) : State :=
  if t.offer && t.root == s.elect.root then
    (s.modOrg fun o => { o with utcOfs := t.utcOfs }).modSun fun u => { u with utcValid := u.utcValid || t.utcV }
  else s

/-- The node follows port `p` (R118, R134). The first acquisition of a node in FREERUN that holds no
open partition steps the Sundial (R15). The parent's UTC offset is taken when an offer of the parent arrives (R23). -/
def State.setParent (s : State) (p : PortNo) : State :=
  match (s.port p).tree with
  | none => s
  | some t =>
    let first := s.sun.st = .freerun && !s.holdsPartition
    let s := s.modElect fun e => { e with parent := some p, hops := t.hops + 1, withdrawn := false, stepOwed := e.stepOwed || first, merge := e.merge && !first }
    let s := s.modOrg fun o => { o with sel := 1, srcType := 1, stage := if o.accel then o.stage else 4, belowSince := none, switching := false, target := 0, measure := none }
    s.sendOffers

/-- A node without a parent takes the best port there is (R134). -/
def State.seekParent (s : State) : State :=
  if s.sun.isRoot || s.elect.parent.isSome then s
  else match s.bestPort s.parentPorts with
    | some p => s.setParent p
    | none => s

/-- R135, R118: the parent is lost: HOLDOVER, then the first alternate, or a withdrawal. -/
def State.loseParent (s : State) : State :=
  let alt := s.bestPort s.alternates
  let s := s.enterHoldover.modOrg fun o => { o with sel := 0, srcType := 0, accel := false }
  let s := s.modElect fun e => { e with parent := none }
  match alt with
  | some p => s.setParent p
  | none =>
    -- R135: until a port offers again
    let s := s.modPorts fun l => l.map fun q => { q with tree := none, offeringSince := none }
    (s.withdraw.modElect fun e => { e with best := none, withdrawnAt := s.tick }).sendClaim

/-- R107, R134: a node keeps its parent for as long as the port qualifies and offers. -/
def State.keepParent (s : State) : State :=
  match s.elect.parent with
  | some p => if s.sun.isRoot || (s.timeSource p && (s.port p).tree.elim false fun t => t.offer && t.hops.toNat ≤ 7) then s else s.loseParent
  | none => s

-- Discovery.

/-- The node's first-hop ANNOUNCE (R136). -/
def State.announceMsg (s : State) : AnnounceMsg :=
  { hwid := s.gate.hwid, node := s.elect.node, ports := BitVec.ofNat 8 s.profile.ports,
    prof := (if s.isLeaf then 1 else 2), root := s.elect.root, cport := 0xFF }

/-- On every UP port (R136). -/
def State.announceAll (s : State) : State := s.sendExcept none 7 (.announce s.announceMsg)

/-- Is a message the second half of a report pair (R137)? -/
def isPairAnnounce : Msg → Bool
  | .announce a => a.cport != 0xFF
  | _ => false

/-- Insert a report pair ahead of every other class-7 message of a port (R137). A second half whose first half has
started is of class 4 (`State.startOne`), so that it stays ahead. -/
def insertPair (pair : List Waiting) (l : List Waiting) : List Waiting :=
  l.takeWhile (fun w => w.cls < 7) ++ pair ++ l.dropWhile (fun w => w.cls < 7)

/-- R137: send the two flits of a pair as consecutive messages. -/
def State.sendPair (s : State) (p : PortNo) (d : DelayMsg) (a : AnnounceMsg) : State :=
  if (s.port p).st == .up && !s.mute then
    s.modPort p fun q => { q with waiting := insertPair [{ cls := 7, ready := s.tick, msg := .delay d }, { cls := 7, ready := s.tick, msg := .announce a }] q.waiting }
  else s

/-- MIRROR to the standby (R128). -/
def State.mirror (s : State) (m : MirrorMsg) : State :=
  match s.elect.standbyPort with
  | some p => if s.sun.isRoot then s.send p 7 (.mirror m) else s
  | none => s

/-- The latest DELAY that the root holds of a node's port (R142). -/
def State.delayOf (s : State) (n : NodeId) (port : Byte) : Option Nat :=
  (s.fab.delays.find? fun x => x.1 == (n, port)).map fun x => x.2.toNat

/-- R142: delay of a tree link, 2^-16 ns: the larger of the two ends' reports, or the one that the root holds; without
any, what a tree entry brought. -/
def State.linkOf (s : State) (l : Link) : Nat :=
  match s.delayOf l.parent l.port, s.delayOf l.child l.cport with
  | some a, some b => max a b
  | some a, none => a
  | none, some b => b
  | none, none => (s.fab.nodes.find? fun r => r.node == l.child).elim 0 fun r => r.dly.toNat

/-- The link of a row to its parent. -/
def NodeRow.link (r : NodeRow) : Link := { parent := r.parent, port := r.port, child := r.node, cport := r.cport }

/-- A tree entry in the layout of R139. The rule gives no rounding of the link delay to units of 2^-4 ns and of TR_LTR to
ns: both are rounded up (DESIGN CHOICE, log entry 53). -/
def State.rowEntry (s : State) (r : NodeRow) : BitVec 160 :=
  let dl : BitVec 12 := satNat 12 ((s.linkOf r.link + 4095) / 4096)
  let lt : BitVec 12 := if r.hub then 0 else satNat 12 ((r.ltr.toNat + 65535) / 65536)
  let flags : BitVec 8 := 1 ||| (if r.hub then 2 else 0) ||| (if r.live then 4 else 0)
  lt ++ dl ++ r.hops ++ r.port ++ (0 : BitVec 4) ++ r.parent ++ r.hwid ++ flags ++ (0 : BitVec 4) ++ r.node

/-- MIRROR of a tree entry (R139). No rule takes a row out of the table (R138), so every entry is sent with VALID 1. -/
def State.rowMirror (s : State) (r : NodeRow) : MirrorMsg :=
  { ptag := 0, op := 0x02, shadow := false, nodeHi := r.node.extractLsb' 16 4, index := r.node.extractLsb' 0 16, entry := s.rowEntry r }

/-- The row of a hardware ID in the root's node table. -/
def State.nodeRow (s : State) (h : BitVec 64) : Option NodeRow := s.fab.nodes.find? fun r => r.hwid == h

/-- The row of a node ID. -/
def State.nodeById (s : State) (n : NodeId) : Option NodeRow := s.fab.nodes.find? fun r => r.node == n

/-- Apply `f` to the row of a hardware ID and mirror it. -/
def State.modNode (s : State) (h : BitVec 64) (f : NodeRow → NodeRow) : State :=
  let s := s.modFab fun b => { b with nodes := modFirst (fun r => r.hwid == h) f b.nodes }
  match s.nodeRow h with
  | some r => s.mirror (s.rowMirror r)
  | none => s

/-- Output ports from the root to a node (R138), at most 8 hops. -/
def State.routeTo (s : State) (n : NodeId) : Nat → List Byte
  | 0 => []
  | k + 1 =>
    if n = s.elect.node then []
    else match s.nodeById n with
      | none => []
      | some r => s.routeTo r.parent k ++ [r.port]

/-- ROUTE as eight bytes (03, ASSIGN). -/
def routeBits (l : List Byte) : BitVec 64 := BitVec.ofNat 64 (ofBytes ((l ++ List.replicate 8 (0xFF : Byte)).take 8))

/-- ROUTE as a list. -/
def routeList (r : BitVec 64) : List Byte := ((bytesOf 8 r.toNat).takeWhile (· != 0xFF))

/-- R140: ASSIGN on port ROUTE[k]. The node keeps which port leads to the node that the ASSIGN is for (R146; log entry 24). -/
def State.forwardAssign (s : State) (k : Nat) (m : AssignMsg) : State :=
  match (routeList m.route)[k]? with
  | some b =>
    if b.toNat < s.ports.length then (s.modFab fun f => { f with ways := assocSet m.node (b.setWidth 6) f.ways }).send (b.setWidth 6) 7 (.assign m) else s
  | none => s

/-- The root sends ASSIGN to a node of its table (R138). -/
def State.sendAssign (s : State) (r : NodeRow) : State :=
  s.forwardAssign 0 { hwid := r.hwid, node := r.node, root := s.elect.root, route := routeBits (s.routeTo r.parent 8 ++ [r.port]) }

/-- Is `n` below node `a` in the table? -/
def State.below (s : State) (a n : NodeId) : Nat → Bool
  | 0 => false
  | k + 1 => match s.nodeById n with
    | none => false
    | some r => r.parent == a || s.below a r.parent k

/-- R138: the descendants of a moved node get their new paths, nearest first. -/
def State.reassignBelow (s : State) (r : NodeRow) : State :=
  let desc := sortBy (fun a b => decide (a.hops.toNat ≤ b.hops.toNat)) (s.fab.nodes.filter fun x => s.below r.node x.node 8)
  desc.foldl (fun s x =>
    let h := ((s.nodeById x.parent).elim 0 fun q => q.hops) + 1
    (s.modNode x.hwid fun y => { y with hops := h }).sendAssign { x with hops := h }) s

/-- The lowest free node ID from 1 (R138). -/
def State.freeNode (s : State) : NodeId :=
  let used := s.elect.node :: s.fab.nodes.map (·.node)
  ((List.range (used.length + 1)).map fun k => BitVec.ofNat 20 (k + 1)).find? (fun n => !used.contains n) |>.getD noNode

/-- Hop count of a reporter. -/
def State.hopsOf (s : State) (n : NodeId) : Byte := if n = s.elect.node then 0 else (s.nodeById n).elim 0 (·.hops)

/-- R138, R141: the root takes a report pair. A hardware ID new to the table takes the lowest free node ID; at a root that
rebuilds a lost table it keeps the ID that the report carries. -/
def State.takeReport (s : State) (d : DelayMsg) (a : AnnounceMsg) : State :=
  let hops := s.hopsOf d.node + 1
  let place (n : NodeId) (r : NodeRow) : NodeRow :=
    { r with node := n, parent := d.node, port := d.port, cport := a.cport, hops := hops, hub := a.prof = 2, live := true, seenAt := s.tick }
  let s := s.modFab fun b => { b with delays := assocSet (d.node, d.port) d.delay b.delays }
  match s.nodeRow a.hwid with
  | none =>
    let n := if s.fab.rebuild && a.node != noNode && (s.nodeById a.node).isNone && a.node != s.elect.node then a.node else s.freeNode
    let r := place n { hwid := a.hwid, node := n }
    let s := s.modFab fun b => { b with nodes := b.nodes ++ [r] }
    ((s.mirror (s.rowMirror r)).sendAssign r).reassignBelow r
  | some r =>
    let same := r.parent == d.node && r.port == d.port
    if !same && r.live && a.node != r.node then
      let k := ((r.parent, r.port), (d.node, d.port))
      let known := r.dups.find? fun x => (x.1, x.2.1) == k
      let fresh := known.elim true fun x => tickLe (x.2.2 + BitVec.ofNat 64 (20 * nsPerS)) s.tick
      let note (x : NodeRow) : NodeRow := { x with dups := (k.1, k.2, s.tick) :: x.dups.filter fun y => (y.1, y.2.1) != k }
      let s := s.modFab fun b => { b with nodes := modFirst (fun x => x.hwid == a.hwid) note b.nodes }
      if fresh then
        s.raiseNow (uc 0x04 0x01) 0 none (detail [(24, 3, r.parent.toNat), (27, 1, r.port.toNat), (28, 3, d.node.toNat), (31, 1, d.port.toNat)])
      else s
    else
      let s := s.modNode a.hwid (place r.node)
      let r' := place r.node r
      let s := if a.node != r.node || !same || hops != r.hops then s.sendAssign r' else s
      if !same || hops != r.hops then s.reassignBelow r' else s

-- Link delays (R142).

/-- Nodes from the root to `n` along the time tree (R145). -/
def State.chain (s : State) (n : NodeId) : Nat → List NodeId
  | 0 => [n]
  | k + 1 => if n = s.elect.node then [n] else match s.nodeById n with
    | some r => s.chain r.parent k ++ [n]
    | none => [n]

/-- The links from the apex to a member along the time tree as it stands (R145). -/
def State.linksTo (s : State) (apex m : NodeId) : List Link :=
  ((s.chain m 9).dropWhile (· != apex)).tail.filterMap fun x => (s.nodeById x).map NodeRow.link

/-- D_path of a member over given links, 2^-16 ns (R143). -/
def State.dPath (s : State) (m : NodeId) (ls : List Link) : Nat :=
  let ltr := if m = s.elect.node then s.tr.ltr.toNat * 65536 else (s.nodeById m).elim 0 fun r => r.ltr.toNat
  (ls.map s.linkOf).sum + 30 * 65536 * (ls.length - 1) + ltr

/-- R144: what has just been reported makes some D_path, over the paths fixed at OPEN, exceed D_max minus half the margin:
the CE names the partition and the member, for each of them. -/
def State.checkMargins (s s' : State) : State :=
  (s'.fab.parts.filter fun x => x.st == .open_ || x.st == .closing).foldl (fun acc x =>
    let lim : Int := ((x.act.dMax.toNat : Int) * 2 - x.margin) * 32768
    x.links.foldl (fun acc (m, ls) =>
      if (s'.dPath m ls : Int) > lim && (s.dPath m ls : Int) ≤ lim then
        acc.raiseNow (ce 0x04 0x02) 0 (some x.ptag) (detail [(24, 3, m.toNat), (28, 4, s'.dPath m ls / 65536)])
      else acc) acc) s'

/-- The root takes a DELAY: the port's report, the Leaf's TR_LTR, and liveness (R141, R142). Only a report makes a location
live; a DELAY of either end keeps a live one, and a lost link ends it. -/
def State.takeDelay (s : State) (m : DelayMsg) : State :=
  if m.port = 0xFE then
    match s.nodeById m.node with
    | some r => s.modNode r.hwid fun r => { r with ltr := m.delay }
    | none => s
  else
    let lost := m.delay = 0xFFFFFFFF
    let k := (m.node, m.port)
    let s := s.modFab fun b => { b with delays := if lost then b.delays.filter fun x => x.1 != k else assocSet k m.delay b.delays }
    let upd (r : NodeRow) : NodeRow := if lost then { r with live := false } else if r.live then { r with seenAt := s.tick } else r
    (s.fab.nodes.filter fun r => (r.parent, r.port) == k || (r.node, r.cport) == k).foldl (fun s r => s.modNode r.hwid upd) s

/-- A DELAY goes toward the root, or the root takes it (R142, R144). -/
def State.sendDelay (s : State) (m : DelayMsg) : State :=
  if s.sun.isRoot then s.checkMargins (s.takeDelay m)
  else match s.elect.parent with
    | some p => s.send p 7 (.delay m)
    | none => s

/-- The node's report for port `p`, if it holds a node ID (R142). -/
def State.reportDelay (s : State) (p : PortNo) : State :=
  if s.elect.node = noNode then s
  else
    let d := (s.port p).delay
    (s.sendDelay { node := s.elect.node, port := p.setWidth 8, delay := d }).modPort p fun q => { q with delaySent := some d }

/-- A Leaf's TR_LTR (R142). -/
def State.reportLtr (s : State) : State :=
  if s.isLeaf && s.elect.node != noNode then
    s.sendDelay { node := s.elect.node, port := 0xFE, delay := BitVec.ofNat 32 (s.tr.ltr.toNat * 65536) }
  else s

/-- Every UP port, and TR_LTR. -/
def State.reportAll (s : State) : State := (s.upPorts.foldl State.reportDelay s).reportLtr

/-- R137: the report pair of the child on port `q`. -/
def State.reportChild (s : State) (q : PortNo) : State :=
  let r := s.port q
  if s.elect.node = noNode || !r.partnerTp || r.st != .up then s
  else
    let d : DelayMsg := { node := s.elect.node, port := q.setWidth 8, delay := r.delay }
    let a : AnnounceMsg :=
      { hwid := r.partnerHwid, node := r.partnerNode, ports := (r.partnerAnn.map (·.ports)).getD 0,
        prof := if r.partnerHub then 2 else 1, root := s.elect.root, cport := r.partnerPort.setWidth 8 }
    if s.sun.isRoot then s.takeReport d a
    else match s.elect.parent with
      | some p => s.sendPair p d a
      | none => s

/-- Every child. -/
def State.reportChildren (s : State) : State := s.upPorts.foldl State.reportChild s

/-- R141: after a change of root all children are reported again, once the node is root or has a parent to report to. -/
def State.reportAnew (s : State) : State :=
  if s.elect.rereport && (s.sun.isRoot || s.elect.parent.isSome) then (s.modElect fun e => { e with rereport := false }).reportChildren else s

-- The root role.

/-- The standby named (R127): the best-ranked candidate among direct neighbours at revision 5. A neighbour whose STATE is
UNTRUSTED is no candidate (R123). -/
def State.standbyChoice (s : State) : Option PortNo :=
  let ok := s.upPorts.filter fun p => (s.port p).rev == 5 && (s.port p).partnerSt != 3 && ((s.port p).claim.elim false fun c => c.prio != 0xFF)
  ok.foldl (fun (b : Option PortNo) p => match b with
    | none => some p
    | some q => match (s.port p).claim, (s.port q).claim with
      | some x, some y => if claimBetter x y then some p else some q
      | _, _ => some q) none

/-- A partition entry's two words (R153). -/
def Part.word (p : Part) (shadow : Bool) (w : Bool) : BitVec 160 :=
  let c := if shadow then p.shd else p.act
  let st : BitVec 8 := match p.st with
    | .free => 0 | .opening => 1 | .open_ => 2 | .closing => 3 | .quiesce => 4
  let flags : BitVec 8 := (if c.apex then 1 else 0) ||| (if p.swap.isSome || p.armedBit then 2 else 0) ||| (if p.rev4 then 4 else 0)
  let up : BitVec 8 := c.upPort.elim 0xFF fun q => q.setWidth 8
  if w then (0 : BitVec 56) ++ (0 : BitVec 4) ++ p.opener ++ p.tEvent
  else (0 : BitVec 8) ++ p.bidsM1 ++ c.dMax ++ p.rankCntM1 ++ c.rankBase ++ c.expArr ++ up ++ (0 : BitVec 4) ++ c.apexNode ++ flags ++ st ++ p.ptag

/-- MIRROR of a partition entry word (R153). -/
def Part.mirrorMsg (p : Part) (shadow w : Bool) : MirrorMsg :=
  { ptag := p.ptag, op := 0x01, shadow := shadow, nodeHi := 0,
    index := BitVec.ofNat 16 (2 * p.part.toNat + (if w then 1 else 0)), entry := p.word shadow w }

/-- All MIRROR messages of a partition entry. -/
def Part.mirrors (p : Part) : List MirrorMsg :=
  [p.mirrorMsg false false, p.mirrorMsg false true, p.mirrorMsg true false, p.mirrorMsg true true]

/-- A rank-map entry in the layout of R147; PORT is sent as 0xFF. -/
def RankEntry.bits (r : RankEntry) : BitVec 160 :=
  let flags : BitVec 8 := (if r.valid then 1 else 0) ||| (if r.resolved then 2 else 0) ||| (if r.below then 4 else 0)
  (0 : BitVec 16) ++ (0xFF : BitVec 8) ++ r.apexHops ++ r.path ++ r.rank ++ r.ptag ++ flags ++ (0 : BitVec 4) ++ r.node

/-- MIRROR of a rank-map entry. -/
def RankEntry.mirrorMsg (r : RankEntry) (shadow : Bool) : MirrorMsg :=
  { ptag := r.ptag, op := 0x03, shadow := shadow, nodeHi := 0, index := r.rank, entry := r.bits }

/-- The root mirrors a partition's entry (R128). -/
def State.mirrorPart (s : State) (t : PTag) : State :=
  match s.part t with
  | some p => p.mirrors.foldl State.mirror s
  | none => s

/-- R128: the full copy a new standby receives. The root's own tree entry goes last; by it the standby knows that its copy is
complete (DESIGN CHOICE, log entry 24). What the root shows of its entries is what they are now. -/
def State.mirrorAll (s : State) : State :=
  let own (r : NodeRow) : Bool := r.node == s.elect.node
  let s := (s.fab.nodes.filter fun r => !own r).foldl (fun s r => s.mirror (s.rowMirror r)) s
  let s := s.fab.parts.foldl (fun s p =>
    let s := p.mirrors.foldl State.mirror s
    let s := p.ranksA.foldl (fun s r => s.mirror (r.mirrorMsg false)) s
    p.ranksS.foldl (fun s r => s.mirror (r.mirrorMsg true)) s) s
  let s := (s.fab.nodes.filter own).foldl (fun s r => s.mirror (s.rowMirror r)) s
  s.modFab fun b => { b with shown := (b.parts.filter fun p => p.st != .free).flatMap fun p =>
    [((false, p.part), p.word false false), ((true, p.part), p.word true false)] }

/-- R127: name a standby, or raise the CE. -/
def State.chooseStandby (s : State) : State :=
  match s.standbyChoice with
  | some p =>
    let s := s.modElect fun e => { e with standbyPort := some p, mirrorDone := false }
    (s.send p 7 (.elect { s.ownClaim with rootClaim := false, standbyClaim := true })).mirrorAll
  | none =>
    ((s.modElect fun e => { e with standbyPort := none, mirrorDone := false }).raiseNow (ce 0x02 0x03)).modFab
      fun b => { b with noStandbyAt := s.tick, shown := [] }

/-- R131: the partition state of the fabric is gone. -/
def State.stateLost (s : State) : State :=
  if s.standing.isEmpty then s else s.raiseNow (uc 0x04 0x05) 0 (soleTag s.standing)

/-- The node's root has changed: UTC_VALID falls, it announces itself, and owes the reports of its children (R23, R136, R141).
A node that had to withdraw and found no root within 200 µs, the time in which an election settles, has outlived root and
standby (R131): its open partitions are lost. A standby takes over within 2 µs (R129; DEDUCED, log entry 21). -/
def State.setRoot (s : State) (r : NodeId) : State :=
  if s.elect.root = r then s
  else
    let s := if s.elect.root != noNode && s.elect.withdrawn && tickLe (s.elect.withdrawnAt + 200000) s.tick then s.stateLost else s
    let s := s.modElect fun e => { e with root := r, rereport := true }
    (s.modSun fun u => { u with utcValid := u.isRoot }).announceAll

/-- The standby's copy of an entry becomes the root's own (R130). -/
def State.adopt (s : State) (p : Part) : Part :=
  if p.st = .free then { p with
    st := p.mst, ended := p.mst == .quiesce, links := p.ranksA.map fun r => (r.node, s.linksTo p.act.apexNode r.node) }
  else p

/-- The root's own row of the node table (R139): no parent, no location. A former root's row stays, as a node that has no
location. -/
def State.ownRow (s : State) : NodeRow := { hwid := s.gate.hwid, node := s.elect.node, hub := !s.isLeaf, port := 0xFF }

/-- The node takes the root role with its own Sundial as hall time, zero step (R21, R125, R130). R138 gives node ID 0x0_0000 to
the hall's first root; a later root that holds no node ID takes it too (DESIGN CHOICE, log entry 53). -/
def State.takeRoot (s : State) : State :=
  let first := s.elect.node = noNode
  let s := if s.sun.isStandby then s.modFab fun b => { b with parts := b.parts.map s.adopt } else s
  let s := s.modElect fun e => { e with
    node := if first then 0 else e.node, hops := 0, withdrawn := false, parent := none, route := [],
    rootLostAt := none, rootPort := none, stepOwed := false, merge := false, mirrorDone := false, recorded := none }
  let s := s.modFab fun b => { b with rebuild := b.nodes.isEmpty, nodes := (b.nodes.filter fun r => r.node != s.elect.node && r.hwid != s.gate.hwid) ++ [s.ownRow] }
  let s := s.modSun fun u => { u with isRoot := true, isStandby := false, rootSt := (match u.st with
    | .freerun => 0 | .locked => 1 | .holdover => 2 | .untrusted => 3) }
  let s := s.setRoot s.elect.node
  let s := s.modSun fun u => { u with utcValid := true }
  let s := if s.org.sel = 1 then s.loseSelected else s
  (s.runSelection.sendClaim.sendOffers).chooseStandby.reportAnew

/-- The node is no longer root (R24, R126). It has no parent yet; if the time of its new parent differs, that was a merge. -/
def State.resign (s : State) : State :=
  let s := s.modSun fun u => { u with isRoot := false, utcValid := false }
  let s := s.modElect fun e => { e with
    standbyPort := none, mirrorDone := false, hops := 0xFF, recorded := none, parent := none, stepOwed := true, merge := true, mergeRaised := false }
  if s.org.sel != 1 then s.modOrg fun o => { o with sel := 0, srcType := 0, switching := false, target := 0, measure := none } else s

/-- The node gives the root role up (R126): ELECT with CLAIM cleared. -/
def State.yieldRoot (s : State) : State := s.resign.sendExcept none 7 (.elect { s.ownClaim with rootClaim := false })

/-- R126: with no partition open the root hands over to the best claim it has recorded, if that is better than its own. -/
def State.handOver (s : State) : State :=
  if s.sun.isRoot && !s.fabricOpen && s.elect.recorded.elim false fun c => claimBetter c s.ownClaim then s.yieldRoot else s

-- Meanings.

/-- ELECT_SETTLE (R125, R397): 200 µs since the latest improvement of the node's own claim. -/
def execElectSettle (s : State) : Result :=
  whenAlive s fun s =>
    if s.candidate && !s.sun.isRoot && !s.elect.parent.isSome && (s.elect.root == noNode || s.elect.withdrawn || s.elect.handed) && tickLe (s.elect.improvedAt + 200000) s.tick &&
        s.elect.best.elim false (fun b => b.hwid == s.gate.hwid) then
      -- R131, R161: a root elected after both root and standby were lost
      if s.elect.root != noNode && !s.elect.handed then
        (s.stateLost.modFab fun b => { b with reopenAt := some (s.tick + 1000000), gens := [], genBase := 63, defer := [], staged := [] }).takeRoot
      else s.takeRoot
    else s

/-- R128 to R131: the standby takes the role if its copy is complete; without one it is a node like any other. -/
def State.takeOver (s : State) : State :=
  if s.elect.mirrorDone then s.takeRoot
  else
    let s := (s.modSun fun u => { u with isStandby := false }).modElect fun e => { e with rootLostAt := none, rootPort := none }
    if s.elect.parent.isNone && !s.elect.withdrawn then s.loseParent else s

/-- STANDBY_TAKEOVER_TIMER (R129 to R131): 2 µs after the loss of the root's link. -/
def execStandbyTakeoverTimer (s : State) : Result :=
  whenAlive s fun s =>
    match s.elect.rootLostAt with
    | some t => if s.sun.isStandby && tickLe (t + 2000) s.tick then s.takeOver else s
    | none => s

/-- NO_STANDBY_ROOT_REPEAT (R127): every 60 s while the root has no standby. -/
def execNoStandbyRootRepeat (s : State) : Result :=
  whenAlive s fun s =>
    if s.sun.isRoot && s.elect.standbyPort.isNone && tickLe (s.fab.noStandbyAt + BitVec.ofNat 64 (60 * nsPerS)) s.tick then s.chooseStandby else s

/-- CLAIM_HOLD_END (R397): 2 ms after the first port's UP, or 20 ms after reset with no port UP. A node
that has received a TREE naming a root adopts that root; one with no port UP elects itself. -/
def execClaimHoldEnd (s : State) : Result :=
  whenAlive s fun s =>
    let past := match s.elect.firstUp with
      | some t => tickLe (t + 2000000) s.tick
      | none => tickLe 20000000 s.tick
    if s.elect.hold && past then
      let s := (s.modElect fun e => { e with hold := false }).sendClaim
      if s.upPorts.isEmpty && s.elect.root == noNode && s.candidate then s.takeRoot else s
    else s

/-- REELECT (R126): hand over to the best recorded claim; ignored off the root. -/
def State.reelect (s : State) : State :=
  match s.elect.recorded with
  | some _ => if s.sun.isRoot then s.yieldRoot else s
  | none => s

/-- The better of the claims that a root has received from others (R126). A node's later claim takes the place of its earlier
one. -/
def bestOther (m : ElectMsg) : Option ElectMsg → ElectMsg
  | some b => if b.hwid == m.hwid || claimBetter m b then m else b
  | none => m

/-- The old root hands over (R126): its claim no longer counts. The node whose claim is then the best takes the role; where
no other claim is known, the candidates claim anew. -/
def State.takeHandOver (s : State) (p : PortNo) (m : ElectMsg) : State :=
  if s.elect.best.elim false (fun b => b.hwid == m.hwid) || !s.elect.handed then
    let s := s.modElect fun e => { e with handed := true, best := e.best.filter fun b => b.hwid != m.hwid }
    let s := s.sendExcept (some p) 7 (.elect m)
    if !s.candidate then s
    else match s.elect.best with
      | some b => if b.hwid == s.gate.hwid then s.takeRoot else s
      | none => s.sendClaim
  else s

/-- ELECT_RX, the election itself (R125 to R127). -/
def State.electRx (s : State) (p : PortNo) (m : ElectMsg) : State :=
  let s := if m.hwid = (s.port p).partnerHwid then s.modPort p fun q => { q with claim := some m } else s
  let s := if s.sun.isRoot && s.elect.standbyPort.isNone && s.standbyChoice.isSome then s.chooseStandby else s
  if m.standbyClaim then
    (s.modSun fun u => { u with isStandby := true }).modElect fun e => { e with rootPort := some p, rootLostAt := none, mirrorDone := false }
  else if !m.rootClaim then s.takeHandOver p m
  else
    let s := if s.sun.isRoot && m.hwid != s.gate.hwid then s.modElect fun e => { e with recorded := some (bestOther m e.recorded) } else s
    let improves := s.elect.best.elim true fun b => claimBetter m b
    (if improves then (s.modElect fun e => { e with best := some m }).sendExcept (some p) 7 (.elect m) else s).handOver

/-- R398: does the node's island lose to the one whose root a TREE names? A TREE does not carry whether that root holds open
partitions, nor does a node know it of every partition of its own island: the claims decide, and a free choice where
partitions may. Log entry 22. -/
def State.losesTo (s : State) (r : NodeId) : Bool :=
  let better := s.elect.best.elim false fun b => if s.sun.isRoot then claimBetter b s.ownClaim else b.node == r
  let free := (Config.anyWord s.freeIx).getLsbD 0
  if s.fabricOpen then better && free else better || free

/-- TREE_RX, the tree itself (R23, R24, R129, R134, R135, R398). A change of root at a node that keeps its time is no merge:
whether it was one shows in the first offset sample after it (`State.takeSample`). -/
def State.treeRx (s : State) (p : PortNo) (m : TreeMsg) : State :=
  let offering := m.offer && m.hops.toNat ≤ 7
  let s := s.modPort p fun q => { q with tree := some m, offeringSince := if offering then some (q.offeringSince.getD s.tick) else none }
  -- R129: the old root is alive
  let s := if s.elect.rootLostAt.isSome && m.root == s.elect.root && m.hops.toNat ≤ 15 then
      ((s.modSun fun u => { u with isStandby := false }).modElect fun e => { e with rootLostAt := none, rootPort := none }).seekParent
    else s
  -- R397: a node without a root adopts the one that a TREE names
  let s := if s.elect.root == noNode && m.root != noNode then s.setRoot m.root else s
  let other := m.root != s.elect.root && m.root != noNode
  let mayMerge (s : State) : State := s.modElect fun e => { e with stepOwed := true, merge := true, mergeRaised := false }
  if s.sun.isRoot then
    -- R24, R398: two islands meet
    if offering && other then (if s.losesTo m.root then s.drew.resign.setRoot m.root else s.drew) else s
  else if m.hops = 0xFF then
    if s.elect.parent = some p then (s.modSun fun u => { u with utcValid := false }).loseParent
    else if s.elect.parent.isSome && s.canOffer then s.send p 7 (.tree s.offerMsg)
    else s
  else if s.elect.parent = some p then
    let was := s.offerMsg
    let s := if other then ((mayMerge s).modElect fun e => { e with handed := false }).setRoot m.root else s
    if m.hops.toNat > 7 then s.loseParent
    else
      let s := (s.modElect fun e => { e with hops := m.hops + 1 }).takeUtc m
      (if s.offerMsg != was then s.sendOffers else s).reportAnew
  else
    let s :=
      if s.elect.parent.isNone then (if other && offering then s.setRoot m.root else s).seekParent
      else if other && offering then
        -- R24: the border node of a losing island, or of a tree that re-forms, turns to the other root
        (if s.losesTo m.root then ((mayMerge s.drew).setRoot m.root).setParent p else s.drew)
      else s
    if s.elect.parent = some p then
      let was := s.offerMsg
      let s := s.takeUtc m
      (if s.offerMsg != was then s.sendOffers else s).reportAnew
    else s

/-- TREE_OFFER_REPEAT (R133, R135): every 1 ms, the offer or the withdrawal. -/
def execTreeOfferRepeat (s : State) : Result :=
  whenAlive s fun s =>
    if tickLe (s.elect.offerAt + 1000000) s.tick then
      if s.elect.withdrawn then s.withdraw else s.sendOffers
    else s

/-- PARENT_WAIT_END (R107, R134): a port with lower HOPS has offered without a break for 10 s, or a
returned port has stayed qualified for 10 s. -/
def execParentWaitEnd (p : PortNo) (s : State) : Result :=
  onPort p s fun s =>
    match s.offers p, s.elect.parent with
    | some t, some c =>
      let lower := t.hops.toNat < ((s.port c).tree.map (·.hops.toNat)).getD 255
      if p != c && lower && s.tenSeconds (s.port p).offeringSince && s.tenSeconds (s.port p).qualSince then
        (s.modPort p fun q => { q with returned := false }).setParent p
      else s
    | some _, none => s.seekParent
    | none, _ => s

/-- ANNOUNCE_RX, the message itself (R136 to R138): a first-hop ANNOUNCE is kept; one with CPORT is the
second half of a report pair. -/
def State.announceRx (s : State) (p : PortNo) (m : AnnounceMsg) : State :=
  if m.cport = 0xFF then
    let s := s.modPort p fun q => { q with partnerAnn := some m, partnerNode := m.node, half := none }
    if s.elect.root == noNode && m.root != noNode then s.setRoot m.root else s
  else match (s.port p).half with
    | none => s
    | some d =>
      let s := s.modPort p fun q => { q with half := none }
      if s.sun.isRoot then (if s.coresHalted then s else s.takeReport d m)
      else match s.elect.parent with
        | none => s
        | some u =>
          -- the DELAY that went ahead is taken back if it still waits, so that the pair leaves consecutively
          let s := s.modPort u fun q => { q with waiting := q.waiting.filter fun w => w.msg != .delay d }
          s.sendPair u d m

/-- ASSIGN_RX, the message itself (R140, R142). -/
def State.assignRx (s : State) (m : AssignMsg) : State :=
  if m.hwid = s.gate.hwid then
    let fresh := s.elect.node != m.node
    let s := s.modElect fun e => { e with node := m.node, route := routeList m.route }
    let s := s.setRoot m.root
    let s := s.announceAll.sendOffers
    if fresh then s.reportAll.reportChildren else s
  else s.forwardAssign s.elect.hops.toNat m

/-- REPORT_REPEAT (R137): every 1 ms while the child has no node ID. -/
def execReportRepeat (p : PortNo) (s : State) : Result :=
  onPort p s fun s => if (s.port p).partnerNode = noNode then s.reportChild p else s

/-- DELAY_PERIODIC (R142). -/
def execDelayPeriodic (s : State) : Result := whenAlive s State.reportAll

/-- LOCATION_EXPIRE (R141): 20 s with no report and no DELAY. -/
def execLocationExpire (h : BitVec 64) (s : State) : Result :=
  whenAlive s fun s =>
    match s.nodeRow h with
    | some r => if s.sun.isRoot && r.live && tickLe (r.seenAt + BitVec.ofNat 64 (20 * nsPerS)) s.tick
                then s.modNode h fun r => { r with live := false } else s
    | none => s

end Sys2Proof.Machine
end

