-- ==== Sys2Proof/Machine/Links.lean ====
section
/-!
DEFINITION. The Ronoux link of one port (03): its states, revision, two-way time transfer, the
sequence numbers, replay, loss, NODE_DOWN and LAST_GASP.
-/

namespace Sys2Proof.Machine

/-- The lane, the state machine and everything that TRAIN and BEATs supply return to reset; registers
that host firmware writes, counters and sticky bits stay (R44, R99, R102). -/
def Port.clearLink (q : Port) : Port :=
  { q with
    partnerTp := false, calDone := false, partnerSt := 0, partnerRootSt := 0, rev := 0, negDone := false, partnerNeg := false,
    partnerCal := false, claim := none, beatIdx := 0, beatAt := none, txStamps := [], rxStamps := [], lastBeat := none, pairIn := none,
    lastPair := none, theta := 0, exchanges := 0, xcheckRun := 0, waiting := [], left := 0, replay := [], txSeq := 0, sameStart := 0, startSeq := 0, rxSeq := 0, unacked := 0,
    nakAt := none, discarding := false, exiting := 0, tree := none, offeringSince := none, qualSince := none,
    delaySent := none, half := none }

/-- What TRAIN supplied is gone too (R102: a link reset, and the fields of a lane domain that is off). -/
def Port.clearPartner (q : Port) : Port :=
  { q.clearLink with
    partnerPort := 0, partnerAsym := 0, partnerMax := 0, partnerMin := 0, delay := 0, delays := [],
    partnerHub := false, partnerHwid := 0, partnerNode := noNode, partnerAnn := none }

/-- The port enters a state (R82). -/
def State.enterSt (s : State) (p : PortNo) (st : LinkSt) : State :=
  s.modPort p fun q => { q with st := st, since := s.tick }

/-- The partition whose barrier tree uses port `p`, where there is exactly one. -/
def State.partOnPort (s : State) (p : PortNo) : Option PTag :=
  soleTag ((s.fab.parts.filter fun x => x.st != .free && !x.ended && x.treePorts.contains p).map (·.ptag))

/-- What the node's other functions do when port `p` leaves UP: time re-parents, the root chooses a
standby, the standby takes over or starts its 2 µs (R118, R127, R129); after a loss by R99 the DELAY that says so goes out
once the node has its new parent (R142). A node in the safe or the power-fail state sends nothing and follows nobody (R100,
R101). -/
def State.portGone (s : State) (p : PortNo) (atOnce lost : Bool) : State :=
  let s := s.odoCount fun o => { o with retrains := satInc o.retrains }
  if s.mute then (if s.elect.parent == some p then s.modElect fun e => { e with parent := none } else s)
  else
    let s := if s.sun.isRoot && s.elect.standbyPort == some p then s.chooseStandby else s
    let s := if s.sun.isStandby && s.elect.rootPort == some p then
        (if atOnce then s.takeOver else s.modElect fun e => { e with rootLostAt := some s.tick }) else s
    let s := if s.elect.parent == some p && !s.sun.isRoot then s.loseParent else s
    if lost && s.elect.node != noNode then s.sendDelay { node := s.elect.node, port := p.setWidth 8, delay := 0xFFFFFFFF } else s

/-- R99: the port declares itself lost. A node in the safe or the power-fail state declares no loss
(R100, R101). A port whose EN is 0, in its orderly exit, goes to DISABLED (R83). `reason` as in DETAIL byte 24 of "port lost" (R321). -/
def State.portLost (s : State) (p : PortNo) (reason : Nat) (dest : LinkSt) (ndReason : Byte := 0) (fault : BitVec 16 := 0) : State :=
  let q := s.port p
  if q.st != .up || s.mute then s
  else
    let part := s.partOnPort p
    let d := detail [(24, 1, reason), (25, 1, ndReason.toNat), (26, 3, q.partnerNode.toNat), (30, 2, fault.toNat)]
    let s := s.modPort p fun q => { q.clearLink with
      st := (if q.exiting = 0 then dest else .disabled), since := s.tick, loss := true, gasp := q.gasp || reason == 2, ndown := q.ndown || reason == 3,
      losses := satInc q.losses, retrain := satInc q.retrain, returned := true, lastNodeDown := s.tick }
    (s.raiseNow (uc 0x03 0x03) (portLoc p) part d).portGone p (reason == 2 || reason == 3) true

/-- The port leaves UP in order, without a loss (R83, R102). -/
def State.portExit (s : State) (p : PortNo) : State :=
  let was := (s.port p).st == .up
  let s := s.modPort p fun q => { q.clearLink with st := .disabled, since := s.tick, retrain := if was then satInc q.retrain else q.retrain, returned := q.returned || was }
  if was then s.portGone p false false else s

-- Sequenced messages (R91 to R97).

/-- Flits in the replay buffer. -/
def Port.bufFlits (q : Port) : Nat := (q.replay.map fun x => msgFlits x.msg).sum

/-- R93: the window of the negotiated revision lets message `m` start. -/
def Port.fits (q : Port) (m : Msg) : Bool :=
  if q.rev = 4 then q.replay.length ≤ 14 && q.bufFlits + msgFlits m ≤ 32
  else q.replay.length ≤ 30 && q.bufFlits + msgFlits m ≤ 64

/-- MIRROR, which the standby acknowledges like any message (R128). -/
def isMirror : Msg → Bool
  | .mirror _ => true
  | _ => false

/-- R128: MIRROR messages of the root that its standby has not acknowledged. -/
def State.mirrorsOut (s : State) : Nat :=
  match s.elect.standbyPort with
  | some p => if s.sun.isRoot then ((s.port p).waiting.filter fun w => isMirror w.msg).length + ((s.port p).replay.filter fun x => isMirror x.msg).length else 0
  | none => 0

/-- Messages by which another node acts on a change of the root's entries (R128). -/
def tellsChange : Msg → Bool
  | .part _ _ | .assign _ | .mirror _ => true
  | _ => false

/-- R128: a message that tells of a change leaves the root after the acknowledgement of every MIRROR sent up to
then; what is for the standby itself does not wait. Log entry 24. -/
def State.holdFresh (s : State) : State :=
  let n := s.mirrorsOut
  s.modPorts fun l => l.zipIdx.map fun (q, i) => { q with
    waiting := q.waiting.map fun w =>
      if w.hold.isSome then w
      else { w with hold := some (if tellsChange w.msg && !(isMirror w.msg && s.elect.standbyPort == some (BitVec.ofNat 6 i)) then n else 0) } }

/-- R97: the message selected at a flit boundary: lowest class, oldest within it, of those that may leave. Class 4 is the
second half of a report pair whose first half has started (R137). -/
def Port.selected (q : Port) (free : Bool) : Option Waiting :=
  let l := q.waiting.filter fun w => free || w.hold.getD 0 == 0
  (l.find? fun w => w.cls ≤ 4).or ((l.find? fun w => w.cls ≤ 5).or ((l.find? fun w => w.cls == 6).or (l.find? fun w => w.cls ≥ 7)))

/-- The messages that wait once `w` has started. A DELAY that is the first half of a report pair takes the second half, which
stands next to it, into class 4 (R137). -/
def restOf (w : Waiting) (l : List Waiting) : List Waiting :=
  let next := (l.dropWhile (· != w)).tail.head?
  let r := l.erase w
  match w.msg, next with
  | .delay _, some a => if isPairAnnounce a.msg then modFirst (· == a) (fun a => { a with cls := 4 }) r else r
  | _, _ => r

/-- R93: start the selected message if it fits, under the next SEQ. R83 only puts NODE_DOWN in the place of BEATs; whether
messages still start during an orderly exit it does not say, and here none does (DESIGN CHOICE, log entry 52). -/
def State.startOne (s : State) (p : PortNo) : State :=
  let q := s.port p
  if q.st != .up || s.mute || q.exiting != 0 then s
  else match q.selected (s.mirrorsOut == 0) with
    | none => s
    | some w =>
      if !q.fits w.msg then s
      else
        let bad := q.crcInject != 0
        (s.modPort p fun q => { q with
          waiting := restOf w q.waiting, replay := q.replay ++ [⟨q.txSeq, w.msg, w.bad⟩], txSeq := q.txSeq + 1, left := msgFlits w.msg - 1
          ackAt := if q.replay.isEmpty then s.tick else q.ackAt, crcInject := q.crcInject - BitVec.ofNat 8 (min q.crcInject.toNat (msgFlits w.msg)) }).emit
          (if w.bad then .stomp p q.txSeq w.msg else .flit p q.txSeq w.msg bad)

/-- Every UP port starts at most one message (R93, R97). -/
def State.startAll (s : State) : State := s.upPorts.foldl State.startOne s.holdFresh

/-- The transmitter drives flits (R74, R82): in every state but DISABLED and LOST, which are electrical idle. -/
def Port.lit (q : Port) : Bool := q.st != .disabled && q.st != .lost

/-- The receiver has flit lock (R75, R82). -/
def Port.locked (q : Port) : Bool :=
  q.st == .negotiate || q.st == .calibrate || q.st == .up || q.st == .downHeld || q.st == .revFail

/-- One tick of a transmitter: a flit lasts 256 units of 1/25 ns (R74). At a flit boundary a flit of the message in progress
goes on, or the selected message starts, or, with nothing to send, an IDLE flit goes (R93, R97). -/
def State.laneTick (s : State) (p : PortNo) : State :=
  let q := s.port p
  if !q.lit then s
  else if q.phase + 25 < 256 then s.modPort p fun q => { q with phase := q.phase + 25 }
  else
    let s := s.modPort p fun q => { q with phase := q.phase + 25 - 256, left := if s.mute then 0 else q.left - 1 }
    if q.left != 0 && !s.mute then s
    else
      let t := s.startOne p
      if (t.port p).txSeq = q.txSeq then s.emit (.idle p) else t

/-- Every lane goes on by one tick. -/
def State.lanesTick (s : State) : State := s.portNos.foldl State.laneTick s.holdFresh

/-- R128: the standby has acknowledged a word of a partition entry. -/
def State.showMirror (s : State) (m : Msg) : State :=
  match m with
  | .mirror m =>
    if m.op = 1 && !m.index.getLsbD 0 then s.modFab fun b => { b with shown := assocSet (m.shadow, m.index.extractLsb' 1 10) m.entry b.shown } else s
  | _ => s

/-- R93, R95: a cumulative acknowledgement up to and including `seq`. When the standby has acknowledged every MIRROR, its copy
is complete (R128). -/
def State.ackUpTo (s : State) (p : PortNo) (seq : BitVec 5) : State :=
  let q := s.port p
  if q.replay.any fun x => x.seq == seq then
    let n := s.mirrorsOut
    let gone := q.replay.length - (q.replay.dropWhile fun x => x.seq != seq).tail.length
    let s := s.modPort p fun q => { q with replay := q.replay.drop gone, ackAt := s.tick, sameStart := 0 }
    if !(s.sun.isRoot && s.elect.standbyPort == some p) then s
    else
      let s := (q.replay.take gone).foldl (fun s x => s.showMirror x.msg) s
      let k := n - s.mirrorsOut
      let s := if k != 0 && s.mirrorsOut = 0 then s.modElect fun e => { e with mirrorDone := true } else s
      if k = 0 then s
      else s.modPorts fun l => l.map fun q => { q with waiting := q.waiting.map fun w => { w with hold := w.hold.map (· - k) } }
  else s

/-- R96: send every message of the buffer again, from the one with SEQ `seq` on. A stomped copy goes again as it went (log
entry 52). -/
def State.replayFrom (s : State) (p : PortNo) (seq : BitVec 5) : State :=
  let q := s.port p
  let again := q.replay.dropWhile fun x => x.seq != seq
  if again.isEmpty then s
  else
    let s := s.modPort p fun q => { q with
      replays := satInc q.replays, replayAt := s.tick, startSeq := seq, left := (again.map fun x => msgFlits x.msg).sum
      sameStart := if q.startSeq = seq then q.sameStart + 1 else 1 }
    again.foldl (fun s x => s.emit (if x.bad then .stomp p x.seq x.msg else .flit p x.seq x.msg false)) s

/-- The last SEQ accepted on a port. -/
def Port.lastSeq (q : Port) : BitVec 5 := q.rxSeq - 1

/-- R94: the message that arrived is accepted and acknowledged. -/
def State.accept (s : State) (p : PortNo) : State :=
  let seq := (s.port p).rxSeq
  (s.modPort p fun q => { q with rxSeq := q.rxSeq + 1, discarding := false, nakAt := none }).emit (.acknak p seq false)

/-- R95: one NAK with the expected SEQ, no second within 1 µs, and everything sequenced is discarded
until the expected message begins. -/
def State.nak (s : State) (p : PortNo) : State :=
  let q := s.port p
  let again := q.nakAt.elim true fun t => tickLe (t + 1000) s.tick
  let s := s.modPort p fun q => { q with discarding := true, nakAt := if again then some s.tick else q.nakAt }
  if again then s.emit (.acknak p q.rxSeq true) else s

/-- R14: the arrival stamp of a flit: the tick, with the measured fraction of the arriving edge. -/
def State.arrival (s : State) : HT80 := s.stamp + (Config.arrivalFrac s.freeIx).setWidth 80 <<< 9

/-- The message has been recorded by Belvedere, accepted and acknowledged (R94, R414). -/
def State.received (s : State) (p : PortNo) (m : Msg) : State :=
  let a := s.arrival
  (((s.tracedMsg a 0 p (s.port p).rxSeq m).drew).modPort p fun q => { q with lastRx := a }).accept p

/-- A sequenced message that is the next expected arrives on port `p`: it is accepted, then handled.
A port that is not in UP, and a node in the safe or power-fail state, take nothing (R94, R100, R101). -/
def onMsg (p : PortNo) (m : Msg) (s : State) (f : State → State) : Result :=
  onPort p s fun s =>
    if (s.port p).st == .up && !s.mute then f (s.received p m) else s

/-- A link-local flit arrives on port `p`; `head` is its bytes 0 to 27, `stamp` when it came. A receiver without flit lock,
and one whose domain is off, sees none (R40, R75). -/
def onFlit (p : PortNo) (stamp : HT80) (head : List Byte) (s : State) (f : State → State) : Result :=
  onPort p s fun s => if (s.port p).locked then f (s.traced stamp 0 p head).drew else s

/-- R80: a good flit of an unknown type. -/
def State.unknownFlit (s : State) (p : PortNo) (type : Byte) : State :=
  (s.modPort p fun q => { q with unknown := satInc q.unknown }).raiseNow (ce 0x03 0x01) (portLoc p) none (detail [(24, 1, type.toNat)])

-- BEATs (R86 to R90).

/-- State code of SUN_STATE (01). -/
def SunSt.code : SunSt → BitVec 2
  | .freerun => 0 | .locked => 1 | .holdover => 2 | .untrusted => 3

/-- The BEAT that a port sends (R86). Before a message has been accepted its ACK names SEQ 31, of which no message is
outstanding, with ACK_V 1; R94 does not say (DESIGN CHOICE, log entry 52). -/
def State.beatMsg (s : State) (p : PortNo) : BeatMsg :=
  let q := s.port p
  let prev := q.txStamps.head?
  let echo := q.rxStamps.head?
  { idx := q.beatIdx, echo := (echo.map (·.1)).getD 0, tPrevTx := (prev.map (·.2)).getD 0, tEchoRx := (echo.map (·.2)).getD 0,
    state := s.sun.st.code, rootState := if s.sun.isRoot then s.sun.st.code else s.sun.rootSt,
    tp := s.elect.parent == some p && !s.sun.isRoot, echoV := echo.isSome, prevV := prev.isSome,
    ackSeq := q.lastSeq, ackV := true }

/-- NODE_DOWN as the node sends it (R83, R100). -/
def State.nodeDownMsg (s : State) (reason : Byte) : NodeDownMsg :=
  { reason := reason, node := s.elect.node, hwid := s.gate.hwid,
    t := if reason = 2 then htOf s.fc.safeAt else s.stamp, fault := if reason = 2 then s.fc.safeFault else 0 }

/-- LAST_GASP as the node sends it (R101). -/
def State.lastGaspMsg (s : State) : LastGaspMsg := { node := s.elect.node, hwid := s.gate.hwid, t := s.pw.pfailT }

/-- R88: the newest BEAT of the partner for which the port holds both stamps, once BEAT `m` has told the departure of the one
before it. -/
def Port.notePair (q : Port) (m : BeatMsg) : Port :=
  match q.rxStamps.find? (fun x => x.1 == m.idx - 1) with
  | some (j, lRx) => if m.prevV then { q with pairIn := some (j, m.tPrevTx, lRx) } else q
  | none => q

/-- TL_ASYM.ASYM in units of 2^-16 ns. The rule gives no rounding; this one is toward zero (DESIGN CHOICE, log entries 19 and
52). -/
def Port.asymUnits (q : Port) : Int := (q.asym.toInt * 65536).tdiv 1000

/-- The offset sample of R88: the newest own BEAT that the partner echoes with the newest of its BEATs, if the pair is new and
lies in one span of 1,024 ns: the pair, d and θ in 2^-16 ns. -/
def Port.sample (q : Port) (m : BeatMsg) : Option ((Byte × Byte) × Int × Int) :=
  match q.txStamps.find? (fun x => x.1 == m.echo), q.pairIn with
  | some (k, lTx), some (j, pTx, lRx) =>
    if m.echoV && q.lastPair != some (k, j) && (htDiff lRx lTx).natAbs < 1024 * 65536 then
      let mOut := htDiff m.tEchoRx lTx
      let mIn := htDiff lRx pTx
      some ((k, j), (mOut + mIn).fdiv 2, (mOut - mIn - q.asymUnits).fdiv 2)
    else none
  | _, _ => none

/-- R15, R24: the Sundial is loaded with the parent's time. -/
def State.stepBy (s : State) (theta : Int) : State :=
  let s := (s.loadSun (s.sun.now + BitVec.ofInt 80 theta)).modSun fun u => { u with stepCnt := satInc u.stepCnt }
  let s := s.modElect fun e => { e with stepOwed := false, merge := false, mergeRaised := false }
  if s.accelAllowed && !s.org.everLocked then s.startAccel else s

/-- The R35 bound between the node and a neighbour that is not its parent, in 2^-16 ns (R36). The two know their own hop
counts below the root, not where their paths meet: the hops by the nearest common ancestor lie between the difference and
the sum of the two, and are free there (log entry 19). -/
def State.crossBound (s : State) (p : PortNo) : Int :=
  let q := s.port p
  let a := s.elect.hops.toNat
  let b := (q.tree.map (·.hops.toNat)).getD 0
  let lo := max 1 (max a b - min a b)
  let h := if q.partnerTp then 1 else lo + Config.treeHops s.elect.node q.partnerNode % (a + b + 1 - lo)
  ((90 * h + 60 : Nat) : Int) * 65536 / 1000

/-- R24: the merge raises "hall time merge" for every partition the node holds, before the step. -/
def State.raiseMerge (s : State) (theta : Int) : State :=
  let s := s.modElect fun e => { e with mergeRaised := true }
  (s.fab.parts.filter fun x => x.st != .free && !x.ended).foldl (fun s x =>
    s.raiseNow (uc 0x01 0x01) 0 (some x.ptag) (BitVec.ofInt 64 (theta.fdiv 65536))) s

/-- The mean of the delays, rounded down (R90). -/
def meanDelay (ds : List (BitVec 32)) : BitVec 32 := BitVec.ofNat 32 ((ds.map BitVec.toNat).sum / ds.length)

/-- A sample of the parent port steers the Orangery; others serve the cross-check, but on a port that NO_TIME shuts out
(R36, R88, R135). A change of root whose time agrees to within 10 ns was no merge of islands (R21, R24; log entry 22). -/
def State.takeSample (s : State) (p : PortNo) (d theta : Int) : State :=
  let s := s.modPort p fun q =>
    let ds := (BitVec.ofInt 32 d :: q.delays).take 64
    { q with exchanges := q.exchanges + 1, theta := theta, delays := ds, delay := if q.st == .up then meanDelay ds else q.delay }
  if (s.port p).st != .up then s
  else if s.elect.parent == some p && !s.sun.isRoot then
    let s := if s.elect.merge && theta.natAbs ≤ 655360 then s.modElect fun e => { e with stepOwed := false, merge := false } else s
    if s.elect.stepOwed && (s.elect.merge || !s.holdsPartition) then
      if s.holdsPartition then (if s.elect.mergeRaised then s else s.raiseMerge theta) else s.stepBy theta
    else
      let s := if !s.org.accel && s.sun.st != .locked && theta.natAbs > 655360 && s.accelAllowed then s.startAccel else s
      s.phaseSample theta
  else if (s.port p).noTime then s.modPort p fun q => { q with xcheckRun := 0 }
  else if decide (theta.natAbs > (s.crossBound p).natAbs) then
    let s := s.modPort p fun q => { q with xcheckRun := q.xcheckRun + 1 }
    if (s.port p).xcheckRun ≥ 16 then
      (s.modPort p fun q => { q with xcheckRun := 0, xcheck := true }).raiseNow (ce 0x01 0x02) (portLoc p) none
        (detail [(24, 4, (BitVec.ofInt 32 (unitsToPs theta)).toNat)])
    else s
  else s.modPort p fun q => { q with xcheckRun := 0 }

/-- The port comes UP with the mean of the samples that CALIBRATE took (R82, R90, R133, R136, R142). -/
def State.enterUp (s : State) (p : PortNo) : State :=
  let s := s.modPort p fun q => { q with st := .up, since := s.tick, txSeq := 0, rxSeq := 0, replay := [], waiting := [], left := 0, ackAt := s.tick, delay := meanDelay q.delays }
  let s := s.modElect fun e => { e with firstUp := some (e.firstUp.getD s.tick) }
  let s := s.send p 7 (.announce s.announceMsg)
  let s := if s.candidate then s.send p 7 (.elect s.ownClaim) else s
  let s := if s.canOffer then s.send p 7 (.tree s.offerMsg) else s
  (s.reportDelay p).modElect fun e => { e with improvedAt := if e.best.isNone then s.tick else e.improvedAt }

/-- CALIBRATE ends when all three conditions of R82 hold. -/
def State.tryUp (s : State) (p : PortNo) : State :=
  let q := s.port p
  if q.st == .calibrate && q.calDone && q.exchanges ≥ 64 && q.partnerCal then s.enterUp p else s

/-- Track how long the port has qualified as a time source (R107). -/
def State.trackQual (s : State) (p : PortNo) : State :=
  let ok := s.timeSource p
  s.modPort p fun q => { q with qualSince := if ok then some (q.qualSince.getD s.tick) else none }

-- Meanings.

/-- Ticks between BEATs (R85, R86); the NODE_DOWN of an orderly exit go every 128 ns (R83). -/
def Port.beatEvery (q : Port) : Nat := if q.rev = 4 && q.exiting = 0 then 256 else 128

/-- R86: the tick for which a BEAT, or what takes its place, is due: the latest multiple of 128, or of 256 at revision 4, if it
lies at most one flit time back and has not been served. -/
def State.beatDue (s : State) (p : PortNo) : Option Tick :=
  let q := s.port p
  let m := s.tick.toNat % q.beatEvery
  let t := s.tick - BitVec.ofNat 64 m
  if m ≤ 10 && q.beatAt != some t then some t else none

/-- BEAT_SEND (R28, R83, R86, R87, R100, R101): at the flit boundary after a tick that is a multiple of 128.
LAST_GASP or NODE_DOWN takes the BEAT's place; at revision 4 there is no LAST_GASP. `stamp` is the TDC's stamp of the
serialiser's edge; the bit crosses the pins later by the path latency. -/
def execBeatSend (p : PortNo) (stamp : HT80) (s : State) : Result :=
  onPort p s fun s =>
    let q := s.port p
    match s.beatDue p with
    | none => s
    | some t =>
      let go (s : State) : State := s.modPort p fun q => { q with beatAt := some t }
      if q.st != .up && (q.st != .calibrate || s.mute) then s
      else if s.pw.pfail && q.rev != 4 then (go s).emit (.lastGasp p s.lastGaspMsg)
      else if s.fc.safe then (go s).emit (.nodeDown p (s.nodeDownMsg 2))
      else if s.pw.pfail then s
      else if q.exiting != 0 then
        let s := ((go s).emit (.nodeDown p (s.nodeDownMsg 1))).modPort p fun q => { q with exiting := q.exiting - 1 }
        if (s.port p).exiting = 0 then s.portExit p else s
      else
        let m := s.beatMsg p
        let d := stamp + q.latTx.setWidth 80
        ((go s).modPort p fun q => { q with beatIdx := q.beatIdx + 1, txStamps := ((q.beatIdx, d) :: q.txStamps).take 16, unacked := 0 }).emitAt d (.beat p m)

/-- What follows from a good BEAT once its stamps and bits are noted: the acknowledgement it carries, the time of
the root, the offset sample, the report of a new child, the report of a delay that has moved by 1 ns, and UP
(R36, R82, R88, R93, R107, R134, R137, R142). -/
def State.afterBeat (s : State) (p : PortNo) (m : BeatMsg) (newTp : Bool) : State :=
  let s := if m.ackV then s.ackUpTo p m.ackSeq else s
  let s := if s.elect.parent == some p && !s.sun.isRoot then s.modSun fun u => { u with rootSt := m.rootState } else s
  let s := s.modPort p fun q => q.notePair m
  let s := match (s.port p).sample m with
    | some (k, d, th) => (s.modPort p fun q => { q with lastPair := some k }).takeSample p d th
    | none => s
  let s := s.trackQual p
  let s := if newTp && (s.port p).st == .up then s.reportChild p else s
  let q := s.port p
  let moved := q.st == .up && (q.delaySent.elim true fun d => ((q.delay.toNat : Int) - d.toNat).natAbs ≥ 65536)
  let s := if moved then s.reportDelay p else s
  ((s.tryUp p).keepParent).seekParent

/-- The instant from which a port has been without a good BEAT for too long (R99). -/
def Port.beatLimit (q : Port) (t : HT80) : HT80 := htAdd t (if q.rev = 4 then 1024 else 512)

/-- BEAT_RX (R20, R36, R87, R88, R90, R99, R107, R137): a good BEAT with the TDC's stamp of its arrival, which the path latency
carries back to the pins. One that arrives after the limit of R99 finds the port lost, whichever is handled first. -/
def execBeatRx (p : PortNo) (m : BeatMsg) (stamp : HT80) (s : State) : Result :=
  let a := stamp - ((s.port p).latRx.setWidth 80)
  onFlit p a (beatHead m) s fun s =>
    let q := s.port p
    if (q.st != .up && q.st != .calibrate) || s.mute then s
    else if q.st == .up && q.lastBeat.elim false fun t => htLt (q.beatLimit t) a then s.portLost p 1 .lost
    else (s.modPort p fun q => { q with
      lastBeat := some a, rxStamps := ((m.idx, a) :: q.rxStamps).take 16, partnerTp := m.tp,
      partnerSt := m.state, partnerRootSt := m.rootState }).afterBeat p m (m.tp && !q.partnerTp)

/-- BEAT_TIMEOUT (R99): 512 ns after the last good BEAT's arrival stamp; 1,024 ns at revision 4. -/
def execBeatTimeout (p : PortNo) (s : State) : Result :=
  onPort p s fun s =>
    let q := s.port p
    match q.lastBeat with
    | some t => if htLe (q.beatLimit t) s.stamp then s.portLost p 1 .lost else s
    | none => s

/-- ACKNAK_RX (R93, R95, R96). -/
def execAcknakRx (p : PortNo) (seq : BitVec 5) (nak : Bool) (s : State) : Result :=
  onFlit p s.arrival (acknakHead seq nak) s fun s =>
    if (s.port p).st != .up || s.mute then s
    else if nak then (s.ackUpTo p (seq - 1)).replayFrom p seq
    else s.ackUpTo p seq

/-- Own offer (R84). -/
def Port.ownMax (q : Port) : BitVec 4 := if q.revCap = 1 then 4 else 5

/-- R84: the revision of two offers, if they overlap. -/
def chooseRev (aMax aMin bMax bMin : Nat) : Option Nat :=
  let r := min aMax bMax
  if r ≥ max aMin bMin then some r else none

/-- R84, R85: choose the revision afresh from the partner's offer. -/
def State.negotiate (s : State) (p : PortNo) (m : TrainMsg) : State :=
  let q := s.port p
  match chooseRev q.ownMax.toNat 4 m.revMax.toNat m.revMin.toNat with
  | none => (s.modPort p fun q => { q with negDone := false, rev := 0 }).enterSt p .revFail
  | some r =>
    let mm := !q.negDone && (q.asym.toInt + m.asym.toInt).natAbs > 40
    let s := s.modPort p fun q => { q with negDone := true, rev := BitVec.ofNat 4 r, asymMm := q.asymMm || mm }
    let s := if mm then s.raiseNow (ce 0x03 0x02) (portLoc p) none (detail [(24, 2, q.asym.toNat), (26, 2, m.asym.toNat)]) else s
    if m.negDone && m.rev.toNat == r then s.enterSt p .calibrate else s

/-- TRAIN_RX (R5, R81 to R85). -/
def execTrainRx (p : PortNo) (m : TrainMsg) (s : State) : Result :=
  onFlit p s.arrival (trainHead m) s fun s =>
    let q := s.port p
    if q.st != .negotiate && q.st != .calibrate && q.st != .revFail then s
    else
      let s := s.modPort p fun q => { q with
        partnerMax := m.revMax.setWidth 4, partnerMin := m.revMin.setWidth 4, partnerHwid := m.hwid, partnerNode := m.node,
        partnerPort := m.port.setWidth 6, partnerAsym := m.asym, partnerNeg := m.negDone, partnerCal := m.calDone, partnerHub := m.isHub }
      if q.st == .negotiate then s.negotiate p m
      else if q.st == .revFail then
        (match chooseRev q.ownMax.toNat 4 m.revMax.toNat m.revMin.toNat with
        | some _ => s.enterSt p .negotiate
        | none => s)
      else s.tryUp p

/-- The TRAIN that a port sends. -/
def State.trainMsg (s : State) (p : PortNo) : TrainMsg :=
  let q := s.port p
  { revMax := q.ownMax.setWidth 8, revMin := 4, hwid := s.gate.hwid, node := s.elect.node, port := p.setWidth 8, asym := q.asym,
    negDone := q.negDone, calDone := q.calDone, isHub := !s.isLeaf, rev := q.rev.setWidth 8 }

/-- TRAIN_SEND (R82): in NEGOTIATE every 128 ns, in REV_FAIL every 1 µs, and in CALIBRATE. -/
def execTrainSend (p : PortNo) (s : State) : Result :=
  onPort p s fun s =>
    let q := s.port p
    if (q.st == .negotiate || q.st == .calibrate || q.st == .revFail) && !s.mute then s.emit (.train p (s.trainMsg p)) else s

/-- NODE_DOWN_RX (R82, R99, R329, R330). -/
def execNodeDownRx (p : PortNo) (m : NodeDownMsg) (s : State) : Result :=
  onFlit p s.arrival (nodeDownHead m) s fun s =>
    let q := s.port p
    if q.st == .downHeld then s.modPort p fun q => { q with lastNodeDown := s.tick }
    else s.portLost p 3 .downHeld m.reason (if m.reason = 2 then m.fault else 0)

/-- LAST_GASP_RX (R99 to R101, R129). Revision 4 does not have the type (R80). -/
def execLastGaspRx (p : PortNo) (m : LastGaspMsg) (s : State) : Result :=
  onFlit p s.arrival (lastGaspHead m) s fun s =>
    if s.mute then s
    else if (s.port p).rev = 4 then s.unknownFlit p 0x05 else s.portLost p 2 .lost

/-- UNKNOWN_FLIT_RX (R80): a good flit whose TYPE is not in the type table. -/
def execUnknownFlitRx (p : PortNo) (type : Byte) (sequenced : Bool) (s : State) : Result :=
  onPort p s fun s =>
    if s.mute || !(s.port p).locked || knownType type then s
    else
      let s := s.unknownFlit p type
      if sequenced && (s.port p).st == .up then s.accept p else s

/-- BLOCK_LOCK (R75, R82): the receiver has adapted and 64 valid sync headers have come in a row. Port and headers. -/
def execBlockLock (x : PortNo × BitVec 128) (s : State) : Result :=
  onPort x.1 s fun s => if (s.port x.1).st == .train && headersLock x.2 then s.enterSt x.1 .align else s

/-- FLIT_LOCK (R75, R82): of the blocks received, 8 flits in a row pass their CRC on one of the four phases. Port and blocks. -/
def execFlitLock (x : PortNo × List (BitVec 64)) (s : State) : Result :=
  onPort x.1 s fun s =>
    let p := x.1
    match flitPhase x.2 with
    | none => s
    | some k =>
      if (s.port p).st == .align then
        (s.modPort p fun q => { q with negDone := false, partnerNeg := false, partnerCal := false, lockPhase := BitVec.ofNat 2 k }).enterSt p .negotiate
      else s

/-- FLIT_LOCK_LOST (R75, R99): 16 of the last 64 flits have failed, or block lock is gone: in UP the port is lost. Port,
the flits that failed, and whether block lock is gone. -/
def execFlitLockLost (x : PortNo × BitVec 64 × Bool) (s : State) : Result :=
  onPort x.1 s fun s => if lockFails x.2.1 || x.2.2 then s.portLost x.1 4 .lost else s

/-- R89: the port measures its variable path latency with the TDC; the result applies to stamps from the next BEAT on. -/
def State.measurePath (s : State) (p : PortNo) : State :=
  let x := Config.pathLatency s.freeIx
  s.drew.modPort p fun q => { q with latTx := x.extractLsb' 0 32, latRx := x.extractLsb' 32 32, calAt := s.tick }

/-- CALIBRATE_DONE (R82, R89): the PHY's self-calibration is done. -/
def execCalibrateDone (p : PortNo) (s : State) : Result :=
  onPort p s fun s =>
    if (s.port p).st == .calibrate then ((s.measurePath p).modPort p fun q => { q with calDone := true }).tryUp p else s

/-- Time limit of a state in ns (R82). -/
def LinkSt.limit : LinkSt → Option Nat
  | .train => some 10000000
  | .align => some 100000
  | .negotiate => some 100000
  | .calibrate => some 1000000
  | _ => none

/-- LINK_STATE_TIMEOUT (R82): back to TRAIN. -/
def execLinkStateTimeout (p : PortNo) (s : State) : Result :=
  onPort p s fun s =>
    let q := s.port p
    match q.st.limit with
    | some n => if tickLe (q.since + BitVec.ofNat 64 n) s.tick then (s.modPort p Port.clearLink).enterSt p .train else s
    | none => s

/-- LOST_HOLD_END (R82): 10 µs in LOST. -/
def execLostHoldEnd (p : PortNo) (s : State) : Result :=
  onPort p s fun s =>
    let q := s.port p
    if q.st == .lost && tickLe (q.since + 10000) s.tick then s.enterSt p .train else s

/-- DOWN_HELD_END (R82): no good NODE_DOWN for 512 ns. -/
def execDownHeldEnd (p : PortNo) (s : State) : Result :=
  onPort p s fun s =>
    let q := s.port p
    if q.st == .downHeld && tickLe (q.lastNodeDown + 512) s.tick then s.enterSt p .train else s

/-- REPLAY_TIMEOUT (R96): 1 µs without acknowledgement progress. Whether that time starts afresh at a replay the rule does not
say; here the next such replay also waits 1 µs from the latest replay of any cause (DESIGN CHOICE, log entry 52). -/
def execReplayTimeout (p : PortNo) (s : State) : Result :=
  onPort p s fun s =>
    let q := s.port p
    match q.replay with
    | x :: _ =>
      if q.st == .up && !s.mute && tickLe (q.ackAt + 1000) s.tick && tickLe (q.replayAt + 1000) s.tick then s.replayFrom p x.seq else s
    | [] => s

/-- FORCED_RETRAIN (R96, R99): 8 consecutive replays from one message, or 16 µs without progress. -/
def execForcedRetrain (p : PortNo) (s : State) : Result :=
  onPort p s fun s =>
    let q := s.port p
    if !q.replay.isEmpty && (q.sameStart ≥ 8 || tickLe (q.ackAt + 16000) s.tick) then s.portLost p 5 .lost else s

/-- Move aged messages to class 5, by the time at which they became ready (R97). -/
def ageWaiting (now : Tick) (l : List Waiting) : List Waiting :=
  let aged := l.map fun w => if w.cls ≥ 6 && tickLe (w.ready + 16000) now then { w with cls := 5 } else w
  let (five, rest) := aged.partition fun w => w.cls ≤ 5
  sortBy (fun a b => tickLe a.ready b.ready) five ++ rest

/-- FLIT_AGING (R97). -/
def execFlitAging (p : PortNo) (s : State) : Result :=
  onPort p s fun s => s.modPort p fun q => { q with waiting := ageWaiting s.tick q.waiting }

/-- CAL_NOW (R89): the port measures its path at once. -/
def State.recalibrate (s : State) (p : PortNo) : State := if (s.port p).st == .up then s.measurePath p else s

/-- PHY_RECAL (R89): in UP, 1 s after the latest measurement. -/
def execPhyRecal (p : PortNo) (s : State) : Result :=
  onPort p s fun s => if tickLe ((s.port p).calAt + BitVec.ofNat 64 nsPerS) s.tick then s.recalibrate p else s

/-- The level of rst_link_n[p], which counts whatever state the block is in (R45). -/
def State.linkLevel (s : State) (p : PortNo) (low : Bool) : State := s.modPins fun x => { x with linkLow := setBit x.linkLow p.toNat low }

/-- RST_LINK_ASSERT (R44, R45, R83, R99, R102): a port in UP is lost with reason 0x06; one of a node in the safe or the
power-fail state declares no loss, and leaves UP all the same. -/
def execRstLinkAssert (p : PortNo) (s : State) : Result :=
  onPort p (s.linkLevel p true) fun s =>
    let s := s.portLost p 6 .disabled
    let s := if (s.port p).st == .up then s.portExit p else s
    s.modPort p fun q => { q.clearPartner with st := .disabled, since := s.tick }

/-- RST_LINK_RELEASE (R45, R83): back to TRAIN if EN is 1. -/
def execRstLinkRelease (p : PortNo) (s : State) : Result :=
  onPort p (s.linkLevel p false) fun s =>
    if (s.port p).en && (s.port p).st == .disabled && !s.mute then s.enterSt p .train else s

end Sys2Proof.Machine
end

