-- ==== Sys2Proof/Machine/Crypto.lean ====
section
/-!
DEFINITION. The functions the manual names: SipHash-2-4 (R208, R281), SHA-256 and HMAC-SHA-256 (14, 15).
-/

namespace Sys2Proof.Machine

-- SipHash-2-4, 64-bit output.

/-- The four words of SipHash's state. -/
structure SipSt where
  v0 : BitVec 64
  v1 : BitVec 64
  v2 : BitVec 64
  v3 : BitVec 64
  deriving DecidableEq, Repr

/-- One SipRound. -/
def sipRound (s : SipSt) : SipSt :=
  let v0 := s.v0 + s.v1
  let v1 := s.v1.rotateLeft 13 ^^^ v0
  let v0 := v0.rotateLeft 32
  let v2 := s.v2 + s.v3
  let v3 := s.v3.rotateLeft 16 ^^^ v2
  let v0 := v0 + v3
  let v3 := v3.rotateLeft 21 ^^^ v0
  let v2 := v2 + v1
  let v1 := v1.rotateLeft 17 ^^^ v2
  let v2 := v2.rotateLeft 32
  ⟨v0, v1, v2, v3⟩

/-- One message word: two rounds. -/
def sipWord (s : SipSt) (m : BitVec 64) : SipSt :=
  let t := sipRound (sipRound { s with v3 := s.v3 ^^^ m })
  { t with v0 := t.v0 ^^^ m }

/-- The words of a padded message: the last one carries the length mod 256 in its top byte. -/
def sipWords (l : List Byte) : List (BitVec 64) :=
  let n := l.length
  (List.range (n / 8 + 1)).map fun k =>
    let part := ofBytes ((l.drop (8 * k)).take 8)
    if k = n / 8 then BitVec.ofNat 64 (part + (n % 256) * 2 ^ 56) else BitVec.ofNat 64 part

/-- SipHash-2-4 of a message under a 128-bit key given as its two 64-bit halves, low first. -/
def sipHash (k0 k1 : BitVec 64) (l : List Byte) : BitVec 64 :=
  let s : SipSt := ⟨k0 ^^^ 0x736f6d6570736575, k1 ^^^ 0x646f72616e646f6d, k0 ^^^ 0x6c7967656e657261, k1 ^^^ 0x7465646279746573⟩
  let s := (sipWords l).foldl sipWord s
  let s := { s with v2 := s.v2 ^^^ 0xff }
  let s := sipRound (sipRound (sipRound (sipRound s)))
  s.v0 ^^^ s.v1 ^^^ s.v2 ^^^ s.v3

-- SHA-256 (FIPS 180-4), HMAC (FIPS 198-1).

/-- The round constants. -/
def shaK : List (BitVec 32) :=
  [0x428a2f98, 0x71374491, 0xb5c0fbcf, 0xe9b5dba5, 0x3956c25b, 0x59f111f1, 0x923f82a4, 0xab1c5ed5] ++
  [0xd807aa98, 0x12835b01, 0x243185be, 0x550c7dc3, 0x72be5d74, 0x80deb1fe, 0x9bdc06a7, 0xc19bf174] ++
  [0xe49b69c1, 0xefbe4786, 0x0fc19dc6, 0x240ca1cc, 0x2de92c6f, 0x4a7484aa, 0x5cb0a9dc, 0x76f988da] ++
  [0x983e5152, 0xa831c66d, 0xb00327c8, 0xbf597fc7, 0xc6e00bf3, 0xd5a79147, 0x06ca6351, 0x14292967] ++
  [0x27b70a85, 0x2e1b2138, 0x4d2c6dfc, 0x53380d13, 0x650a7354, 0x766a0abb, 0x81c2c92e, 0x92722c85] ++
  [0xa2bfe8a1, 0xa81a664b, 0xc24b8b70, 0xc76c51a3, 0xd192e819, 0xd6990624, 0xf40e3585, 0x106aa070] ++
  [0x19a4c116, 0x1e376c08, 0x2748774c, 0x34b0bcb5, 0x391c0cb3, 0x4ed8aa4a, 0x5b9cca4f, 0x682e6ff3] ++
  [0x748f82ee, 0x78a5636f, 0x84c87814, 0x8cc70208, 0x90befffa, 0xa4506ceb, 0xbef9a3f7, 0xc67178f2]

/-- The initial hash value. -/
def shaInit : List (BitVec 32) :=
  [0x6a09e667, 0xbb67ae85, 0x3c6ef372, 0xa54ff53a, 0x510e527f, 0x9b05688c, 0x1f83d9ab, 0x5be0cd19]

/-- Extend the newest-first window of the message schedule by `n` words. -/
def shaSched : Nat → List (BitVec 32) → List (BitVec 32)
  | 0, w => w
  | n + 1, w =>
    let g (i : Nat) : BitVec 32 := w.getD i 0
    let s0 := (g 14).rotateRight 7 ^^^ (g 14).rotateRight 18 ^^^ (g 14) >>> 3
    let s1 := (g 1).rotateRight 17 ^^^ (g 1).rotateRight 19 ^^^ (g 1) >>> 10
    shaSched n ((g 15 + s0 + g 6 + s1) :: w)

/-- One round on the eight working variables. -/
def shaRound (v : List (BitVec 32)) (kw : BitVec 32 × BitVec 32) : List (BitVec 32) :=
  match v with
  | [a, b, c, d, e, f, g, h] =>
    let s1 := e.rotateRight 6 ^^^ e.rotateRight 11 ^^^ e.rotateRight 25
    let ch := (e &&& f) ^^^ (~~~e &&& g)
    let t1 := h + s1 + ch + kw.1 + kw.2
    let s0 := a.rotateRight 2 ^^^ a.rotateRight 13 ^^^ a.rotateRight 22
    let mj := (a &&& b) ^^^ (a &&& c) ^^^ (b &&& c)
    [t1 + (s0 + mj), a, b, c, d + t1, e, f, g]
  | v => v

/-- One 64-byte block of big-endian words. -/
def shaBlock (h : List (BitVec 32)) (blk : List Byte) : List (BitVec 32) :=
  let w16 := (List.range 16).map fun i => BitVec.ofNat 32 (ofBytes ((blk.drop (4 * i)).take 4).reverse)
  let w := (shaSched 48 w16.reverse).reverse
  ((shaK.zip w).foldl shaRound h).zipWith (· + ·) h

/-- A message in blocks of 64 bytes, `n` of them. -/
def blocksOf : Nat → List Byte → List (List Byte)
  | 0, _ => []
  | n + 1, l => l.take 64 :: blocksOf n (l.drop 64)

/-- SHA-256, the digest as 32 bytes in the order of FIPS 180-4. -/
def sha256 (l : List Byte) : List Byte :=
  let n := l.length
  let pad := (119 - n % 64) % 64
  let m := l ++ [(0x80 : Byte)] ++ List.replicate pad (0 : Byte) ++ (bytesOf 8 (8 * n)).reverse
  let h := (blocksOf (m.length / 64) m).foldl shaBlock shaInit
  h.flatMap fun x => (bytesOf 4 x.toNat).reverse

/-- HMAC-SHA-256 with a key of at most 64 bytes. -/
def hmac256 (key msg : List Byte) : List Byte :=
  let k := key ++ List.replicate (64 - key.length) (0 : Byte)
  let ipad := k.map (· ^^^ 0x36)
  let opad := k.map (· ^^^ 0x5C)
  sha256 (opad ++ sha256 (ipad ++ msg))

end Sys2Proof.Machine
end

