-- ==== Sys2Proof/Machine/Objects.lean ====
section
/-!
DEFINITION. Synchronisation objects (09): the entry, the operations on one object, and the words that
the Leaf core asks the Trellis to send.
-/

namespace Sys2Proof.Machine

-- Down words asked of the Trellis (R187, R201): sampled at the due tick of T − L_tr.

/-- Codes of down words (R171). -/
def wFire : BitVec 4 := 1
def wRelease : BitVec 4 := 2
def wWake : BitVec 4 := 3
def wWinOpen : BitVec 4 := 4
def wWinClose : BitVec 4 := 5
def wSwap : BitVec 4 := 6
def wPark : BitVec 4 := 7
def wCheck : BitVec 4 := 8
def wSeat : BitVec 4 := 9

/-- L_tr in ns: TR_LTR.LTR. -/
def State.lTr (s : State) : Nat := s.tr.ltr.toNat

/-- Ask for a down word that takes effect at T. -/
def State.askWord (s : State) (t : HT80) (code arg : BitVec 4) (ptag : PTag := 0) (obj : Option Nat := none) (desc : Option Nat := none) : State :=
  s.modTr fun r => { r with acts := r.acts ++ [{ ix := r.actIx, t := t, code := code, arg := arg, ptag := ptag, obj := obj, desc := desc }], actIx := r.actIx + 1 }

/-- A WAKE of the object engine: T = t_s + L_tr + 8 ns (R262). -/
def State.wake (s : State) (chan : BitVec 4) : State := s.askWord (htAdd s.stamp (s.lTr + 8)) wWake chan

/-- The WAKE of a timer that has been stopped or replaced is not sent. -/
def State.dropTimerWake (s : State) (o : Nat) : State :=
  s.modTr fun r => { r with acts := r.acts.filter fun a => a.obj != some o }

-- Entries.

/-- Insert or replace object `o`, keeping the indices rising; an entry of zeros is not listed. -/
def objSet (o : Nat) (x : Obj) (l : List (Nat × Obj)) : List (Nat × Obj) :=
  let l' := l.filter fun y => y.1 != o
  if x = {} then l'
  else l'.takeWhile (fun y => y.1 < o) ++ [(o, x)] ++ l'.dropWhile (fun y => y.1 < o)

/-- Object `o` of a context. -/
def Ctx.obj (c : Ctx) (o : Nat) : Obj := assocGet o {} c.objs

/-- Object `o` of slot `k`. -/
def State.obj (s : State) (k : Bool) (o : Nat) : Obj := (s.ctx k).obj o

/-- Store object `o` of slot `k`. -/
def State.setObj (s : State) (k : Bool) (o : Nat) (x : Obj) : State :=
  s.modCtx k fun c => { c with objs := objSet o x c.objs }

/-- Type code (R259). -/
def ObjType.code : ObjType → BitVec 3
  | .none => 0 | .counter => 1 | .flag => 2 | .barrier => 3 | .timer => 4

/-- The type of a code; 5 to 7 are never held. -/
def objTypeOf (c : BitVec 3) : ObjType :=
  match c.toNat with
  | 1 => .counter | 2 => .flag | 3 => .barrier | 4 => .timer | _ => .none

/-- One bit. -/
def bit (b : Bool) : BitVec 1 := if b then 1 else 0

/-- Entry bytes 0 to 3 (R259, R267). -/
def Obj.head (x : Obj) : BitVec 32 :=
  x.cnt16 ++ (0 : BitVec 1) ++ bit x.rel ++ bit x.auto ++ bit x.wakeEn ++ x.wchan ++
    bit x.remoteOk ++ bit x.expired ++ bit x.double ++ bit x.consume ++ bit x.armed ++ x.type.code

/-- The 28 bytes of an entry (R259). -/
def Obj.bits (x : Obj) : BitVec 224 :=
  (0 : BitVec 16) ++ x.deadline ++ x.timeout ++ (0 : BitVec 5) ++ bit x.hostNext ++ bit x.hostCur ++ bit x.localDone ++
    (0 : BitVec 3) ++ bit x.chanEn ++ x.chan ++ x.thresh ++ x.value ++ x.head

/-- The CFG word of the sync window (R267). -/
def Obj.cfgWord (x : Obj) : Word :=
  x.thresh ++ (0 : BitVec 4) ++ bit x.rel ++ bit x.auto ++ x.wchan ++ bit x.wakeEn ++ bit x.remoteOk ++ bit x.consume ++ x.type.code

/-- R267: a CFG write re-creates the object. A field of another type reads as 0 (R259). -/
def cfgObj (w : Word) : Obj :=
  let t := objTypeOf (w.extractLsb' 0 3)
  let wait := t == .counter || t == .flag
  { type := t, consume := wait && w.getLsbD 3, remoteOk := w.getLsbD 4, wakeEn := w.getLsbD 5, wchan := w.extractLsb' 6 4,
    auto := wait && w.getLsbD 10, rel := t == .timer && w.getLsbD 11, thresh := if t == .counter then w.extractLsb' 16 16 else 0 }

-- Operations (R260, R261).

/-- What an operation leaves beside the object. -/
structure OpRes where
  obj : Obj
  /-- not an operation of the object's type, or of any type -/
  misuse : Bool := false
  /-- an armed wait was satisfied, and WAKE_EN is 1 -/
  wake : Bool := false
  /-- DOUBLE went from 0 to 1 -/
  rise : Bool := false
  /-- a host arrival of a BARRIER now counts for the current round -/
  arrived : Bool := false
  /-- a TIMER started, or stopped -/
  started : Bool := false
  stopped : Bool := false
  deriving DecidableEq, Repr

/-- A COUNTER takes a new value; a wrap counts in CNT16 (R260). -/
def Obj.count (x : Obj) (v : BitVec 32) (wraps : Bool) : Obj :=
  { x with value := v, cnt16 := if wraps then satInc x.cnt16 else x.cnt16 }

/-- VALUE + k. -/
def Obj.addTo (x : Obj) (k : BitVec 32) : Obj := x.count (x.value + k) (decide (x.value.toNat + k.toNat ≥ 2 ^ 32))

/-- VALUE − k. -/
def Obj.subFrom (x : Obj) (k : BitVec 32) : Obj := x.count (x.value - k) (decide (x.value.toNat < k.toNat))

/-- R261: is a wait on this object satisfied now? -/
def Obj.satisfied (x : Obj) : Bool :=
  match x.type with
  | .counter => (x.value - x.thresh.setWidth 32).toNat < 2 ^ 31
  | .flag => x.value.getLsbD 0
  | _ => false

/-- R261: an armed wait that is satisfied ends in one step. -/
def Obj.settle (x : Obj) : OpRes :=
  if x.armed && x.satisfied then
    let y := { x with armed := false, deadline := 0 }
    let y := if !x.consume then y else if x.type = .counter then y.subFrom (x.thresh.setWidth 32) else { y with value := setBit y.value 0 false }
    { obj := y, wake := x.wakeEn }
  else { obj := x }

/-- R265: a host arrival of a BARRIER, by its round tag. -/
def Obj.hostPost (x : Obj) (operand : BitVec 32) : OpRes :=
  let d := (operand.extractLsb' 0 2 - x.value.extractLsb' 0 2).toNat
  let drop : OpRes := { obj := { x with cnt16 := satInc x.cnt16 } }
  if d = 0 then (if x.hostCur then drop else { obj := { x with hostCur := true }, arrived := true })
  else if d = 1 then (if x.hostNext then drop else { obj := { x with hostNext := true } })
  else drop

/-- Start a TIMER: DEADLINE = stamp + operand, or + TIMEOUT when the operand is 0 (R260). -/
def Obj.start (x : Obj) (stamp : HT80) (operand : BitVec 32) : Obj :=
  { x with armed := true, deadline := htAdd stamp (if operand = 0 then x.timeout.toNat else operand.toNat) }

/-- R260: POST and SUB alone travel remotely. -/
def opRemote (op : Byte) : Bool := op == 1 || op == 2

/-- R260: the operation `op` with an operand, stamped `stamp`. -/
def Obj.apply (x : Obj) (op : Byte) (operand : BitVec 32) (stamp : HT80) : OpRes :=
  match x.type, op.toNat with
  | .counter, 1 => (x.addTo operand).settle
  | .counter, 2 => (x.subFrom operand).settle
  | .counter, 3 => ({ x with value := operand } : Obj).settle
  | .counter, 4 => ({ x with value := 0 } : Obj).settle
  | .flag, 1 =>
    if x.value.getLsbD 0 then { obj := { x with double := true, cnt16 := satInc x.cnt16 }, rise := !x.double }
    else ({ x with value := setBit x.value 0 } : Obj).settle
  | .flag, 4 => { obj := { x with value := setBit x.value 0 false } }
  | .barrier, 1 => if x.chanEn then { obj := x, misuse := true } else x.hostPost operand
  | .timer, 4 => { obj := { x with armed := false, deadline := 0 }, stopped := true }
  | .timer, 6 => { obj := x.start stamp operand, started := true, stopped := true }
  | .counter, 5 | .flag, 5 =>
    if x.armed then { obj := x }
    else ({ x with armed := true, deadline := if x.timeout = 0 then 0 else htAdd stamp x.timeout.toNat } : Obj).settle
  | _, _ => { obj := x, misuse := true }

/-- R262: the WAKE of a timer that runs to its deadline. -/
def State.askTimerWake (s : State) (o : Nat) (x : Obj) : State :=
  if !x.wakeEn then s
  else
    let early := htAdd s.stamp (s.lTr + 8)
    s.askWord (if htLe early x.deadline then x.deadline else early) wWake x.wchan 0 (some o)

/-- R20, R263, R265: has the tick passed the object's deadline? What is stamped at or before it still comes first. -/
def Obj.overdue (x : Obj) (stamp : HT80) : Bool := x.deadline != 0 && htLt x.deadline stamp

/-- R263, R265: an object whose deadline has passed expires: a wait and a BARRIER with a fault, a TIMER by firing. -/
def State.expireObj (s : State) (k : Bool) (o : Nat) : State :=
  let x := s.obj k o
  if !x.overdue s.stamp || (s.ctx k).st != .active then s
  else match x.type with
    | .counter | .flag =>
      if x.armed then
        (s.setObj k o { x with expired := true, armed := false, deadline := 0 }).raiseNow (uc 0x0B 0x02) 0 (some (s.ctx k).ptag)
          (detail [(24, 2, o), (28, 4, x.value.toNat)])
      else s
    | .timer => if x.armed then s.setObj k o { x with armed := x.rel, deadline := 0, cnt16 := satInc x.cnt16 } else s
    | .barrier =>
      (s.setObj k o { x with expired := true, deadline := 0 }).raiseNow (uc 0x0B 0x03) 0 (some (s.ctx k).ptag)
        (detail [(24, 1, o), (25, 1, if x.localDone then 1 else 0), (28, 4, x.value.toNat)])
    | .none => s

/-- R264: what a step-barrier release does to one object of the active context. -/
def Obj.realign (x : Obj) (tRel : HT80) : Obj :=
  match x.type with
  | .counter => if x.auto then { x with value := 0 } else x
  | .flag => if x.auto then { x with value := setBit x.value 0 false } else x
  | .timer => if x.rel then { x with armed := true, deadline := htAdd tRel x.timeout.toNat } else x
  | _ => x

/-- R272: what a park does to one object. -/
def Obj.parkOne (x : Obj) : Obj :=
  match x.type with
  | .barrier => { x with deadline := 0 }
  | _ => { x with armed := false, deadline := 0 }

/-- A wait or a timer that a park disarms (R272). -/
def Obj.disarms (x : Obj) : Bool := x.armed && x.type != .barrier && x.type != .none

/-- DEADLINE of a BARRIER whose round begins at T_rel (R265). In a parked context none runs (R272). -/
def Obj.barrierDeadline (x : Obj) (tRel : HT80) (runs : Bool) : HT80 := if x.timeout = 0 || !runs then 0 else htAdd tRel x.timeout.toNat

/-- R265: a BARRIER object at its release. -/
def Obj.releaseOne (x : Obj) (tRel : HT80) (j : BitVec 16) (runs : Bool) : Obj :=
  { x with value := x.value + 1, thresh := satNat 16 (x.thresh.toNat + j.toNat), hostCur := x.hostNext, hostNext := false,
           localDone := false, deadline := x.barrierDeadline tRel runs }

/-- R273: at the first release of the step barrier after a resume the BARRIER deadlines start again. `due` is a BARRIER with a
release still to come, which needs none. -/
def Obj.restartDeadline (x : Obj) (tRel : HT80) (due : Bool) : Obj :=
  if x.type == .barrier && x.armed && x.deadline = 0 && !x.localDone && !due then { x with deadline := x.barrierDeadline tRel true } else x

end Sys2Proof.Machine
end

