-- ==== Sys2Proof/Machine/Digest.lean ====
section
/-!
DEFINITION. Step digests, provenance, the Record ring and replay (10), and the capture FIFO that live
edges and replay share (R413).
-/

namespace Sys2Proof.Machine

/-- Number of the step whose digest interval runs (R280, R281): after t_arr it is the next one. -/
def Ctx.iStep (c : Ctx) : BitVec 64 := if c.tArr.isSome then c.step + 1 else c.step

/-- H_K under the interval's key: bytes 0–7 P, bytes 8–15 the step number (R281). -/
def Ctx.hash (c : Ctx) (l : List Byte) : BitVec 64 := sipHash c.p c.iStep l

/-- H_Z: the key of 16 zero bytes. -/
def hashZ (l : List Byte) : BitVec 64 := sipHash 0 0 l

/-- R287: the provenance digest. -/
def provenance (prog weights inputs sigHost step0 : BitVec 64) (rankCnt : BitVec 32) : BitVec 64 :=
  hashZ (bytesOf 8 prog.toNat ++ bytesOf 8 weights.toNat ++ bytesOf 8 inputs.toNat ++ bytesOf 8 sigHost.toNat ++
    bytesOf 8 step0.toNat ++ bytesOf 4 rankCnt.toNat)

/-- Sections in the order L, B, E, H, O (R282). -/
def secL : Nat := 0
def secB : Nat := 1
def secE : Nat := 2
def secH : Nat := 3
def secO : Nat := 4

/-- R282: fold an item into a section: A = H_K(A ‖ item), count + 1. -/
def Ctx.fold (c : Ctx) (sec : Nat) (item : List Byte) : Ctx :=
  let a := c.acc.a.getD sec 0
  { c with acc := {
      a := c.acc.a.set sec (c.hash (bytesOf 8 a.toNat ++ item))
      n := c.acc.n.set sec (satInc (c.acc.n.getD sec 0)) } }

/-- The 62-byte message of D0 (R283). -/
def Ctx.d0Msg (c : Ctx) : List Byte :=
  bytesOf 4 c.rank.toNat ++ bytesOf 8 c.gPrev.toNat ++ c.acc.n.flatMap (fun n => bytesOf 2 n.toNat) ++
    c.acc.a.flatMap (fun a => bytesOf 8 a.toNat)

/-- D1 (R284). -/
def Ctx.formD1 (c : Ctx) (tArr : Tick) : BitVec 64 :=
  if c.firstStep then hashZ (bytesOf 8 c.p.toNat)
  else
    let span := (htDiffNs (htOf tArr) c.iStart).toNat
    c.hash (bytesOf 4 c.rank.toNat ++ bytesOf 8 c.iRealign.toNat ++ bytesOf 2 c.iLateQ.toNat ++ bytesOf 4 c.iHeld.toNat ++
      bytesOf 2 c.iIntr.toNat ++ bytesOf 2 (c.iStretch.getD 0).toNat ++ bytesOf 8 span)

/-- R282, R283, R284: at t_arr the digests are formed and the accumulators restart. -/
def Ctx.closeInterval (c : Ctx) (tArr : Tick) : Ctx :=
  let c := (sortBy (fun a b => decide (a.toNat ≤ b.toNat)) c.doubles).foldl (fun c o => c.fold secO (bytesOf 2 o.toNat)) c
  { c with
    d0 := c.hash c.d0Msg, d1 := c.formD1 tArr, acc := {}, doubles := [], iStart := htOf tArr, iHeld := 0, iIntr := 0,
    iStretch := none, iLateQ := 0, iRealign := 0, wStep := c.w, w := [] }

/-- An event stamped `t` is noted; the interval in which the stamp lies takes it (R280). -/
def Ctx.note (c : Ctx) (t : HT80) (e : DigEv) : Ctx := { c with digQ := c.digQ ++ [(t, e)] }

/-- OFS of a stamp: from the interval start (R282). -/
def Ctx.ofs (c : Ctx) (t : HT80) : HT80 := t - c.iStart

/-- The running interval takes an event (R282, R284). -/
def Ctx.takeEv (c : Ctx) (t : HT80) : DigEv → Ctx
  | .item sec l => c.fold sec l
  | .edge n f => c.fold secE (bytesOf 1 n.toNat ++ bytesOf 1 f.toNat ++ bytesOf 10 (c.ofs t).toNat)
  | .double o => { c with doubles := c.doubles ++ [o] }
  | .held => { c with iHeld := satInc c.iHeld }
  | .intr => { c with iIntr := satInc c.iIntr }
  | .lateQ j => { c with iLateQ := satNat 16 (c.iLateQ.toNat + j.toNat) }
  | .stretch e => { c with iStretch := some (match c.iStretch with | some x => if x.slt e then e else x | none => e) }
  | .realign v => { c with iRealign := v }

/-- Order of events: by stamp, and edges of one stamp by INPUT (R37, R282). Those of different sections do not meet. -/
def digBefore (a b : HT80 × DigEv) : Bool :=
  let input : DigEv → Nat | .edge n _ => n.toNat | _ => 0
  htLt a.1 b.1 || (a.1 == b.1 && input a.2 ≤ input b.2)

/-- A resume begins an interval (R280, R282): the accumulators start at 0. -/
def Ctx.restart (c : Ctx) (start : HT80) : Ctx :=
  { c with acc := {}, doubles := [], digQ := [], iStart := start, iHeld := 0, iIntr := 0, iStretch := none, iLateQ := 0, iRealign := 0, w := [] }

/-- R290: add a region's item to W_r. -/
def Ctx.addRegion (c : Ctx) (r : Nat) (bid : Byte) (round : BitVec 32) (slot : Byte) (data : BitVec 128) : Ctx :=
  let h := c.hash (bytesOf 1 r ++ bytesOf 1 bid.toNat ++ bytesOf 4 round.toNat ++ bytesOf 1 slot.toNat ++ bytesOf 16 data.toNat)
  { c with w := assocSet r (assocGet r 0 c.w + h) c.w }

-- Record ring (R291).

/-- OPEN. -/
def recOpen (c : Ctx) : BitVec 256 :=
  (0 : BitVec 64) ++ c.rank ++ c.p ++ c.step0 ++ c.ptag ++ (0 : BitVec 8) ++ (0x24 : BitVec 8)

/-- CAPTURE. -/
def recCapture (input : BitVec 3) (edge : Bool) (ptag : PTag) (step : BitVec 32) (ofs : HT80) : BitVec 256 :=
  (0 : BitVec 112) ++ ofs ++ step ++ ptag ++ (0 : BitVec 4) ++ bit edge ++ input ++ (0x22 : BitVec 8)

/-- REGION. -/
def recRegion (r : Nat) (ptag : PTag) (step : BitVec 32) (w : BitVec 64) : BitVec 256 :=
  (0 : BitVec 128) ++ w ++ step ++ ptag ++ BitVec.ofNat 8 r ++ (0x23 : BitVec 8)

/-- STEP. -/
def recStep (flags : Byte) (ptag : PTag) (step : BitVec 32) (d0 g0 : BitVec 64) : BitVec 256 :=
  (0 : BitVec 64) ++ g0 ++ d0 ++ step ++ ptag ++ flags ++ (0x20 : BitVec 8)

/-- STEP_T. -/
def recStepT (ptag : PTag) (step : BitVec 32) (d1 g1 : BitVec 64) : BitVec 256 :=
  (0 : BitVec 64) ++ g1 ++ d1 ++ step ++ ptag ++ (0 : BitVec 8) ++ (0x21 : BitVec 8)

/-- Write a record to the Record ring. -/
def State.record (s : State) (r : BitVec 256) : State := if s.sync.rec_ then s.putGroup 4 [r] else s

/-- The running interval of slot `k` takes what is stamped before `upTo`, in order; an edge is recorded (R280, R282, R291). -/
def State.takeDig (s : State) (k : Bool) (upTo : HT80) : State :=
  let (now, later) := (s.ctx k).digQ.partition fun x => htLt x.1 upTo
  let s := s.modCtx k fun c => { c with digQ := later }
  (sortBy digBefore now).foldl (fun s x =>
    let s := s.modCtx k fun c => c.takeEv x.1 x.2
    match x.2 with
    | .edge n f => if s.sync.recCap then let c := s.ctx k; s.record (recCapture n f c.ptag (c.iStep.setWidth 32) (c.ofs x.1)) else s
    | _ => s) s

/-- As the next tick comes, the digest of the active context takes what has happened in this one. -/
def State.takeTick (s : State) : State :=
  s.activeSlot.elim s fun k => s.takeDig k (htOf (s.tick + 1))

-- The capture FIFO (R64, R413).

/-- Capture input `n`. -/
def State.capIn (s : State) (n : Nat) : Capture := s.cap.getD n {}

/-- Apply `f` to capture input `n`. -/
def State.modCapIn (s : State) (n : Nat) (f : Capture → Capture) : State := s.modCap fun l => l.modify n f

/-- An entry enters the FIFO of 64; on a full FIFO the new stamp is dropped and counted. -/
def Capture.push (c : Capture) (e : CapEnt) : Capture :=
  if c.fifo.length ≥ 64 then { c with ovf := satInc c.ovf } else { c with fifo := c.fifo ++ [e] }

-- Replay (R292 to R294).

/-- Is the interval of step `n` being replayed for tag `t`? -/
def Sync.replaying (y : Sync) (t : PTag) (n : BitVec 64) : Bool :=
  match y.replay with
  | some (p, a, b, _) => p == t && a.toNat ≤ n.toNat && n.toNat ≤ b.toNat
  | none => false

/-- R293: inject a recorded CAPTURE at the recorded offset; `clamped` when its instant has passed. An input that is not in
CAP_MASK runs live. -/
def State.inject (s : State) (k : Bool) (input : BitVec 3) (edge : Bool) (ofs : HT80) (clamped : Bool) : State :=
  if !s.sync.capMask.getLsbD input.toNat then s else
  let c := s.ctx k
  let at_ := if clamped then s.stamp else c.iStart + ofs
  let s := s.modCapIn input.toNat fun x => x.push { t := at_, falling := edge, injected := true }
  let s := s.modCtx k fun c => c.fold secE (bytesOf 1 input.toNat ++ bytesOf 1 (if edge then 1 else 0) ++ bytesOf 10 ofs.toNat)
  let s := if s.sync.recCap then s.record (recCapture input edge c.ptag (c.iStep.setWidth 32) ofs) else s
  if clamped then s.modSync fun y => { y with clamp := satInc y.clamp } else s

/-- Steps of two 32-bit step numbers in order, modulo 2^32. -/
def stepLt (a b : BitVec 32) : Bool := a != b && (b - a).toNat < 2 ^ 31

/-- R294: an entry out of order raises the UC. -/
def State.checkOrder (s : State) (k : Bool) (step : BitVec 32) (ofs : Option HT80) : State :=
  let c := s.ctx k
  let late := stepLt step (c.iStep.setWidth 32)
  let back := match ofs, s.sync.lastOfs with
    | some o, some (n, p) => n == step && o.toNat < p.toNat
    | _, _ => false
  if late || back then s.raiseNow (uc 0x0C 0x03) 0 (some c.ptag) (detail [(28, 4, step.toNat)]) else s

/-- The first divergence after REPLAY_START is latched; each raises the CE (R294). -/
def State.diverge (s : State) (k : Bool) (step : BitVec 64) : State :=
  let s := s.modCtx k fun c => { c with divThis := true }
  let s := s.modSync fun y => { y with divStep := some (y.divStep.getD (step.setWidth 32)) }
  s.raiseNow (ce 0x0C 0x04) 0 (some (s.ctx k).ptag) (detail [(28, 4, (step.setWidth 32).toNat)])

/-- R293, R294: at t_arr the captures of the interval that are still to come are injected, before the
digest is taken. `n` bounds the entries looked at. -/
def State.injectRest (s : State) (k : Bool) : Nat → State
  | 0 => s
  | n + 1 =>
    let c := s.ctx k
    match s.sync.replayQ with
    | .capture i e step ofs :: rest =>
      if step = c.iStep.setWidth 32 then
        let s := (s.checkOrder k step (some ofs)).modSync fun y => { y with replayQ := rest, lastOfs := some (step, ofs) }
        (s.inject k i e ofs true).injectRest k n
      else s
    | _ => s

/-- R294: at t_arr, the recorded STEP entry of the interval is compared, or is missing. -/
def State.replayCheck (s : State) (k : Bool) (step : BitVec 64) (d0 : BitVec 64) : State :=
  let c := s.ctx k
  if !s.sync.replaying c.ptag step then s
  else match s.sync.replayQ with
    | .step gv st rd0 rg0 :: rest =>
      if st = step.setWidth 32 then
        let s := s.modSync fun y => { y with replayQ := rest, recG0 := if gv then some (st, rg0) else none }
        if rd0 != d0 then s.diverge k step else s
      else if stepLt st (step.setWidth 32) then s.raiseNow (uc 0x0C 0x03) 0 (some c.ptag) (detail [(28, 4, st.toNat)])
      else s
    | .capture _ _ st _ :: _ => if stepLt st (step.setWidth 32) then s.raiseNow (uc 0x0C 0x03) 0 (some c.ptag) (detail [(28, 4, st.toNat)]) else s
    | [] => s.raiseNow (uc 0x0C 0x02) 0 (some c.ptag) (detail [(28, 4, (step.setWidth 32).toNat)])

/-- R292: after LAST_STEP the Leaf returns to live capture and the descriptor completes. -/
def State.replayEnd (s : State) (step : BitVec 64) : State :=
  match s.sync.replay with
  | some (_, _, b, d) => if step = b then (s.modSync fun y => { y with replay := none, replayQ := [], lastOfs := none }).complete d stDone else s
  | none => s

end Sys2Proof.Machine
end

