-- ==== Sys2Proof/Machine/Lanes.lean ====
section
/-!
DEFINITION. The lanes of the Trellis (06): units and their addresses, frames and slots, the two sets a unit holds, packets
with their credits and arbitration, the hold on the root lanes, and what passes with one host cycle.
-/

namespace Sys2Proof.Machine

-- Units.

/-- The address of the unit of `level` that holds `a`. -/
def unitAddr (level : Level) (a : CellAddr) : CellAddr :=
  match level.toNat with
  | 0 => a
  | 1 => { a with cell := 0 }
  | 2 => { region := a.region, block := 0, cell := 0 }
  | _ => { region := 0, block := 0, cell := 0 }

/-- Does TR_GEOM hold the unit? -/
def State.hasUnit (s : State) (level : Level) (a : CellAddr) : Bool :=
  level = 3 || (a.region.toNat < s.tr.regions.toNat && (level = 2 || (a.block.toNat < s.tr.blocks.toNat &&
    (level = 1 || a.cell.toNat < s.tr.cells.toNat))))

/-- A unit in its reset state, which holds nothing. -/
def TUnit.isReset (u : TUnit) : Bool := u == { level := u.level, addr := u.addr }

/-- A unit. -/
def State.unit (s : State) (level : Level) (a : CellAddr) : TUnit :=
  let u := unitAddr level a
  (s.tr.units.find? fun x => x.level == level && x.addr == u).getD { level := level, addr := u }

/-- Apply `f` to a unit. A unit in its reset state is not listed. -/
def State.modUnit (s : State) (level : Level) (a : CellAddr) (f : TUnit → TUnit) : State :=
  let u := unitAddr level a
  let x := f (s.unit level a)
  let rest := s.tr.units.filter fun y => !(y.level == level && y.addr == u)
  s.modTr fun r => { r with units := if x = { level := level, addr := u } then rest else x :: rest }

/-- Is region `r` seated (R165, R183)? -/
def Trellis.regionSeated (t : Trellis) (r : BitVec 7) : Bool := t.seated.getLsbD r.toNat

/-- Is the unit seated? The Leaf core is the root of every region. -/
def Trellis.unitSeated (t : Trellis) (level : Level) (a : CellAddr) : Bool := level = 3 || t.regionSeated a.region

-- Arrivals that a unit holds (R276).

/-- ARR_CUR of a unit: channels on which its arrival, or a child's, has been counted (R276). -/
def TUnit.arrCur (u : TUnit) : BitVec 16 :=
  u.chans.foldl (fun m x => if x.cur || x.arrived != 0 then setBit m x.chan.toNat else m) 0

/-- ARR_NEXT of a unit. -/
def TUnit.arrNext (u : TUnit) : BitVec 16 := u.chans.foldl (fun m x => if x.next then setBit m x.chan.toNat else m) 0

-- Frames and slots (R167, R169, R170).

/-- First multiple of `m` at or after `x`. -/
def roundUp (m x : Nat) : Nat := (x + m - 1) / m * m

/-- Frame offset of the units of a level, as set at seating: the word latency from the Leaf core to the unit's input (R167,
R184). -/
def Trellis.frameOffset (t : Trellis) (level : Level) : Nat :=
  match level.toNat with
  | 0 => t.lSeat.toNat + t.hPa.toNat + t.hAs.toNat
  | 1 => t.lSeat.toNat + t.hPa.toNat
  | 2 => t.lSeat.toNat
  | _ => 0

/-- The unit's count at host cycle `c` (R163). -/
def TUnit.count (u : TUnit) (c : BitVec 64) : BitVec 12 := c.extractLsb' 0 12 + u.slip

/-- The unit's count less its frame offset, modulo a frame: the place in its frame at host cycle `c` (R167). -/
def Trellis.frameAt (t : Trellis) (u : TUnit) (c : BitVec 64) : Nat := (u.count c - BitVec.ofNat 12 (t.frameOffset u.level)).toNat % 256

/-- The slot that begins at host cycle `c`, if one does. -/
def Trellis.slotAt (t : Trellis) (u : TUnit) (c : BitVec 64) : Option Nat :=
  if t.frameAt u c % 4 = 0 then some (t.frameAt u c / 4) else none

/-- First cycle of the latest S slot `slot` whose D copy has been decoded by cycle `c`: 13 cycles after it (R167, R172). -/
def Trellis.slotStart (t : Trellis) (u : TUnit) (slot : BitVec 6) (c : BitVec 64) : BitVec 64 :=
  let c' := c - 13
  c' - BitVec.ofNat 64 ((t.frameAt u c' + 1024 - 4 * slot.toNat) % 256)

/-- Does odd slot `n` belong to class C (R169, R170)? -/
def slotIsC (map : BitVec 32) (n : Nat) : Bool := map.getLsbD (n / 2)

/-- Does slot `n` carry the class under a map? Even slots belong to S and D. -/
def slotHas (map : BitVec 32) (classU : Bool) (n : Nat) : Bool := n % 2 = 1 && slotIsC map n == !classU

-- The sets of a unit (R181, R182).

/-- LISTEN mask `m`: 0 FIRE, 1 REL, 2 WAKE, 3 WIN. -/
def UnitSet.mask (t : UnitSet) (m : Nat) : BitVec 16 :=
  match m with | 0 => t.fire | 1 => t.rel | 2 => t.wake | _ => t.win

/-- Register indexes of the maps, which the table of R181 does not number. Log entry 31. -/
def ixMapDn : BitVec 7 := 0x10
def ixMapUp : BitVec 7 := 0x11

/-- Index of a unit's dump record (R277), and of the lowest child outstanding on a barrier channel, to which the channel is
added (R213). Log entry 31. -/
def ixDump : BitVec 7 := 0x7F
def ixOutstanding : BitVec 7 := 0x20

/-- A WRITE in the shadow set of a unit of `level` (R181). -/
def UnitSet.write (t : UnitSet) (level : Level) (ix : BitVec 7) (v : BitVec 32) : UnitSet :=
  if ix = ixMapDn then { t with mapDn := v }
  else if ix = ixMapUp then { t with mapUp := v }
  else if level = 1 then (if ix = 0 then { t with trim := v } else t)
  else if level != 0 then t
  else match ix.toNat with
    | 0 => { t with fire := v.setWidth 16 }
    | 1 => { t with rel := v.setWidth 16 }
    | 2 => { t with wake := v.setWidth 16 }
    | 3 => { t with win := v.setWidth 16 }
    | _ => t

/-- A register of a unit's set as a READ shows it. -/
def UnitSet.read (t : UnitSet) (level : Level) (ix : BitVec 7) : BitVec 32 :=
  if ix = ixMapDn then t.mapDn else if ix = ixMapUp then t.mapUp
  else if level = 1 then (if ix = 0 then t.trim else 0)
  else if level != 0 || ix.toNat > 3 then 0
  else (t.mask ix.toNat).setWidth 32

/-- TRIM of trim group `g` (R181). -/
def UnitSet.trimOf (t : UnitSet) (g : Nat) : BitVec 12 := (t.trim.extractLsb' (4 * g) 4).setWidth 12

/-- The switch cycle that a unit has before it, if any: of a SWAP word it has taken, or of a COPY (R182). -/
def Trellis.unitSwitch (t : Trellis) (u : TUnit) : Option (BitVec 64) :=
  match u.swapAt with
  | some c => some c
  | none => match t.switchAt with
    | some (c, false) => some c
    | _ => none

/-- The unit's set that holds on cycle `c` (R182). -/
def Trellis.unitSet (t : Trellis) (u : TUnit) (c : BitVec 64) : UnitSet :=
  if (t.unitSwitch u).elim false fun x => x.toNat ≤ c.toNat then u.setS else u.setA

/-- The slot map of a unit's lane for the frame that it began at cycle `f`: the new one from the first frame begun at or
after the switch cycle (R182). -/
def Trellis.laneMap (t : Trellis) (u : TUnit) (up : Bool) (f : BitVec 64) : BitVec 32 :=
  let pick (d p : BitVec 32) : BitVec 32 := if up then p else d
  if u.level = 3 then
    if t.switchAt.elim false fun x => x.1.toNat ≤ f.toNat then pick t.setS.mapDn t.setS.mapUp
    else if f.toNat < t.switchedAt.toNat then pick t.wasDn t.wasUp else pick t.setA.mapDn t.setA.mapUp
  else if (t.unitSwitch u).elim false fun x => x.toNat ≤ f.toNat then pick u.setS.mapDn u.setS.mapUp
  else if f.toNat < t.switchedAt.toNat then pick u.wasDn u.wasUp else pick u.setA.mapDn u.setA.mapUp

-- Words (R168).

/-- The content of a word. -/
def wordContent (w : BitVec 28) : BitVec 20 := w.extractLsb' 0 20

/-- A word is good when its CRC matches, and stomped when its CRC is the complement. -/
def wordGood (w : BitVec 28) : Bool := w.extractLsb' 20 8 = crc8 (wordContent w)
def wordStomped (w : BitVec 28) : Bool := w.extractLsb' 20 8 = ~~~crc8 (wordContent w)

/-- A word in error or stomped, as a unit passes it on (R173). -/
def stompWord (w : BitVec 28) : BitVec 28 := ~~~crc8 (wordContent w) ++ wordContent w

/-- Symbol `k` of a word with its HOLD bit (R166, R168). -/
def symbolOf (hold : Bool) (w : BitVec 28) (k : Nat) : Byte := (bit hold) ++ (w.extractLsb' (7 * k) 7 : BitVec 7)

-- Packets (R176).

/-- Header word. -/
def pktHeader (kind len : Nat) (level : Level) (scope : BitVec 2 := 0) : BitVec 20 :=
  (0 : BitVec 4) ++ scope ++ level ++ (0 : BitVec 4) ++ BitVec.ofNat 4 len ++ BitVec.ofNat 4 kind

/-- ADDR word. -/
def addrWord (a : CellAddr) (bcast : Bool := false) : BitVec 20 := bit bcast ++ a.cell ++ a.block ++ a.region

/-- The address in an ADDR word. -/
def wordAddr (w : BitVec 20) : CellAddr :=
  { region := w.extractLsb' 0 7, block := w.extractLsb' 7 6, cell := w.extractLsb' 13 6 }

/-- KIND, CRED, LEVEL and SCOPE of a packet. -/
def pktKind (k : Packet) : Nat := (k.header.extractLsb' 0 4).toNat
def pktCred (k : Packet) : Nat := (k.header.extractLsb' 8 4).toNat
def pktLevel (k : Packet) : Level := k.header.extractLsb' 12 2
def pktScope (k : Packet) : Level := k.header.extractLsb' 14 2

/-- Word `i` of a body. -/
def pktWord (k : Packet) (i : Nat) : BitVec 20 := k.body.getD i 0

/-- BCAST of the ADDR word. -/
def pktBcast (k : Packet) : Bool := (pktWord k 0).getLsbD 19

/-- The header with CRED (R177). -/
def withCred (k : Packet) (n : Nat) : Packet :=
  { k with header := (k.header.extractLsb' 12 8 : BitVec 8) ++ BitVec.ofNat 4 n ++ (k.header.extractLsb' 0 8 : BitVec 8) }

/-- The idle word of a class, with the credit it returns (R169, R176). -/
def idlePkt (classU : Bool) (cred : Nat) : Packet := withCred { classU := classU, header := 0, body := [] } cred

-- Queues, credits and arbitration (R177 to R179).

/-- Words of a receiver's buffer for one input lane. -/
def laneBuf (classU : Bool) : Nat := if classU then 32 else 64

/-- A lane of a unit. -/
def TUnit.lane (u : TUnit) (port : Option Byte) (classU : Bool) : TLane :=
  (u.lanes.find? fun l => l.port == port && l.classU == classU).getD { port := port, classU := classU }

/-- Store a lane. A lane in its state after seating is not listed. -/
def TUnit.setLane (u : TUnit) (l : TLane) : TUnit :=
  let rest := u.lanes.filter fun x => !(x.port == l.port && x.classU == l.classU)
  { u with lanes := if l = { port := l.port, classU := l.classU } then rest else rest ++ [l] }

/-- Words that the transmitter holds credit for. -/
def TLane.credit (l : TLane) : Nat := laneBuf l.classU - l.used

/-- Rank of a packet on its lane (R178). Down, packets go in issue order. -/
def pktRank (up : Bool) (k : Packet) : Nat :=
  if !up then 0
  else if k.classU then (match pktKind k with | 4 => 0 | 3 => 1 | 5 => 2 | _ => 3)
  else if pktKind k = 2 then 0 else 1

/-- The order of arbitration: 64 losses before all else, then rank, then child index (R178). -/
def Ready.key (up : Bool) (x : Ready) : Nat :=
  (if x.lost < 64 then 4096 else 0) + 512 * pktRank up x.pkt + x.child.toNat

/-- The ready packet that is first; of equals the one that waits longest. -/
def bestReady (up : Bool) : List Ready → Option Ready
  | [] => none
  | x :: l => match bestReady up l with
    | none => some x
    | some y => if x.key up ≤ y.key up then some x else some y

/-- A packet that starts leaves the buffer of the input lane it came on, once no other copy of it waits; the words it held are
to be given back as credit (R177, R179). -/
def TUnit.leaves (u : TUnit) (up : Bool) (x : Ready) : TUnit :=
  if !x.fwd || u.lanes.any (fun l => l.ready.any fun y => y.fwd && y.num == x.num) then u
  else
    let l := u.lane (if up then some (x.child - 1) else none) x.pkt.classU
    u.setLane { l with freed := l.freed + x.pkt.body.length + 1 }

/-- R177, R178: a slot of its class on an output lane, which begins at cycle `c`. The packet in progress goes on; else the first
of the ready packets starts, if there is credit for every word of it, and the others have lost an arbitration; else the idle
word carries what credit is to be returned. The second component is the header sent, with the words to follow. The ready packet
that is first keeps its place while it lacks credit: DESIGN CHOICE, log entry 56. -/
def TUnit.grant (u : TUnit) (l : TLane) (c : BitVec 64) : TUnit × Option Packet :=
  match l.rest with
  | w :: rest => (u.setLane { l with rest := rest, last := some (c, w) }, none)
  | [] =>
    let up := l.port.isNone
    let cred := min 15 (l.freed / 4)
    let best := (bestReady up l.ready).filter fun x => x.pkt.body.length + 1 ≤ l.credit
    let u := if l.ready.any fun x => x.child == 0 && !x.fwd && some x != best then { u with deferrals := satInc u.deferrals } else u
    let l := { l with freed := l.freed - 4 * cred }
    match best with
    | some x =>
      let k := withCred x.pkt cred
      ((u.setLane { l with ready := (l.ready.erase x).map fun y => { y with lost := y.lost + 1 }
                           rest := k.body, last := some (c, k.header), used := l.used + k.body.length + 1 }).leaves up x, some k)
    | none =>
      if cred = 0 then (u.setLane { l with last := none }, none)
      else (u.setLane { l with last := some (c, (idlePkt l.classU cred).header) }, some (idlePkt l.classU cred))

/-- A packet becomes ready on lanes of a unit: its own with `child` 0 and `fwd` false, or one that came from child `child` − 1
or from the parent. -/
def State.enqueue (s : State) (level : Level) (a : CellAddr) (ports : List (Option Byte)) (child : Byte) (fwd : Bool) (k : Packet) : State :=
  let n := s.tr.pktIx
  (s.modUnit level a fun u => ports.foldl (fun u p =>
      let l := u.lane p k.classU
      u.setLane { l with ready := l.ready ++ [{ pkt := k, child := child, fwd := fwd, num := n }] }) u).modTr fun r =>
    { r with pktIx := n + 1 }

/-- A packet of the unit's own goes toward the parent. -/
def State.sendUp (s : State) (level : Level) (a : CellAddr) (k : Packet) : State := s.enqueue level a [none] 0 false k

/-- A packet of the Leaf core goes to regions. Lanes of regions beyond TR_GEOM carry nothing (R54). -/
def State.sendDown (s : State) (regions : List Nat) (k : Packet) : State :=
  s.enqueue 3 ⟨0, 0, 0⟩ ((regions.filter (· < s.tr.regions.toNat)).map fun r => some (BitVec.ofNat 8 r)) 0 false k

/-- CRED of a header or idle word that arrives on the reverse lane (R177). -/
def State.credited (s : State) (level : Level) (a : CellAddr) (src : Option Byte) (classU : Bool) (cred : Nat) : State :=
  s.modUnit level a fun u => let l := u.lane src classU
    u.setLane { l with used := l.used - 4 * cred }

/-- Words of an input buffer are free again. -/
def State.bufferFreed (s : State) (level : Level) (a : CellAddr) (src : Option Byte) (classU : Bool) (words : Nat) : State :=
  s.modUnit level a fun u => let l := u.lane src classU
    u.setLane { l with freed := l.freed + words }

/-- Does a lane carry traffic: is the region it serves seated (R165, R183)? -/
def Trellis.laneLive (t : Trellis) (level : Level) (a : CellAddr) (port : Option Byte) : Bool :=
  if level = 3 then port.elim false fun r => t.seated.getLsbD r.toNat else t.regionSeated a.region

/-- Cycle `c` on one lane of a unit: a slot of its class may begin. -/
def State.laneCycle (s : State) (c : BitVec 64) (level : Level) (a : CellAddr) (port : Option Byte) (classU : Bool) : State :=
  let u := s.unit level a
  match (s.tr.slotAt u c).filter fun n => s.tr.laneLive level a port && slotHas (s.tr.laneMap u port.isNone (c - BitVec.ofNat 64 (4 * n))) classU n with
  | none => s
  | some _ =>
    let g := u.grant (u.lane port classU) c
    let s := s.modUnit level a fun _ => g.1
    match g.2 with
    | some k => s.emit (.packet level u.addr port k)
    | none => s

/-- Cycle `c` at a unit's up lane: an ARRIVE word that waits goes out in the S slot, and again in the D slot (R172, R175). Its
CYC is the count of the slot's first cycle. -/
def State.upCycle (s : State) (c : BitVec 64) (level : Level) (a : CellAddr) : State :=
  let u := s.unit level a
  match (s.tr.slotAt u c).filter fun _ => s.tr.unitSeated level a with
  | none => s
  | some n =>
    if n % 4 = 0 then
      match u.upQ with
      | [] => s
      | ch :: rest =>
        let w := trellisWord (u.count c ++ ch ++ (1 : BitVec 4))
        (s.modUnit level a fun u => { u with upQ := rest, upD := some w }).emit (.upWord level u.addr c w)
    else if n % 4 = 2 then
      match u.upD with
      | none => s
      | some w => (s.modUnit level a fun u => { u with upD := none }).emit (.upWord level u.addr c w)
    else s

/-- Every lane that holds anything, at cycle `c`. -/
def State.lanesCycle (s : State) (c : BitVec 64) : State :=
  let keys := s.tr.units.flatMap fun u => u.lanes.map fun l => (u.level, u.addr, l.port, l.classU)
  let ups := s.tr.units.filter fun u => !u.upQ.isEmpty || u.upD.isSome
  ups.foldl (fun s u => s.upCycle c u.level u.addr) (keys.foldl (fun s k => s.laneCycle c k.1 k.2.1 k.2.2.1 k.2.2.2) s)

/-- Cycle `c` on the root lanes: the copies whose slot begins go out, and a word both of whose copies are over leaves (R172). -/
def State.rootCycle (s : State) (c : BitVec 64) : State :=
  let now := s.tr.slots.filter fun x => x.1 == c || x.1 + 8 == c
  (now.foldl (fun s x => s.emit (.word c (trellisWord x.2))) s).modTr fun r =>
    { r with slots := r.slots.filter fun x => c.toNat ≤ x.1.toNat + 11 }

-- The hold (R193 to R195).

/-- Down latency of the HOLD bit (R184). -/
def holdDown (lSeat hPa hAs : Nat) : Nat := lSeat + hPa + hAs - 4

/-- The OR of the up lanes as the root lanes carry it on cycle `c`: one cycle after the Leaf core sees it (R193). -/
def Trellis.holdOr (t : Trellis) (c : BitVec 64) : Bool := if t.upHoldAt.toNat < c.toNat then t.upHold != 0 else t.upHoldWas

/-- HOLD on the root lanes on cycle `c`. R195 names seating, UNSEATED and the safe state; the model holds in FAILED too, where
no region is seated. DEDUCED, log entry 54. -/
def State.holdOn (s : State) (c : BitVec 64) : Bool := s.tr.en && (s.tr.seat != .seated || s.fc.safe || s.tr.holdOr c)

/-- HOLD on the root lanes now. -/
def State.holdNow (s : State) : Bool := s.holdOn s.tr.hcc

/-- Note a change of HOLD on cycle `c`. Changes older than any latency go, but for the latest of them. -/
def State.holdCycle (s : State) (c : BitVec 64) : State :=
  let v := s.holdOn c
  s.modTr fun r =>
    if (r.holdLog.head?.map (·.2)).getD false = v then r
    else
      let old (x : BitVec 64 × Bool) : Bool := x.1.toNat + 1024 < c.toNat
      { r with holdLog := (c, v) :: (r.holdLog.takeWhile fun x => !old x) ++ (r.holdLog.dropWhile fun x => !old x).take 1 }

/-- HOLD on the root lanes `back` cycles before cycle `c`. -/
def Trellis.holdBack (t : Trellis) (c : BitVec 64) (back : Nat) : Bool :=
  ((t.holdLog.find? fun x => x.1.toNat + back ≤ c.toNat).map (·.2)).getD false

/-- HOLD at the Stakes on cycle `c` (R184, R193). -/
def Trellis.holdAtStakes (t : Trellis) (c : BitVec 64) : Bool := t.holdBack c (holdDown t.lSeat.toNat t.hPa.toNat t.hAs.toNat)

/-- tr_cell_stall of a Stake in a powered region (R193, R195, R198): 1 while it is unseated. -/
def State.cellStall (s : State) (a : CellAddr) : Bool := !(s.tr.en && s.tr.regionSeated a.region) || s.tr.holdAtStakes s.tr.hcc

/-- Are the cells stalled on cycle `c`: HCELL cycles after tr_cell_stall (R193)? -/
def Trellis.cellsStalled (t : Trellis) (c : BitVec 64) : Bool :=
  t.holdBack c (holdDown t.lSeat.toNat t.hPa.toNat t.hAs.toNat + t.hCell.toNat)

/-- The HOLD bit of a unit toward its parent: its own request or that of a unit below it (R193). -/
def Trellis.holdUp (t : Trellis) (level : Level) (a : CellAddr) : Bool :=
  t.units.any fun u => u.hold && u.level.toNat ≤ level.toNat && unitAddr level u.addr == unitAddr level a

/-- A unit's own request changes; each unit on the way whose HOLD bit changes drives it (R193). -/
def State.requestHold (s : State) (level : Level) (a : CellAddr) (b : Bool) : State :=
  let t := s.modUnit level a fun u => { u with hold := b }
  [0, 1, 2].foldl (fun (x : State) (l : Level) =>
    if level.toNat ≤ l.toNat && s.tr.holdUp l a != t.tr.holdUp l a then x.emit (.hold l (unitAddr l a) (t.tr.holdUp l a)) else x) t

-- The root lanes (R54, R166, R168, R169).

/-- The content on root lane `r` in the slot that began at cycle `st` with number `n` of the frame: a scheduled word or NONE in S
and D slots, the packet's word or the idle word in odd ones. While the region is being seated every slot holds SEAT. -/
def State.rootContent (s : State) (r : Nat) (st : BitVec 64) (n : Nat) : BitVec 20 :=
  let seats := s.tr.seat == .seating && (!s.tr.reseating || s.tr.reseatRegion.toNat = r)
  if seats then (Config.seatWord r st) ++ wSeat
  else if n % 4 = 0 then ((s.tr.slots.find? fun x => x.1 == st).map (·.2)).getD 0
  else if n % 4 = 2 then ((s.tr.slots.find? fun x => x.1 + 8 == st).map (·.2)).getD 0
  else
    let u := s.unit 3 ⟨0, 0, 0⟩
    let l := u.lane (some (BitVec.ofNat 8 r)) (!slotIsC (s.tr.laneMap u false (st - BitVec.ofNat 64 (4 * n))) n)
    match l.last with
    | some (c, w) => if c = st then w else 0
    | none => 0

/-- The symbol that tr_dn_d[r] carries now (R54, R166): low in reset, while PD7 is off, while EN is 0 and beyond TR_GEOM. -/
def State.rootLane (s : State) (r : Nat) : Byte :=
  if !(s.isLeaf && s.alive && s.pdOn 7 && s.tr.en && r < s.tr.regions.toNat) then 0
  else
    let c := s.tr.hcc
    let k := c.toNat % 4
    let st := c - BitVec.ofNat 64 k
    symbolOf s.holdNow (trellisWord (s.rootContent r st (st.toNat / 4 % 64))) k

end Sys2Proof.Machine
end

