-- ==== Sys2Proof/Machine/Reduce.lean ====
section
/-!
DEFINITION. The reduction record (08): slot types, identities and combination, the conversion of a
contribution to FX96 and the FP64 and FP32 forms of a result.
-/

namespace Sys2Proof.Machine

/-- Slot `n` of a record (R247). -/
def recSlot (r : Record) (n : Nat) : BitVec 128 := r.extractLsb' (128 * n) 128

/-- A record from its eight slots. -/
def recOf (f : Nat → BitVec 128) : Record :=
  f 7 ++ f 6 ++ f 5 ++ f 4 ++ f 3 ++ f 2 ++ f 1 ++ f 0

/-- Slot-type code of slot `n` (R232). -/
def slotType (types : BitVec 32) (n : Nat) : BitVec 4 := types.extractLsb' (4 * n) 4

/-- A code of the slot-type table (R247). -/
def typeKnown (t : BitVec 4) : Bool := t.toNat ≤ 7

/-- R248: the numeric order of two FP32 lanes as a key: NaN none, −0 below +0, subnormals at their value. -/
def f32Key (x : BitVec 32) : Option Int :=
  let mag := (x.extractLsb' 0 31).toNat
  if mag > 0x7F800000 then none
  else some (if x.getLsbD 31 then -(mag : Int) - 1 else mag)

/-- R248: the larger (or the smaller) of two lanes; any NaN gives 0x7FC0_0000. -/
def f32Pick (larger : Bool) (a b : BitVec 32) : BitVec 32 :=
  match f32Key a, f32Key b with
  | some x, some y => if (if larger then x ≥ y else x ≤ y) then a else b
  | _, _ => 0x7FC00000

/-- Combination of four FP32 lanes. -/
def f32Lanes (larger : Bool) (a b : BitVec 128) : BitVec 128 :=
  let f (i : Nat) : BitVec 32 := f32Pick larger (a.extractLsb' (32 * i) 32) (b.extractLsb' (32 * i) 32)
  f 3 ++ f 2 ++ f 1 ++ f 0

/-- Addition of two 64-bit lanes (CNT2, DIG2). -/
def addLanes (a b : BitVec 128) : BitVec 128 :=
  (a.extractLsb' 64 64 + b.extractLsb' 64 64) ++ (a.extractLsb' 0 64 + b.extractLsb' 0 64)

/-- A SUMX slot from its parts (R247). -/
def sumxSlot (x : BitVec 96) (s nan : Byte) (sat : BitVec 16) : BitVec 128 := sat ++ nan ++ s ++ x

/-- Fields of a SUMX slot. -/
def sumxX (a : BitVec 128) : BitVec 96 := a.extractLsb' 0 96
def sumxS (a : BitVec 128) : Byte := a.extractLsb' 96 8
def sumxNan (a : BitVec 128) : Byte := a.extractLsb' 104 8
def sumxSat (a : BitVec 128) : BitVec 16 := a.extractLsb' 112 16

/-- R247: combination of two slots of type `t`. -/
def combineSlot (t : BitVec 4) (a b : BitVec 128) : BitVec 128 :=
  match t.toNat with
  | 1 => sumxSlot (sumxX a + sumxX b) (sumxS a) (satNat 8 ((sumxNan a).toNat + (sumxNan b).toNat)) (satNat 16 ((sumxSat a).toNat + (sumxSat b).toNat))
  | 2 => addLanes a b
  | 3 => f32Lanes true a b
  | 4 => f32Lanes false a b
  | 5 => a ||| b
  | 6 => a &&& b
  | 7 => addLanes a b
  | _ => 0

/-- R247: identity of type `t`, with S as armed. -/
def identitySlot (t : BitVec 4) (s : Byte) : BitVec 128 :=
  match t.toNat with
  | 1 => sumxSlot 0 s 0 0
  | 3 => (0xFF800000 : BitVec 32) ++ (0xFF800000 : BitVec 32) ++ (0xFF800000 : BitVec 32) ++ (0xFF800000 : BitVec 32)
  | 4 => (0x7F800000 : BitVec 32) ++ (0x7F800000 : BitVec 32) ++ (0x7F800000 : BitVec 32) ++ (0x7F800000 : BitVec 32)
  | 6 => BitVec.allOnes 128
  | _ => 0

/-- Combination of two records under the round's types. -/
def combineRecord (types : BitVec 32) (a b : Record) : Record :=
  recOf fun n => combineSlot (slotType types n) (recSlot a n) (recSlot b n)

/-- R252: a slot of type NONE counts as 0. -/
def cleanRecord (types : BitVec 32) (a : Record) : Record :=
  recOf fun n => if slotType types n = 0 then 0 else recSlot a n

/-- The record that is every armed slot's identity. `s` holds the S of slot n in byte n. -/
def identityRecord (types : BitVec 32) (s : BitVec 64) : Record :=
  recOf fun n => identitySlot (slotType types n) (s.extractLsb' (8 * n) 8)

/-- R252: a SUMX slot whose byte 12 differs. -/
def scaleMismatch (types : BitVec 32) (a b : Record) : Bool :=
  (List.range 8).any fun n => slotType types n == 1 && sumxS (recSlot a n) != sumxS (recSlot b n)

-- FX96 (R249).

/-- A decoded input: NaN, infinity of a sign, or ± mant · 2^exp. -/
inductive FpVal where
  | nan
  | inf (neg : Bool)
  | num (neg : Bool) (mant : Nat) (exp : Int)
  deriving DecidableEq, Repr

/-- Decode an IEEE 754 binary format with `e` exponent and `m` fraction bits. -/
def decodeIeee (e m : Nat) (raw : Nat) : FpVal :=
  let frac := raw % 2 ^ m
  let ex := raw / 2 ^ m % 2 ^ e
  let neg := raw / 2 ^ (m + e) % 2 == 1
  let bias : Int := 2 ^ (e - 1) - 1
  if ex = 2 ^ e - 1 then (if frac = 0 then .inf neg else .nan)
  else if ex = 0 then .num neg frac (1 - bias - m)
  else .num neg (frac + 2 ^ m) ((ex : Int) - bias - m)

/-- Decode E4M3 of OFP8: no infinities, NaN is S.1111.111 (R249). -/
def decodeE4m3 (raw : Nat) : FpVal :=
  let frac := raw % 8
  let ex := raw / 8 % 16
  let neg := raw / 128 % 2 == 1
  if ex = 15 && frac = 7 then .nan
  else if ex = 0 then .num neg frac (-9)
  else .num neg (frac + 8) ((ex : Int) - 10)

/-- R249: the raw data decoded under a FMT code; none for a reserved code. -/
def decodeFmt (fmt : BitVec 3) (data : BitVec 128) : Option FpVal :=
  match fmt.toNat with
  | 0 => some (decodeIeee 11 52 (data.toNat % 2 ^ 64))
  | 1 => some (decodeIeee 8 23 (data.toNat % 2 ^ 32))
  | 2 => some (decodeIeee 8 7 (data.toNat % 2 ^ 16))
  | 3 => some (decodeIeee 5 10 (data.toNat % 2 ^ 16))
  | 4 => some (decodeE4m3 (data.toNat % 2 ^ 8))
  | 5 => some (decodeIeee 5 2 (data.toNat % 2 ^ 8))
  | _ => none

/-- `n / 2^k` to the nearest integer, ties to even. -/
def roundShift (n k : Nat) : Nat :=
  let q := n / 2 ^ k
  let r := n % 2 ^ k
  if 2 * r < 2 ^ k then q else if 2 * r > 2 ^ k then q + 1 else q + q % 2

/-- ± mant · 2^e to the nearest integer, ties to even. A huge exponent is cut off: the result is then
outside the window whatever it is. -/
def roundNum (mant : Nat) (e : Int) : Nat :=
  if e ≥ 0 then mant * 2 ^ (min e.toNat 100) else roundShift mant (-e).toNat

/-- R249: a contribution converted to FX96, with its NAN and SAT counts. -/
def toFx96 (v : FpVal) (s : Byte) : BitVec 128 :=
  let top : Int := 2 ^ 78 - 1
  match v with
  | .nan => sumxSlot 0 s 1 0
  | .inf neg => sumxSlot (BitVec.ofInt 96 (if neg then -top else top)) s 0 1
  | .num neg mant e =>
    let x := roundNum mant (if mant = 0 then 0 else e + 48 - s.toInt)
    if x ≥ 2 ^ 78 then sumxSlot (BitVec.ofInt 96 (if neg then -top else top)) s 0 1
    else sumxSlot (BitVec.ofInt 96 (if neg then -(x : Int) else x)) s 0 0

/-- Bits of a positive number. -/
def bitLen (n : Nat) : Nat := if n = 0 then 0 else Nat.log2 n + 1

/-- R251: ± n · 2^exp to an IEEE format, nearest-even; overflow gives an infinity. -/
def encodeIeee (e m : Nat) (neg : Bool) (n : Nat) (ex : Int) : Nat :=
  let sign := if neg then 2 ^ (e + m) else 0
  let bias : Int := 2 ^ (e - 1) - 1
  if n = 0 then 0
  else
    -- the exponent of the unit in the last place: normal, or the subnormal one
    let ulp : Int := max (ex + bitLen n - 1 - m) (1 - bias - m)
    let q := if ex ≥ ulp then n * 2 ^ (ex - ulp).toNat else roundShift n (ulp - ex).toNat
    -- rounding up to the next power of two is absorbed by the fields running into each other
    let field : Int := (q : Int) + (if q < 2 ^ m then 0 else (ulp + bias + m - 1) * 2 ^ m)
    if field ≥ (2 ^ e - 1) * 2 ^ m then sign + (2 ^ e - 1) * 2 ^ m else sign + field.toNat

/-- FP64 of a combined SUMX slot (R251). -/
def sumxF64 (a : BitVec 128) : BitVec 64 :=
  let x := (sumxX a).toInt
  BitVec.ofNat 64 (encodeIeee 11 52 (x < 0) x.natAbs ((sumxS a).toInt - 48))

/-- FP32 of a combined SUMX slot (R251). -/
def sumxF32 (a : BitVec 128) : BitVec 32 :=
  let x := (sumxX a).toInt
  BitVec.ofNat 32 (encodeIeee 8 23 (x < 0) x.natAbs ((sumxS a).toInt - 48))

end Sys2Proof.Machine
end

