-- ==== Sys2Proof/Machine/Barriers.lean ====
section
/-!
DEFINITION. Barriers (08): the slot of a node, counting and rounds, the release by time, the local
arrival of a Leaf, acceptance of a release and its results.
-/

namespace Sys2Proof.Machine

-- Participation in barrier channels (R241).

/-- Key of a LISTEN mask: cell address and mask 0 FIRE, 1 REL, 2 WAKE, 3 WIN (R181). -/
def listenKey (region block cell mask : Nat) : Nat := ((region * 64 + block) * 64 + cell) * 4 + mask

/-- LISTEN mask of a Stake in a set. -/
def TrellisSet.mask (t : TrellisSet) (a : CellAddr) (m : Nat) : BitVec 16 :=
  assocGet (listenKey a.region.toNat a.block.toNat a.cell.toNat m) 0xFFFF t.listen

/-- How many cells of keys `lo ≤ key < hi` do not listen to release channel `ch`. -/
def TrellisSet.deaf (t : TrellisSet) (lo hi : Nat) (ch : BitVec 4) : Nat :=
  (t.listen.filter fun x => lo ≤ x.1 && x.1 < hi && x.1 % 4 == 1 && !x.2.getLsbD ch.toNat).length

/-- A region holds a participating cell of channel `ch`. Masks of cells outside TR_GEOM are never written. -/
def Trellis.regionIn (r : Trellis) (region : Nat) (ch : BitVec 4) : Bool :=
  region < r.regions.toNat && r.setA.deaf (region * 16384) ((region + 1) * 16384) ch < r.blocks.toNat * r.cells.toNat

/-- A block holds a participating cell. -/
def Trellis.blockIn (r : Trellis) (region block : Nat) (ch : BitVec 4) : Bool :=
  block < r.blocks.toNat &&
    r.setA.deaf (region * 16384 + block * 256) (region * 16384 + (block + 1) * 256) ch < r.cells.toNat

/-- Bit r: region r takes part in channel `ch`. -/
def Trellis.regionMask (r : Trellis) (ch : BitVec 4) : BitVec 128 :=
  (List.range 128).foldl (fun m k => if r.regionIn k ch then setBit m k else m) 0

-- The slot (R234, R235).

/-- Apply `f` to the slot of barrier `bid` of a partition. -/
def Part.modSlot (p : Part) (bid : Byte) (f : BarSlot → BarSlot) : Part :=
  { p with slots := modFirst (fun x => x.bid == bid) f p.slots }

/-- The slot of barrier `bid`. -/
def Part.slot (p : Part) (bid : Byte) : Option BarSlot := p.slots.find? fun x => x.bid == bid

/-- The slots of a partition at its open (R231, R234). -/
def freshSlots (bidsM1 : Byte) : List BarSlot := (List.range (bidsM1.toNat + 1)).map fun k => { bid := BitVec.ofNat 8 k }

/-- An arrival at a node (R235, R252). `n` is its nominal time at this node (R237). -/
structure Arrival where
  bid : Byte
  round : BitVec 2
  types : BitVec 32
  record : Record
  n : HT80
  /-- port, 0xFF for the local object -/
  src : Byte
  deriving DecidableEq, Repr

/-- Count an arrival for the current or the next round. -/
def BarSlot.count (b : BarSlot) (next : Bool) (a : Arrival) : BarSlot :=
  let r := cleanRecord a.types a.record
  if next then
    let first := b.cntNext = 0
    { b with
      cntNext := b.cntNext + 1, typesNext := if first then a.types else b.typesNext,
      recNext := if first then r else combineRecord b.typesNext b.recNext r, tlNext := if first then a.n else htMax b.tlNext a.n }
  else
    let first := b.cntCur = 0
    { b with
      cntCur := b.cntCur + 1, typesCur := if first then a.types else b.typesCur,
      recCur := if first then r else combineRecord b.typesCur b.recCur r, tlCur := if first then a.n else htMax b.tlCur a.n }

/-- R252: the arrival disagrees with the first one of its round. -/
def BarSlot.disagrees (b : BarSlot) (next : Bool) (a : Arrival) : Bool :=
  let (cnt, ty, r) := if next then (b.cntNext, b.typesNext, b.recNext) else (b.cntCur, b.typesCur, b.recCur)
  cnt != 0 && (ty != a.types || scaleMismatch ty r (cleanRecord a.types a.record))

/-- R236 step 3: CUR + 1, the CUR fields take the NEXT fields. -/
def BarSlot.advance (b : BarSlot) : BarSlot :=
  { bid := b.bid, cur := b.cur + 1, cntCur := b.cntNext, cntNext := 0, typesCur := b.typesNext, typesNext := 0,
    recCur := b.recNext, recNext := 0, tlCur := b.tlNext, tlNext := 0, sent := false, misuse := b.misuse }

/-- R238: the release tick from T_last, t_c and D_max, 2^-16 ns. -/
def releaseTime (tLast tc : HT80) (dMax : BitVec 32) (red : Bool) : HT80 :=
  let u : Nat := (htDiff tc tLast).toNat
  let q : Nat := 32 * 65536
  let k := if u ≤ q then 0 else (u - q + (q - 1)) / q
  htAdd tLast (dMax.toNat + (if red then 64 else 0) + 32 * k)

-- The member's side.

/-- The arming of barrier `bid` in a context. -/
def Ctx.arm (c : Ctx) (bid : Byte) : Option Arm := c.arms.find? fun a => a.bid == bid

/-- The step barrier's arming. -/
def Ctx.stepArm (c : Ctx) : Option Arm := c.arms.find? fun a => a.step

/-- The digest slot: the lowest-numbered DIG2 slot of the step barrier (R285). -/
def Ctx.digestSlot (c : Ctx) : Option Nat :=
  match c.stepArm with
  | some a => (List.range 8).find? fun n => slotType a.types n == 7
  | none => none

/-- S of slot `n` as armed. -/
def Arm.s8 (a : Arm) (n : Nat) : Byte := a.s.extractLsb' (8 * n) 8

/-- FMT and RES of slot `n` (R309). -/
def Arm.fmt (a : Arm) (n : Nat) : BitVec 3 := a.cfg.extractLsb' (8 * n) 3
def Arm.res (a : Arm) (n : Nat) : BitVec 2 := a.cfg.extractLsb' (8 * n + 3) 2

/-- Channel state of the Leaf core. -/
def Ctx.chan (c : Ctx) (ch : BitVec 4) : ChanSt := (c.chans.find? fun x => x.chan == ch).getD { chan := ch }

/-- R244: the Leaf core fills its record: the slot's combined contribution, or its identity. -/
def Ctx.localRecord (c : Ctx) (a : Arm) : Record :=
  let ch := c.chan a.chan
  recOf fun n => match ch.slots.find? fun x => x.slot.toNat == n with
    | some x => if slotType a.types n = 0 then 0 else x.data
    | none => identitySlot (slotType a.types n) (a.s8 n)

/-- Put D0 and D1 into the digest slot (R285). -/
def withDigest (r : Record) (slot : Nat) (d0 d1 : BitVec 64) : Record :=
  recOf fun n => if n = slot then d1 ++ d0 else recSlot r n

/-- Bytes 22 to 31 of a completion record from (offset from byte 22, width in bytes, value). -/
def det10 (l : List (Nat × Nat × Nat)) : BitVec 80 :=
  l.foldl (fun d (k, w, v) => d ||| BitVec.ofNat 80 ((v % 256 ^ w) <<< (8 * (k - 22)))) 0

/-- R255: the 256-byte result area, as four 64-byte writes. They belong to ring 2, which does no more traffic once it has halted
(R51, R303). -/
def State.writeArea (s : State) (a : Arm) (r : Rel) : State :=
  let w : Nat :=
    r.record.toNat
    + ((List.range 8).map fun n => if slotType a.types n = 1 then (sumxF64 (recSlot r.record n)).toNat <<< (8 * (128 + 8 * n)) else 0).sum
    + ((List.range 8).map fun n => if slotType a.types n = 1 then (sumxF32 (recSlot r.record n)).toNat <<< (8 * (192 + 4 * n)) else 0).sum
    + r.tApex.toNat <<< (8 * 224) + r.j.toNat <<< (8 * 234) + r.round.toNat <<< (8 * 236) + a.bid.toNat <<< (8 * 240)
  if (s.ring 2).st == .halted then s
  else (List.range 4).foldl (fun s k => s.hmIssue
    { kind := .area, write := true, addr := a.resultAddr + BitVec.ofNat 64 (64 * k), beats := 4, data := BitVec.ofNat 512 (w >>> (512 * k)) }) s

/-- A RESULT packet: KIND 3, LEN 8 (R176, R245). -/
def resultPkt (ctl : BitVec 20) (data : BitVec 128) : Packet :=
  { classU := false, header := pktHeader 3 8 0, body := ctl :: (List.range 7).map fun i => data.extractLsb' (20 * i) 20 }

/-- R245: RESULT packets to the cells, one for each slot whose RES is not 0, to the regions that take part. The Trellis root
drives nothing while PD7 is off (R40). -/
def State.sendResults (s : State) (a : Arm) (rec : Record) : State :=
  (List.range 8).foldl (fun s n =>
    if a.res n = 0 || !a.chanEn || !s.pdOn 7 then s
    else
      let slot := recSlot rec n
      let data : BitVec 128 := if a.res n = 2 then (sumxF64 slot).setWidth 128 else if a.res n = 3 then (sumxF32 slot).setWidth 128 else slot
      let form : BitVec 2 := a.res n - 1
      let ctl : BitVec 20 := (0 : BitVec 11) ++ form ++ BitVec.ofNat 3 n ++ a.chan
      s.sendDown ((List.range 128).filter fun r => (s.tr.regionMask a.chan).getLsbD r) (resultPkt ctl data)) s

/-- The full round count at which slot `k` stands for barrier `bid`: VALUE of its object. -/
def State.roundOf (s : State) (k : Bool) (bid : Byte) : BitVec 32 := (s.obj k bid.toNat).value

/-- R207, R226: entries that wait for this release get their due time. -/
def Band.resolve (b : Band) (ptag : PTag) (bid : Byte) (round : BitVec 32) (t : HT80) : Band :=
  { b with table := b.table.map fun e =>
      if e.ptag = ptag && !e.node && e.rel && !e.resolved && e.relBid = bid && e.relRound = round then
        { e with t := htAdd t e.ofs.toNat, resolved := true } else e }

/-- R286, R288: what the acceptance of a step barrier's release does to the member's digests. -/
def State.acceptDigest (s : State) (k : Bool) (rec : Record) : State :=
  let c := s.ctx k
  match c.digestSlot with
  | none => s.modCtx k fun c => { c with gPrev := c.d0, firstStep := false }
  | some n =>
    let g0 := (recSlot rec n).extractLsb' 0 64
    let g1 := (recSlot rec n).extractLsb' 64 64
    let want := BitVec.ofNat 64 (c.rankCnt.toNat * (hashZ (bytesOf 8 c.p.toNat)).toNat)
    let s := s.modCtx k fun c => { c with gPrev := g0, g0 := g0, g1 := g1, firstStep := false, prov := c.firstStep && g1 == want }
    if c.firstStep && g1 != want then
      (s.modSync fun y => { y with provMm := true }).raiseNow (uc 0x0C 0x01) 0 (some c.ptag) c.p
    else s

/-- R239: the member accepts a release on this tick. -/
def State.acceptRelease (s : State) (k : Bool) (bid : Byte) (t : HT80) (red : Bool) (rec : Record) : State :=
  let s := s.expireObj k bid.toNat
  let c := s.ctx k
  match c.arm bid with
  | none => s
  | some a =>
    let round := s.roundOf k bid
    let floor : Nat := (s.lTr + 20) * 65536
    let lead := htDiff t s.stamp
    let j : Nat := if lead ≥ floor then 0 else ((floor - lead).toNat + 32 * 65536 - 1) / (32 * 65536)
    let r : Rel := { bid := bid, round := round, tApex := t, t := htAdd t (32 * j), j := satNat 16 j, red := red, record := rec }
    let s := s.modCtx k fun c => { c with rels := c.rels ++ [r] }
    -- a release accepted at or before DEADLINE is on time (R20, R265)
    let s := s.setObj k bid.toNat { s.obj k bid.toNat with deadline := 0 }
    let s := if a.step then s.acceptDigest k rec else s
    let parks := s.band.table.any fun e => e.action == .park && e.ptag == c.ptag && !e.resolved && e.relBid == bid && e.relRound == round
    let s := s.modBand fun b => b.resolve c.ptag bid round r.t
    let s := if parks then s.askWord r.t wPark 0 c.ptag else s
    let s := if c.st = .active && a.chanEn then s.askWord r.t wRelease a.chan c.ptag else s
    let s := if red then s.sendResults a rec else s
    if a.resultAddr = 0 then s else s.writeArea a r

/-- The release flit. -/
def releaseMsg (t : PTag) (b : BarSlot) (tRel : HT80) : BarMsg :=
  let red := b.typesCur != 0
  { ptag := t, bid := b.bid, round := b.cur, t := tRel, types := b.typesCur, record := if red then b.recCur else 0, red := red }

/-- R236 steps 2 and 3: forward a release on every barrier-child port, let the member accept it, advance. -/
def State.passRelease (s : State) (t : PTag) (m : BarMsg) : State :=
  match s.part t with
  | none => s
  | some p =>
    let s := s.sendOn p.act.children 5 (.release m)
    let s := match s.slotOf t with
      | some k => s.acceptRelease k m.bid m.t m.red m.record
      | none => s
    s.modPart t fun p => p.modSlot m.bid BarSlot.advance

/-- R236 steps 1 and 4, R238: a complete count sends the arrival up, or releases at the apex; a round
already complete after the advance follows at once. -/
def State.completeRound (s : State) (t : PTag) (bid : Byte) (tc : HT80) : Nat → State
  | 0 => s
  | n + 1 =>
    match s.part t with
    | none => s
    | some p =>
      match p.slot bid with
      | none => s
      | some b =>
        if b.sent || b.cntCur != p.act.expArr || b.cntCur = 0 then s
        else
          let s := s.modPart t fun p => p.modSlot bid fun b => { b with sent := true }
          if p.act.apex then
            let m := releaseMsg t b (releaseTime b.tlCur tc p.act.dMax (b.typesCur != 0))
            (s.passRelease t m).completeRound t bid s.stamp n
          else match p.act.upPort with
            | some u => s.send u 6 (.arrive { releaseMsg t b b.tlCur with t := b.tlCur })
            | none => s

/-- R235: classify and count an arrival. -/
def State.arriveAt (s : State) (t : PTag) (a : Arrival) (tc : HT80) : State :=
  match s.part t with
  | none => s
  | some p =>
    match p.slot a.bid with
    | none => s
    | some b =>
      let d := (a.round - b.cur).toNat
      let next := d = 1
      let full := (if next then b.cntNext else b.cntCur).toNat + 1 > p.act.expArr.toNat
      if d ≥ 2 || full then s.modPart t fun p => p.modSlot a.bid fun b => { b with misuse := satInc b.misuse }
      else if b.disagrees next a then
        s.raiseNow (uc 0x0A 0x02) 0 (some t) (detail [(24, 1, a.bid.toNat), (25, 1, a.src.toNat), (28, 4, a.types.toNat)])
      else
        (s.modPart t fun p => p.modSlot a.bid fun b => b.count next a).completeRound t a.bid tc 4

/-- Forwarding time F in ns (R237). -/
def fwdNs (red : Bool) : Nat := if red then 38 else 30

/-- R237: the time of an arrival received on a port: N at the apex, N + F elsewhere. -/
def State.nominal (s : State) (p : Part) (port : PortNo) (m : BarMsg) : HT80 :=
  let n := m.t + ((s.port port).delay.setWidth 80)
  if p.act.apex then n else htAdd n (fwdNs m.red)

-- The local arrival (R211, R212, R242, R265, R280 to R285).

/-- R32: the first step begins on the open tick, or T_res, if t_arr comes before any LAUNCH. -/
def Ctx.startStep (c : Ctx) (t : Tick) : Ctx := { c with tStart := some (c.tStart.getD t) }

/-- R211, R212: t_arr of the step barrier; SLACK, the digests, the replay checks. -/
def State.stepArrive (s : State) (k : Bool) : State :=
  -- what is stamped before t_arr belongs to the interval that ends; the rest to the next one (R280)
  let s := (s.takeDig k (htOf s.tick)).injectRest k s.sync.replayQ.length
  let c := s.ctx k
  let tA := s.tick
  let start := (c.tStart.filter fun t => tickLe t tA).getD (htInt c.iStart)
  let n := c.iStep
  let s := s.modCtx k fun c => { c with rep := s.sync.replaying c.ptag n }
  let s := s.modCtx k fun c => { (c.closeInterval tA) with tStart := some start, tArr := some tA, lastArr := some tA }
  let s := s.replayCheck k n (s.ctx k).d0
  let s := s.replayEnd n
  s.modBand fun b => { b with descent := if b.envA.en then some (tA + BitVec.ofNat 64 (b.envA.dwell.toNat * 1000)) else b.descent }

/-- SLACK of a step in signed ns (R212); all quantities are whole ticks. -/
def slackOf (start tArr : Tick) (budget : BitVec 32) : Int := (start - tArr).toInt + budget.toNat

/-- R242, R265: the object's local arrival is complete: it feeds the Leaf's own barrier slot. -/
def State.localArrive (s : State) (k : Bool) (bid : Byte) : State :=
  let c := s.ctx k
  match c.arm bid with
  | none => s
  | some a =>
    let o := s.obj k bid.toNat
    if o.localDone || c.st != .active then s
    else
      let s := s.setObj k bid.toNat { o with localDone := true }
      let s := if a.step then s.stepArrive k else s
      let c := s.ctx k
      let rec0 := c.localRecord a
      let rec1 := match (if a.step then c.digestSlot else none) with
        | some n => withDigest rec0 n c.d0 c.d1
        | none => rec0
      let s := s.modCtx k fun c => { c with chans := c.chans.filter fun x => !(a.chanEn && x.chan == a.chan) }
      s.arriveAt c.ptag { bid := bid, round := o.value.extractLsb' 0 2, types := a.types, record := if a.types = 0 then 0 else rec1, n := s.stamp, src := 0xFF } s.stamp

/-- R242, R265: check whether the local arrival of barrier `bid` is complete. -/
def State.checkLocal (s : State) (k : Bool) (bid : Byte) : State :=
  let c := s.ctx k
  match c.arm bid with
  | none => s
  | some a =>
    let o := s.obj k bid.toNat
    let done := if a.chanEn then
        let want := s.tr.regionMask a.chan
        want != 0 && ((c.chan a.chan).arrived &&& want) == want
      else o.hostCur
    if done && !o.localDone then s.localArrive k bid else s

-- The object engine over the state (R258, R260 to R263, R266 to R270).

/-- R260: misuse: dropped, counted, and the CE. `src` 0 cell, 1 sync window, 2 remote, 3 tick table. -/
def State.objMisuse (s : State) (k : Bool) (o : Nat) (op : Byte) (src : Nat) (rank : BitVec 32) : State :=
  (s.modSync fun y => { y with ops := satInc y.ops }).raiseNow (ce 0x0B 0x01) 0 (some (s.ctx k).ptag)
    (detail [(24, 2, o), (26, 1, op.toNat), (27, 1, src), (28, 4, if src = 2 then rank.toNat else 0)])

/-- R260: an operation reaches the object engine. In an ENDED slot nothing applies (R258), and none reaches a slot that is no
longer ACTIVE (R272). A deadline that the stamp has passed comes first (R20, R263). Another operation than POST and SUB from another
node is misuse: DEDUCED, log entry 57. -/
def State.objOp (s : State) (k : Bool) (o : Nat) (op : Byte) (operand : BitVec 32) (src : Nat) (rank : BitVec 32 := 0) : State :=
  let c := s.ctx k
  if c.st = .ended then s.modSync fun y => { y with stale := satInc y.stale }
  else if c.st != .active then s.modSync fun y => { y with noctx := satInc y.noctx }
  else
    let s := s.expireObj k o
    let r := (s.obj k o).apply op operand s.stamp
    if r.misuse || (src = 2 && !opRemote op) then s.objMisuse k o op src rank
    else
      let s := s.setObj k o r.obj
      let s := if r.rise then (s.modCtx k fun c => c.note s.stamp (.double (BitVec.ofNat 12 o))).modSync
          fun y => { y with rises := satInc y.rises } else s
      let s := if r.stopped then s.dropTimerWake o else s
      let s := if r.started then s.askTimerWake o r.obj else s
      let s := if r.wake then s.wake r.obj.wchan else s
      if r.arrived then s.checkLocal k (BitVec.ofNat 8 o) else s

/-- Order of the sources of one tick (R263): remote SIGNALs, POST packets, sync-window posts. -/
def PostEv.order (e : PostEv) : Nat := if e.src = 2 then 0 else if e.src = 0 then 1 else 2

/-- A post reaches the engine; its turn comes when the posts of the tick are all in (R263). -/
def State.post (s : State) (e : PostEv) : State := s.modSync fun y => { y with posts := y.posts ++ [e] }

/-- R263, R268: the posts of the tick are applied, remote SIGNALs first, each source in order of acceptance. -/
def State.applyPosts (s : State) : State :=
  let l := sortBy (fun a b => decide (a.order ≤ b.order)) s.sync.posts
  l.foldl (fun s e => s.objOp e.slot e.obj e.op e.operand e.src e.rank) (s.modSync fun y => { y with posts := [] })

/-- Every deadline of the slot that has passed expires. -/
def State.expireAll (s : State) (k : Bool) : State := (s.ctx k).objs.foldl (fun s o => s.expireObj k o.1) s

end Sys2Proof.Machine
end

