-- ==== Sys2Proof/Machine/Trellis.lean ====
section
/-!
DEFINITION. The Trellis (06): scheduled words from the Leaf core to the Stakes, packets, arrivals and
contributions inside the host chip (R241 to R246), the two sets, seating, stretch, the chip-wide hold
and the faults of each level.
-/

namespace Sys2Proof.Machine

-- Units.

/-- Channel state of a unit. -/
def TUnit.chan (u : TUnit) (ch : BitVec 4) : ChanSt := (u.chans.find? fun x => x.chan == ch).getD { chan := ch }

/-- Store channel state; a channel in its reset state is not listed. -/
def setChan (x : ChanSt) (l : List ChanSt) : List ChanSt :=
  let rest := l.filter fun y => y.chan != x.chan
  if x = { chan := x.chan } then rest else x :: rest

/-- The partition whose context is active on the Leaf (R197). -/
def State.activeTag (s : State) : Option PTag := s.activeSlot.map fun k => (s.ctx k).ptag

/-- The Trellis and the Bandstand run: PD7 is on, and the node is neither safe nor failing (R335, R349). -/
def State.bandRuns (s : State) : Bool := s.isLeaf && s.pdOn 7 && !s.fc.safe && !s.pw.pfail

/-- The Trellis becomes UNSEATED (R165, R197); FAIL_REGION is the lowest region named while it is. The units of the other
regions stay seated. DEDUCED, log entry 54. -/
def State.unseat (s : State) (region : BitVec 7 := 0) : State :=
  s.modTr fun r => { r with
    seat := .unseated, reseating := false
    failRegion := if r.seat = .unseated && r.failRegion.toNat < region.toNat then r.failRegion else region }

/-- A region is switched off, or its lane is lost (R165): its units lose all they hold, and it carries no traffic until it is
seated again. -/
def State.loseRegion (s : State) (g : BitVec 7) : State :=
  (s.modTr fun r => { r with
    seated := setBit r.seated g.toNat false
    units := (r.units.filter fun u => u.level = 3 || u.addr.region != g).map fun u =>
      if u.level = 3 then { u with lanes := u.lanes.filter fun l => l.port != some (g.setWidth 8) } else u }).unseat g

-- Bodies of packets (R243, R266).

/-- A CONTRIB packet (R243); with no contribution it is EMPTY. -/
def contribPkt (ch : BitVec 4) (c : Option Contrib) (last conv : Bool) : Packet :=
  match c with
  | none => { classU := false, header := pktHeader 1 1 3,
              body := [(0 : BitVec 4) ++ (1 : BitVec 1) ++ bit last ++ (0 : BitVec 10) ++ ch] }
  | some c =>
    { classU := false, header := pktHeader 1 9 3,
      body := [(0 : BitVec 5) ++ bit last ++ c.fmt ++ c.type ++ c.slot ++ ch, (0 : BitVec 11) ++ bit conv ++ c.s] ++
        (List.range 7).map fun i => c.data.extractLsb' (20 * i) 20 }

/-- The 128 data bits that begin in body word `i` (R243, R245). -/
def pktData (k : Packet) (i : Nat) : BitVec 128 :=
  let d : BitVec 140 := pktWord k (i + 6) ++ pktWord k (i + 5) ++ pktWord k (i + 4) ++ pktWord k (i + 3) ++ pktWord k (i + 2) ++ pktWord k (i + 1) ++ pktWord k i
  d.setWidth 128

/-- The contribution in a CONTRIB packet. -/
def pktContrib (k : Packet) : Contrib :=
  let w := pktWord k 0
  { slot := w.extractLsb' 4 3, type := w.extractLsb' 7 4, fmt := w.extractLsb' 11 3, s := (pktWord k 1).extractLsb' 0 8, data := pktData k 2 }

/-- CONTRIB word 1 [14], [15]. -/
def pktLast (k : Packet) : Bool := (pktWord k 0).getLsbD 14
def pktEmpty (k : Packet) : Bool := (pktWord k 0).getLsbD 15

/-- The four words of a POST packet's content (R266). -/
def postPkt (obj : BitVec 12) (op : Byte) (v : BitVec 32) : Packet :=
  { classU := false, header := pktHeader 2 3 3,
    body := [op ++ obj, v.extractLsb' 0 20, (0 : BitVec 8) ++ v.extractLsb' 20 12] }

-- Faults of the units (R197, R323).

/-- A unit below the Leaf core detects a fault: FIRST, OVF, the queue of two, the ERROR packet. The Leaf
core itself reports to the collector directly. -/
def State.unitFault (s : State) (level : Level) (a : CellAddr) (code : BitVec 16) (det : BitVec 64 := 0) : State :=
  if level = 3 then s.raiseNow code 0 s.activeTag det
  else
    let u := unitAddr level a
    let n := (s.unit level a).queued.length
    let ov := (s.unit level a).ovf || (s.unit level a).first != 0
    let s := s.modUnit level a fun x => { x with
      first := (if x.first = 0 then code else x.first), ovf := ov, queued := (if n < 2 then x.queued ++ [(code, det)] else x.queued) }
    if n < 2 then
      s.sendUp level u {
        classU := true, header := pktHeader 4 3 3
        body := [(0 : BitVec 3) ++ bit ov ++ code, addrWord u, (0 : BitVec 8) ++ (s.unit level a).count s.tr.hcc] }
    else s

/-- The error pair of a unit toward its parent (R196): true and complement rail; a report is pending while it reads 1 and 0. -/
def TUnit.errPair (u : TUnit) : Bool × Bool := (!u.queued.isEmpty, u.queued.isEmpty)

-- Sending scheduled words (R175, R187).

/-- First cycle of the S slot that a word ready on `ready` gets. -/
def Trellis.nextSlot (r : Trellis) (ready : Nat) : Nat :=
  max (roundUp 16 ready) (if r.lastSlot = 0 then 0 else r.lastSlot.toNat + 16)

/-- R175: SWAP first, then PARK, then the others in ascending CODE. -/
def codeRank (c : BitVec 4) : Nat := if c = wSwap then 0 else if c = wPark then 1 else 2 + c.toNat

/-- Put a content before the ones that its code precedes. -/
def insertRanked (w : BitVec 20) : List (BitVec 20) → List (BitVec 20)
  | [] => [w]
  | x :: l => if codeRank (w.extractLsb' 0 4) < codeRank (x.extractLsb' 0 4) then w :: x :: l else x :: insertRanked w l

/-- A word takes the S slot `start`. Among the words of one effective cycle whose slots have not begun, the order of R175 is kept:
the slots stay, and the contents are dealt to them in order. -/
def Trellis.allot (r : Trellis) (start : BitVec 64) (w : BitVec 20) : Trellis :=
  let same (x : BitVec 64 × BitVec 20) : Bool :=
    r.hcc.toNat < x.1.toNat && x.2.extractLsb' 8 12 == (w.extractLsb' 8 12 : BitVec 12) && x.2.extractLsb' 0 4 != wCheck
  let mine := r.slots.filter same
  { r with
    lastSlot := start
    slots := r.slots.filter (fun x => !same x) ++ ((mine.map (·.1)) ++ [start]).zip (insertRanked w (mine.map (·.2))) }

/-- R187: sample C_now, compute C_fire and send the word, or report the overrun of R175. A SWAP word
fixes the switch cycle (R182). The second component tells whether it was sent. -/
def State.sendWord (s : State) (x : Act) : State × Bool :=
  let r := s.tr
  let now := r.hcc.toNat + 1
  let fire := now + r.k.toNat
  let start := r.nextSlot (now + 2)
  if start + (13 + r.lSeat.toNat + r.hPa.toNat + r.hAs.toNat) ≤ fire then
    let f := BitVec.ofNat 64 fire
    (s.modTr fun r => { r.allot (BitVec.ofNat 64 start) (f.extractLsb' 0 12 ++ x.arg ++ x.code) with
        sent := r.sent ++ [(f, x)]
        switchAt := if x.code = wSwap then some (BitVec.ofNat 64 (roundUp 256 fire), true) else r.switchAt }, true)
  else (s.raiseNow (faultCode 2 3 6 5) 0 s.activeTag (detail [(24, 1, x.code.toNat), (25, 1, x.arg.toNat)]), false)

/-- Sampling tick of a word for T (R187). -/
def State.sampleTick (s : State) (t : HT80) : Tick := dueTick (htSub t s.lTr)

/-- (`t`, `c`) precedes (`t'`, `c'`) in the order of R175. -/
def actBefore (t : Tick) (c : BitVec 4) (t' : Tick) (c' : BitVec 4) : Bool :=
  tickLt t t' || (t == t' && codeRank c < codeRank c')

/-- No word that is due precedes a word of code `c` sampled on tick `t`. -/
def State.wordTurn (s : State) (t : Tick) (c : BitVec 4) : Bool :=
  !(s.tr.acts.any fun a => actBefore (s.sampleTick a.t) a.code t c) &&
  !(s.band.table.any fun e => e.action == .launch && e.resolved && actBefore (s.sampleTick e.t) wFire t c)

/-- TRELLIS_ACTION_SAMPLE (R175, R187): on the due tick of T − L_tr. While the Trellis is not seated the
lanes carry no word (R183). -/
def State.actionSample (s : State) (ix : BitVec 32) : State :=
  match s.tr.acts.find? fun a => a.ix == ix with
  | none => s
  | some a =>
    if s.bandRuns && s.isDue (s.sampleTick a.t) && s.wordTurn (s.sampleTick a.t) a.code then
      let s := s.modTr fun r => { r with acts := r.acts.filter fun b => b.ix != ix }
      if s.tr.seat = .seated then (s.sendWord a).1 else s
    else s

-- Participation below the Leaf core (R241).

/-- Children of a unit that take part in channel `ch`. -/
def Trellis.childMask (r : Trellis) (level : Level) (a : CellAddr) (ch : BitVec 4) : BitVec 128 :=
  match level.toNat with
  | 1 => (List.range r.cells.toNat).foldl (fun m k => if (r.setA.mask { a with cell := BitVec.ofNat 6 k } 1).getLsbD ch.toNat then setBit m k else m) 0
  | 2 => (List.range r.blocks.toNat).foldl (fun m k => if r.blockIn a.region.toNat k ch then setBit m k else m) 0
  | _ => r.regionMask ch

/-- Does the cell take part in channel `ch`, by its Stake's active set (R241)? -/
def State.cellIn (s : State) (a : CellAddr) (ch : BitVec 4) : Bool := (s.tr.unitSet (s.unit 0 a) s.tr.hcc).rel.getLsbD ch.toNat

-- Combining (R242 to R244).

/-- Two packets of one slot combine when TYPE, FMT and S agree (R244). -/
def addContrib (c : Contrib) (l : List Contrib) : Option (List Contrib) :=
  match l.find? fun o => o.slot == c.slot with
  | none => some ((l.takeWhile fun o => o.slot.toNat < c.slot.toNat) ++ [c] ++ l.dropWhile fun o => o.slot.toNat < c.slot.toNat)
  | some o =>
    if o.type = c.type && o.fmt = c.fmt && o.s = c.s then
      some (l.map fun x => if x.slot == c.slot then { x with data := combineSlot c.type x.data c.data } else x)
    else none

/-- A unit's own arrival on a channel, as an ARRIVE word for its next S slot (R172, R242). -/
def State.arriveUp (s : State) (level : Level) (a : CellAddr) (ch : BitVec 4) : State :=
  s.modUnit level a fun u => { u with upQ := u.upQ ++ [ch] }

/-- R242: every participating child has arrived: the unit sends its own arrival and clears the channel. -/
def State.unitComplete (s : State) (level : Level) (a : CellAddr) (ch : BitVec 4) : State :=
  let want := s.tr.childMask level a ch
  let x := (s.unit level a).chan ch
  if want != 0 && (x.arrived &&& want) == want then
    let u := unitAddr level a
    let s := s.modUnit level a fun t => { t with chans := setChan { chan := ch } t.chans }
    if x.slots.isEmpty then s.arriveUp level u ch
    else (x.slots.foldl (fun s c => s.sendUp level u (contribPkt ch (some c) false true)) s).sendUp level u (contribPkt ch none true true)
  else s

/-- A child of an Arbor or a Pergola has arrived on a channel. -/
def State.unitArrive (s : State) (level : Level) (a : CellAddr) (child : Nat) (ch : BitVec 4) : State :=
  (s.modUnit level a fun t => let x := t.chan ch
    { t with chans := setChan { x with arrived := setBit x.arrived child } t.chans }).unitComplete level a ch

/-- "reduction type mismatch" at a unit below the Leaf core (R244). -/
def State.unitMismatch (s : State) (level : Level) (a : CellAddr) (c : Contrib) : State :=
  s.unitFault level a (faultCode 2 level.toNat 0x0A 2) (detail [(25, 1, 0xFF), (28, 4, c.type.toNat <<< (4 * c.slot.toNat))])

/-- A CONTRIB reaches an Arbor or a Pergola. -/
def State.unitContrib (s : State) (level : Level) (a : CellAddr) (child : Nat) (k : Packet) : State :=
  let ch := (pktWord k 0).extractLsb' 0 4
  let s :=
    if (pktEmpty k) then s
    else match addContrib (pktContrib k) ((s.unit level a).chan ch).slots with
      | some l => s.modUnit level a fun t => { t with chans := setChan { t.chan ch with slots := l } t.chans }
      | none => s.unitMismatch level a (pktContrib k)
  if (pktLast k) then s.unitArrive level a child ch else s

/-- The armed BARRIER object of the active context that takes channel `ch` (R242). -/
def Ctx.chanArm (c : Ctx) (ch : BitVec 4) : Option Arm := c.arms.find? fun a => a.chanEn && a.chan == ch

/-- Count a dropped arrival: no active context, or no object of the channel (R242). -/
def State.dropNoctx (s : State) : State := s.modSync fun y => { y with noctx := satInc y.noctx }
def State.dropOps (s : State) : State := s.modSync fun y => { y with ops := satInc y.ops }

/-- Add a term to W_r while REC_REGION is 1 (R290). What comes after the local arrival belongs to the next round. The arrival that
completes a round counts in the interval it ends: DEDUCED, log entry 57. -/
def State.regionTerm (s : State) (k : Bool) (r : Nat) (bid : Byte) (slot : Byte) (data : BitVec 128) : State :=
  if s.sync.recRegion then s.modCtx k fun c => c.addRegion r bid (s.roundOf k bid + if (s.obj k bid.toNat).localDone then 1 else 0) slot data else s

/-- A region's arrival reaches the Leaf core (R242, R290). `word` tells an ARRIVE word from a LAST packet. -/
def State.leafArrive (s : State) (r : Nat) (ch : BitVec 4) (word : Bool) : State :=
  match s.activeSlot with
  | none => s.dropNoctx
  | some k =>
    match (s.ctx k).chanArm ch with
    | none => s.dropOps
    | some a =>
      let s := if word then s.regionTerm k r a.bid 0xFF 0 else s
      (s.modCtx k fun c => let x := c.chan ch
        { c with chans := setChan { x with arrived := setBit x.arrived r } c.chans }).checkLocal k a.bid

/-- R244: the slot agrees with the arming. -/
def Arm.accepts (a : Arm) (c : Contrib) : Bool :=
  slotType a.types c.slot.toNat = c.type && (c.type != 1 || (c.fmt = a.fmt c.slot.toNat && c.s = a.s8 c.slot.toNat))

/-- A CONTRIB reaches the Leaf core (R244, R285, R290). -/
def State.leafContrib (s : State) (r : Nat) (k : Packet) : State :=
  let ch := (pktWord k 0).extractLsb' 0 4
  let c := (pktContrib k)
  let s :=
    match s.activeSlot with
    | none => s
    | some n =>
      match (s.ctx n).chanArm ch with
      | none => s
      | some a =>
        if (pktEmpty k) then s
        else if a.step && (s.ctx n).digestSlot == some c.slot.toNat then s.modSync fun y => { y with cellDrop := satInc y.cellDrop }
        else
          let s := s.regionTerm n r a.bid (c.slot.setWidth 8) c.data
          match (if a.accepts c then addContrib c ((s.ctx n).chan ch).slots else none) with
          | some l => s.modCtx n fun x => { x with chans := setChan { x.chan ch with slots := l } x.chans }
          | none => s.raiseNow (uc 0x0A 0x02) 0 s.activeTag
              (detail [(24, 1, a.bid.toNat), (25, 1, 0xFF), (28, 4, c.type.toNat <<< (4 * c.slot.toNat))])
  if (pktLast k) then s.leafArrive r ch false else s

/-- A POST reaches the Leaf core (R266). -/
def State.leafPost (s : State) (k : Packet) : State :=
  match s.activeSlot with
  | none => s.dropNoctx
  | some n =>
    let w := pktWord k 0
    s.post { slot := n, obj := (w.extractLsb' 0 12).toNat, op := w.extractLsb' 12 8, operand := (pktWord k 2).extractLsb' 0 12 ++ pktWord k 1, src := 0, rank := 0 }

-- READ and WRITE (R180, R181).

/-- Units that an access addresses (R176). -/
def Trellis.countUnits (r : Trellis) (level : Level) (scope : Option Level) : Nat :=
  let b := r.blocks.toNat
  let c := r.cells.toNat
  match scope.map BitVec.toNat, level.toNat with
  | none, _ => 1
  | some 3, 2 => r.regions.toNat
  | some 3, 1 => r.regions.toNat * b
  | some 3, _ => r.regions.toNat * b * c
  | some 2, 1 => b
  | some 2, _ => b * c
  | some _, _ => c

/-- Does the access address the unit? -/
def Access.covers (x : Access) (level : Level) (u : CellAddr) : Bool :=
  x.level == level && match x.scope.map BitVec.toNat with
    | none => unitAddr level x.addr == unitAddr level u
    | some 3 => true
    | some 2 => x.addr.region == u.region
    | some _ => x.addr.region == u.region && x.addr.block == u.block

/-- The packet of an access. The manual gives the body of a WRITE or a READ only its ADDR word; the register index and the value
follow it. DESIGN CHOICE, log entry 31. -/
def Access.packet (x : Access) : Packet :=
  let value := if x.write then [x.value.extractLsb' 0 20, (x.value.extractLsb' 20 12 : BitVec 12).setWidth 20] else []
  let body := [addrWord x.addr x.scope.isSome, x.ix.setWidth 20] ++ value
  { classU := true, header := pktHeader (if x.write then 1 else 2) body.length x.level (x.scope.getD 0), body := body }

/-- The regions to whose lanes an access goes. -/
def Access.regions (x : Access) (r : Trellis) : List Nat :=
  if x.scope = some 3 then List.range r.regions.toNat else [x.addr.region.toNat]

/-- Send an access. An access that addresses no unit needs no acknowledgement. -/
def State.access (s : State) (write : Bool) (level : Level) (a : CellAddr) (ix : BitVec 7) (value : BitVec 32 := 0) (scope : Option Level := none)
    (desc : Option Nat := none) : State :=
  let x : Access := {
    write := write, level := level, addr := a, scope := scope, owed := s.tr.countUnits level scope, sentAt := s.tick, desc := desc, ix := ix, value := value }
  if x.owed = 0 then (match desc with | some n => s.complete n stDone | none => s)
  else (s.sendDown (x.regions s.tr) x.packet).modTr fun r => { r with accesses := r.accesses ++ [x] }

/-- TR_CTL.DIST_PEND: a shadow write awaits an acknowledgement (R181). -/
def Trellis.pending (r : Trellis) : Bool := r.accesses.any fun x => x.write

/-- An answer of a unit, of which the access waits for one: it goes to the oldest of its kind, WRITE or READ, that addresses the
unit (R176, R180). What a READ brings is kept. -/
def State.ackAccess (s : State) (write dump : Bool) (level : Level) (u : CellAddr) (words : List (BitVec 20)) : State :=
  let a := unitAddr level u
  match s.tr.accesses.find? fun x => x.write == write && (x.ix == ixDump) == dump && x.covers level a && x.owed != 0 && !x.heard.contains a with
  | none => s
  | some x =>
    let s := if write then s else s.modTr fun r => { r with reads := assocSet (level, a) words r.reads }
    if x.owed = 1 then
      let s := s.modTr fun r => { r with accesses := r.accesses.erase x }
      match x.desc with
      | some n => s.complete n stDone
      | none => s
    else s.modTr fun r => { r with accesses := modFirst (· == x) (fun y => { y with owed := y.owed - 1, heard := a :: y.heard }) r.accesses }

/-- A SWAP_AT is armed for the partition of any context of this Leaf (R181, R217, R220). -/
def State.swapArmed (s : State) : Bool := s.fab.parts.any fun p => p.st != .free && !p.ended && p.swap.isSome && (s.slotOf p.ptag).isSome

-- Words received by units (R171 to R174, R197).

/-- What the two copies of a word tell (R168, R172, R197): the content, with true if the first copy gives it; or the fault: class,
cause, DETAIL, and whether timing is hit. A stomped copy is no error of this unit's. -/
def copiesJudge (a b : BitVec 28) : Option (BitVec 20 × Bool) × Option (Nat × Nat × BitVec 64 × Bool) :=
  let lost (g : BitVec 28) : Nat × Nat × BitVec 64 × Bool := (1, 1, detail [(24, 1, (g.extractLsb' 0 4).toNat), (25, 1, (g.extractLsb' 4 4).toNat)], false)
  if wordGood a && wordGood b then
    if a = b then (some (wordContent a, true), none)
    else (none, some (2, 3, detail [(24, 3, (wordContent a).toNat), (28, 3, (wordContent b).toNat)], false))
  else if wordGood a then (some (wordContent a, true), if wordStomped b then none else some (lost a))
  else if wordGood b then (some (wordContent b, false), if wordStomped a then none else some (lost b))
  else (none, if wordStomped a && wordStomped b then none else some (2, 2, detail [(24, 1, 0xFF)], true))

/-- One copy of a word on a unit's child lanes, in the slot it came in (R173): a Pergola passes it on as it is, an Arbor adds the
TRIM of each trim group to the CYC of a good FIRE, of the set that holds on the word's cycle; a word in error goes on stomped. -/
def State.forwardCopy (s : State) (level : Level) (a : CellAddr) (slot : BitVec 6) (fire : BitVec 64) (w : BitVec 28) : State :=
  let u := s.unit level a
  let out := if wordGood w then w else stompWord w
  if level = 1 then
    (List.range 8).foldl (fun s g =>
      let c := wordContent w
      let v := if wordGood w && c.extractLsb' 0 4 = wFire then
          trellisWord ((c.extractLsb' 8 12 + (s.tr.unitSet u fire).trimOf g) ++ (c.extractLsb' 0 8 : BitVec 8)) else out
      s.emit (.fwdWord level u.addr g slot v)) s
  else s.emit (.fwdWord level u.addr 0 slot out)

/-- Cycles from a copy's first symbol to the cycle on which its unit decodes it: four symbols and one (R174, R190). -/
def decodeCycles (first : Bool) : BitVec 64 := if first then 5 else 13

/-- The host cycle on which the good copy of a word that began at `start` takes effect by its CYC (R174). -/
def TUnit.effective (u : TUnit) (start : BitVec 64) (first : Bool) (w : BitVec 20) : Nat × BitVec 64 :=
  let dec := start + decodeCycles first
  let d := (w.extractLsb' 8 12 - u.count dec).toNat
  (d, dec + BitVec.ofNat 64 d)

/-- A unit acts on a good down word that began at `start` (R174, R182, R191). -/
def State.takeWord (s : State) (level : Level) (a : CellAddr) (start : BitVec 64) (first : Bool) (w : BitVec 20) : State :=
  let u := s.unit level a
  let code := w.extractLsb' 0 4
  let arg := w.extractLsb' 4 4
  let cyc := w.extractLsb' 8 12
  let (d, at_) := u.effective start first w
  let lv := level.toNat
  if code.toNat > 9 then s.unitFault level a (faultCode 1 lv 6 6) (detail [(24, 1, code.toNat)])
  else if code = 0 || code = wSeat then s
  else if code = wCheck then
    let own := u.count start - BitVec.ofNat 12 (s.tr.frameOffset level)
    if cyc = own then s
    else (s.unitFault level a (faultCode 2 lv 8 1) (detail [(24, 2, cyc.toNat), (26, 2, own.toNat)])).unseat a.region
  else if d ≥ 2048 then
    (s.unitFault level a (faultCode 2 lv 6 4) (detail [(24, 1, code.toNat), (25, 1, arg.toNat), (26, 2, d)])).unseat a.region
  else
    let s := if code = wSwap then s.modUnit level a fun u => { u with swapAt := some (BitVec.ofNat 64 (roundUp 256 at_.toNat)) } else s
    if level = 0 then s.modUnit 0 a fun u => { u with due := u.due ++ [{ hc := at_, code := code, arg := arg }] } else s

/-- TRELLIS_WORD_RX, a down word: both copies go on to the children whatever they hold, and the unit acts on the first good
one. -/
def State.downWord (s : State) (level : Level) (a : CellAddr) (slot : BitVec 6) (x y : BitVec 28) : State :=
  let u := s.unit level a
  let start := s.tr.slotStart u slot s.tr.hcc
  let s := if level = 0 then s else
    (s.forwardCopy level a slot (u.effective start true (wordContent x)).2 x).forwardCopy level a (slot + 2)
      (u.effective start false (wordContent y)).2 y
  let (w, f) := copiesJudge x y
  let s := match f with
    | some (cls, cause, det, timing) =>
      let s := s.unitFault level a (faultCode cls level.toNat 6 cause) det
      if timing then s.unseat a.region else s
    | none => s
  match w with
  | some (w, first) => s.takeWord level a start first w
  | none => s

/-- TRELLIS_WORD_RX, an up word: ARRIVE is counted, ECHO serves seating. -/
def State.upWordRx (s : State) (level : Level) (a : CellAddr) (child : BitVec 7) (x y : BitVec 28) : State :=
  let (w, f) := copiesJudge x y
  let g : BitVec 7 := if level = 3 then child else a.region
  let s := match f with
    | some (cls, cause, det, timing) =>
      let s := s.unitFault level a (faultCode cls level.toNat 6 cause) det
      if timing then s.unseat g else s
    | none => s
  match w with
  | none => s
  | some (w, _) =>
    let code := w.extractLsb' 0 4
    let arg := w.extractLsb' 4 4
    if code = 1 then (if level = 3 then s.leafArrive child.toNat arg true else s.unitArrive level a child.toNat arg)
    else if code.toNat ≤ 2 then s
    else s.unitFault level a (faultCode 1 level.toNat 6 6) (detail [(24, 1, code.toNat)])

-- Packets received (R176 to R180).

/-- The children of a unit to whose lanes a down U packet goes on: all below the subtree that a broadcast names, or the one on the
way to the addressed unit. -/
def Trellis.downPorts (r : Trellis) (level : Level) (k : Packet) : List (Option Byte) :=
  let t := wordAddr (pktWord k 0)
  let all (n : Nat) : List (Option Byte) := (List.range n).map fun i => some (BitVec.ofNat 8 i)
  if level.toNat ≤ (pktLevel k).toNat then []
  else if level = 2 then
    if pktBcast k && 2 ≤ (pktScope k).toNat then all r.blocks.toNat else [some (t.block.setWidth 8)]
  else if level = 1 then
    if pktBcast k then all r.cells.toNat else [some (t.cell.setWidth 8)]
  else []

/-- The lowest participating child whose arrival on channel `ch` has not been counted, 0x3F if there is none (R213). -/
def State.outstanding (s : State) (level : Level) (a : CellAddr) (ch : BitVec 4) : Nat :=
  let want := s.tr.childMask level a ch &&& ~~~((s.unit level a).chan ch).arrived
  ((List.range 64).find? fun i => want.getLsbD i).getD 0x3F

/-- A unit's answer to a WRITE or a READ addressed to it (R176, R181, R277): RDATA with LEN 1 acknowledges a WRITE, which reaches
the shadow set only; a READ brings the register, the dump index a DUMP packet. -/
def State.answer (s : State) (level : Level) (a : CellAddr) (k : Packet) : State :=
  let u := s.unit level a
  let ix : BitVec 7 := (pktWord k 1).setWidth 7
  let reply (body : List (BitVec 20)) (kind : Nat) (s : State) : State :=
    s.sendUp level u.addr { classU := true, header := pktHeader kind body.length level, body := body }
  if pktKind k = 1 then
    let v : BitVec 32 := (pktWord k 3).setWidth 12 ++ pktWord k 2
    reply [addrWord u.addr] 3 (s.modUnit level a fun u => { u with setS := u.setS.write level ix v })
  else if ix = ixDump then
    reply [u.arrCur.setWidth 20, u.arrNext.setWidth 20, (0 : BitVec 10) ++ bit u.ovf ++ bit (u.first != 0) ++ u.misuse, u.first.setWidth 20, addrWord u.addr] 6 s
  else
    let v : BitVec 32 :=
      if ixOutstanding.toNat ≤ ix.toNat && ix.toNat < ixOutstanding.toNat + 16 then BitVec.ofNat 32 (s.outstanding level a (ix.setWidth 4))
      else u.setA.read level ix
    reply [addrWord u.addr, v.extractLsb' 0 20, (v.extractLsb' 20 12 : BitVec 12).setWidth 20] 3 s

/-- A packet that goes on: it is ready on the lanes `ports`, and holds the buffer of the lane it came on until it starts. -/
def State.passOn (s : State) (level : Level) (a : CellAddr) (src : Option Byte) (ports : List (Option Byte)) (k : Packet) : State :=
  if ports.isEmpty then s.bufferFreed level a src k.classU (k.body.length + 1)
  else s.enqueue level a ports (src.elim 0 (· + 1)) true k

/-- "unknown packet kind" (R176, R197). -/
def State.unknownKind (s : State) (level : Level) (a : CellAddr) (k : Packet) : State :=
  s.unitFault level a (faultCode 1 level.toNat 7 3) (detail [(24, 1, pktKind k), (25, 1, if k.classU then 1 else 0)])

/-- The children that take part in a channel, as lanes (R241, R245). -/
def Trellis.memberPorts (r : Trellis) (level : Level) (a : CellAddr) (ch : BitVec 4) : List (Option Byte) :=
  ((List.range 128).filter fun i => (r.childMask level a ch).getLsbD i).map fun i => some (BitVec.ofNat 8 i)

/-- A packet whose words are all good. Words that the unit consumes leave the buffer at once; a packet that goes on leaves it when
it starts on its last lane. -/
def State.takePacket (s : State) (level : Level) (a : CellAddr) (src : Option Byte) (k : Packet) : State :=
  let n := k.body.length + 1
  let s := s.credited level a src k.classU (pktCred k)
  let own (s : State) : State := s.bufferFreed level a src k.classU n
  let up (s : State) : State := s.passOn level a src [none] k
  let u := unitAddr (pktLevel k) (wordAddr (pktWord k 0))
  match src, k.classU, pktKind k with
  | _, _, 0 => s
  | none, true, 1 | none, true, 2 =>
    let mine := pktLevel k == level && (pktBcast k || u == unitAddr level a)
    (if mine then s.answer level a k else s).passOn level a src (s.tr.downPorts level k) k
  | none, false, 3 =>
    let ch := (pktWord k 0).extractLsb' 0 4
    if level = 0 then own (if s.cellIn a ch then s.emit (.result a ((pktWord k 0).extractLsb' 0 9) (pktData k 1)) else s)
    else s.passOn level a src (s.tr.memberPorts level a ch) k
  | some _, true, 3 => if level = 3 then own (s.ackAccess (k.body.length == 1) false (pktLevel k) u k.body) else up s
  | some _, true, 4 => if level = 3 then own s else up s
  | some _, true, 5 => if level = 3 then own (s.modTr fun r => { r with sat := r.sat.modify (pktLevel k).toNat (· + (pktWord k 0).toNat) }) else up s
  | some _, true, 6 => if level = 3 then own (s.ackAccess false true (pktLevel k) (wordAddr (pktWord k 4)) k.body) else up s
  | some c, false, 1 => own (if level = 3 then s.leafContrib c.toNat k else s.unitContrib level a c.toNat k)
  | some _, false, 2 => if level = 3 then own (s.leafPost k) else up s
  | _, _, _ => own (s.unknownKind level a k)

/-- The packet that words spell: the header, then the body. -/
def packetOf (classU : Bool) (words : List (BitVec 28)) : Packet :=
  { classU := classU, header := (words.map wordContent).headD 0, body := (words.map wordContent).tail }

/-- TRELLIS_PACKET_RX (R176 to R180): taken whole by a unit. With a word in error it is discarded whole; with a stomped one too,
and the error is another unit's (R197). -/
def State.packetRx (s : State) (level : Level) (a : CellAddr) (src : Option Byte) (classU : Bool) (words : List (BitVec 28)) : State :=
  let k := packetOf classU words
  let gone := s.bufferFreed level a src classU words.length
  if words.all wordGood then s.takePacket level a src k
  else if words.all fun w => wordGood w || wordStomped w then gone
  else if classU then gone.unitFault level a (faultCode 1 level.toNat 7 1) (detail [(24, 1, pktKind k)])
  else gone.unitFault level a (faultCode 2 level.toNat 7 2) (detail [(24, 1, pktKind k), (25, 1, ((pktWord k 0).extractLsb' 0 4).toNat)])

-- Meanings. The Trellis lies in PD7.

/-- A command on a unit that TR_GEOM holds, while PD7 is on. -/
def onUnit (level : Level) (a : CellAddr) (s : State) (f : State → State) : Result :=
  onLeaf s fun s => if s.pdOn 7 && s.tr.en && s.hasUnit level a then f s else s

/-- What crosses the lanes of a unit in normal use: only while the unit is seated (R165, R183). -/
def onSeated (level : Level) (a : CellAddr) (s : State) (f : State → State) : Result :=
  onUnit level a s fun s => if s.tr.unitSeated level a then f s else s

/-- A cell-side command of a seated Stake (R198). -/
def onStake (a : CellAddr) (s : State) (f : State → State) : Result := onSeated 0 a s f

/-- TRELLIS_ACTION_SAMPLE (R187). -/
def execTrellisActionSample (ix : BitVec 32) (s : State) : Result := onLeaf s fun s => s.actionSample ix

/-- TRELLIS_WORD_RX (R171 to R174, R191, R197, R242). The Leaf core has no parent, a Stake no child. -/
def execTrellisWordRx (level : Level) (a : CellAddr) (w : TrellisWord) (s : State) : Result :=
  onSeated level a s fun s => match w with
    | .down slot x y => if level = 3 then s else s.downWord level a slot x y
    | .up child x y => if level = 0 || (level = 3 && !s.tr.regionSeated child) then s else s.upWordRx level a child x y

/-- TRELLIS_PACKET_RX (R176 to R180, R242 to R244, R266): `src` is the child it came from, none for the parent; `words` its words, with
true for class U. -/
def execTrellisPacketRx (level : Level) (a : CellAddr) (src : Option (BitVec 7)) (words : Bool × List (BitVec 28)) (s : State) : Result :=
  onSeated level a s fun s => match src with
    | none => if level = 3 then s else s.packetRx level a none words.1 words.2
    | some c => if level = 0 || (level = 3 && !s.tr.regionSeated c) then s else s.packetRx level a (some (c.setWidth 8)) words.1 words.2

/-- RESULT_RX (R245, R246): a unit forwards it to its participating children; a Stake presents it. -/
def execResultRx (level : Level) (a : CellAddr) (ctl : BitVec 20) (data : BitVec 128) (s : State) : Result :=
  onSeated level a s fun s => if level = 3 then s else s.takePacket level a none (resultPkt ctl data)

/-- CELL_ARRIVE (R242): the current arrival goes up, a second one waits for the RELEASE, a third is misuse. -/
def State.cellArrive (s : State) (a : CellAddr) (ch : BitVec 4) (word : Bool) : State :=
  let x := (s.unit 0 a).chan ch
  if !x.cur then
    let s := s.modUnit 0 a fun u => { u with chans := setChan { u.chan ch with cur := true } u.chans }
    if word then s.arriveUp 0 a ch else s
  else if !x.next then s.modUnit 0 a fun u => { u with chans := setChan { u.chan ch with next := true } u.chans }
  else s.modUnit 0 a fun u => { u with misuse := satInc u.misuse }

/-- CELL_ARRIVE (R241, R242). A cell that does not take part in the channel sends nothing on it. -/
def execCellArrive (a : CellAddr) (ch : BitVec 4) (s : State) : Result :=
  onStake a s fun s => if s.cellIn a ch then s.cellArrive a ch true else s

/-- tr_cell_ctb_rdy for a contribution on channel `ch` (R242, R246): low while an arrival of the cell waits for its RELEASE. -/
def State.ctbRdy (s : State) (a : CellAddr) (ch : BitVec 4) : Bool := s.cellIn a ch && !((s.unit 0 a).chan ch).cur

/-- CELL_CONTRIB (R242 to R244, R246, R249): a contribution transfers while rdy is high. FMT and S are of a SUMX slot alone (R243). -/
def execCellContrib (a : CellAddr) (ctl : BitVec 24) (data : BitVec 128) (s : State) : Result :=
  onStake a s fun s =>
    let ch := ctl.extractLsb' 0 4
    if !s.ctbRdy a ch then s
    else
      let sumx := ctl.extractLsb' 7 4 == (1 : BitVec 4)
      let c : Contrib := {
        slot := ctl.extractLsb' 4 3, type := ctl.extractLsb' 7 4, fmt := if sumx then ctl.extractLsb' 11 3 else 0
        s := if sumx then ctl.extractLsb' 16 8 else 0, data := data }
      let last := ctl.getLsbD 14
      let s :=
        if ctl.getLsbD 15 then s.sendUp 0 a (contribPkt ch none last false)
        else if c.type = 1 then
          match decodeFmt c.fmt data with
          | some v => s.sendUp 0 a (contribPkt ch (some { c with data := toFx96 v c.s }) last true)
          | none => s.unitMismatch 0 a c
        else s.sendUp 0 a (contribPkt ch (some c) last false)
      if last then s.cellArrive a ch false else s

/-- CELL_POST (R266). -/
def execCellPost (a : CellAddr) (obj : BitVec 12) (op : Byte) (val : BitVec 32) (s : State) : Result :=
  onStake a s fun s => s.sendUp 0 a (postPkt obj op val)

/-- A number of 2^-16 ns in whole ps, to the nearest with ties to even (R190). -/
def toPs (x : Int) : Int :=
  let q := (x * 1000).fdiv 65536
  let r := (x * 1000).fmod 65536
  if r > 32768 || (r = 32768 && q % 2 != 0) then q + 1 else q

/-- LAST_ERR of a FIRE whose edge is stamped `t`: the stamp less T in ps, saturating (R190). -/
def fireErr (t : HT80) (x : HT80) : BitVec 16 := satInt 16 (toPs (htDiff t x))

/-- A FIRE's edge at the Leaf core, stamped by the TDC (R14, R190). -/
def State.fireEdge (s : State) (fire : BitVec 64) (a : Act) (stamp : HT80) : State :=
  let e := fireErr stamp a.t
  let s := s.modTr fun r => { r with lastErr := e, maxErr := if r.maxErr.slt e then e else r.maxErr }
  let up (o : Option (BitVec 16)) : Option (BitVec 16) := some (match o with | some x => if x.slt e then e else x | none => e)
  let s := match s.slotOf a.ptag with
    | some k => s.modCtx k fun c => ({ c with stretch := up c.stretch } : Ctx).note stamp (.stretch e)
    | none => s
  match a.desc with
  | some n => s.complete n stDone 0 (e ++ fire) (some (htOf (dueTick a.t))) none true
  | none => s

/-- The Leaf core reaches the effective cycle of a word it has sent: an event presented while the cells are stalled counts in DEFER
(R190, R194). A FIRE's edge lies within the tick that has passed, at a free fraction. -/
def State.wordEdge (s : State) (x : BitVec 64 × Act) : State :=
  let s := s.modTr fun r => { r with defer := if r.cellsStalled x.1 then satInc r.defer else r.defer }
  if x.2.code = wFire then s.drew.fireEdge x.1 x.2 (htOf (s.tick - 1) + (Config.arrivalFrac s.freeIx).setWidth 80 <<< 9) else s

/-- Every word sent whose effective cycle has come. -/
def State.wordEdges (s : State) : State :=
  let due := s.tr.sent.filter fun x => x.1.toNat ≤ s.tr.hcc.toNat
  due.foldl State.wordEdge (s.modTr fun r => { r with sent := r.sent.filter fun x => s.tr.hcc.toNat < x.1.toNat })

/-- Mask that presents a code (R171): FIRE 0, RELEASE 1, WAKE 2, windows 3. -/
def codeMask (c : BitVec 4) : Option Nat :=
  match c.toNat with
  | 1 => some 0 | 2 => some 1 | 3 => some 2 | 4 | 5 => some 3 | _ => none

/-- A Stake acts on one decoded word on its cycle (R171, R174, R182, R242). -/
def State.presentOne (s : State) (a : CellAddr) (p : Pend) : State :=
  let shown := match codeMask p.code with
    | some m => ((s.tr.unitSet (s.unit 0 a) p.hc).mask m).getLsbD p.arg.toNat
    | none => p.code = wSwap || p.code = wPark
  let s := if shown then s.emit (.present a p.code p.arg) else s
  if p.code = wRelease then
    let x := (s.unit 0 a).chan p.arg
    let s := s.modUnit 0 a fun u => { u with chans := setChan { u.chan p.arg with cur := x.next, next := false } u.chans }
    if x.next then s.arriveUp 0 a p.arg else s
  else s

/-- EVENT_PRESENT (R171, R174). -/
def execEventPresent (a : CellAddr) (s : State) : Result :=
  onSeated 0 a s fun s =>
    let due := (s.unit 0 a).due.filter fun p => p.hc.toNat ≤ s.tr.hcc.toNat
    due.foldl (fun s p => s.presentOne a p)
      (s.modUnit 0 a fun u => { u with due := u.due.filter fun p => s.tr.hcc.toNat < p.hc.toNat })

/-- UNIT_ERROR_REPORT (R197, R323): the Leaf core stamps the report by the count it carries. A report
whose DETAIL the model has not seen arise carries free bytes. -/
def execUnitErrorReport (a : CellAddr) (code : BitVec 16) (cnt : BitVec 12) (s : State) : Result :=
  let level : Level := codeLevel code
  onUnit level a s fun s =>
    let det := ((s.unit level a).queued.find? fun q => q.1 == code).map (·.2)
    let s := s.modUnit level a fun u => { u with queued := match u.queued.find? fun q => q.1 == code with | some q => u.queued.erase q | none => u.queued }
    let back := (s.tr.hcc.extractLsb' 0 12 - cnt).toNat * 1024
    let c := s.tr.cyc1024.toNat
    let t := s.tick - BitVec.ofNat 64 ((back + (c - 1)) / c)
    let free : BitVec 64 := Config.anyWord s.freeIx ++ Config.anyWord (s.freeIx + 1)
    let s := if det.isNone then { s with freeIx := s.freeIx + 2 } else s
    let s := s.raise { code := code, loc := cellLoc (unitAddr level a), partV := s.activeTag.isSome, ptag := s.activeTag.getD 0, stamp := htOf t, detail := det.getD free }
    let timing := codeClass code = 2 && (codeUnit code = 8 || (codeUnit code = 6 && (codeCause code = 2 || codeCause code = 4)))
    if timing then s.unseat a.region else s

/-- CHECK_SEND (R175, R191): every 4,096 host cycles while seated. -/
def execCheckSend (s : State) : Result :=
  onLeaf s fun s =>
    let r := s.tr
    if s.pdOn 7 && r.seat == .seated && (r.checkAt = 0 || r.checkAt.toNat + 4096 ≤ r.hcc.toNat) then
      let start := BitVec.ofNat 64 (r.nextSlot (r.hcc.toNat + 1))
      s.modTr fun r => { r with lastSlot := start, checkAt := start, slots := r.slots ++ [(start, start.extractLsb' 0 12 ++ (0 : BitVec 4) ++ wCheck)] }
    else s

/-- REGION_CLOCK_SLIP (R191, R197). -/
def execRegionClockSlip (region : BitVec 7) (s : State) : Result :=
  let a : CellAddr := { region := region, block := 0, cell := 0 }
  onUnit 2 a s fun s => (s.unitFault 2 a (faultCode 2 2 8 2)).unseat region

/-- LANE_CLOCK_LOST (R165, R197): at the Leaf core the child is the region, which has lost its clock or is switched off. -/
def execLaneClockLost (level : Level) (a : CellAddr) (child : Byte) (s : State) : Result :=
  onUnit level a s fun s =>
    let det := detail [(24, 1, child.toNat)]
    if level = 3 then (s.raiseNow (faultCode 2 3 8 3) (mkLoc (child.setWidth 7 : BitVec 7).toNat) s.activeTag det).loseRegion (child.setWidth 7)
    else (s.unitFault level a (faultCode 2 level.toNat 8 3) det).unseat a.region

/-- A window of 1,024 ticks ends on this tick; the first one began after STATE became SEATED (R186). -/
def State.windowEnds (s : State) : Bool := s.tick.toNat % 1024 = 0 && tickLt s.tr.seatedAt (s.tick - 1024)

/-- The counts that R186 allows: from 88% of CYC1024 less one cycle to CYC1024 and one cycle. -/
def Trellis.countOk (r : Trellis) (count : Nat) : Bool := 88 * r.cyc1024.toNat ≤ (count + 1) * 100 && count ≤ r.cyc1024.toNat + 1

/-- HOST_CLOCK_WINDOW (R186): the window that ends on the tick `ends`. -/
def execHostClockWindow (ends : Tick) (s : State) : Result :=
  onLeaf s fun s =>
    if s.pdOn 7 && ends == s.tick && s.tr.seat == .seated && s.windowEnds && !s.tr.countOk s.tr.winCount then
      (s.raiseNow (faultCode 2 3 8 4) 0 s.activeTag (detail [(24, 2, s.tr.winCount)])).unseat
    else s

/-- TRELLIS_ACCESS_RETRY (R180): after 10 µs without RDATA; the fourth failure is a UC. -/
def execTrellisAccessRetry (write : Bool) (level : Level) (a : CellAddr) (s : State) : Result :=
  onLeaf s fun s =>
    match s.tr.accesses.find? fun x => x.write == write && x.level == level && x.addr == a && x.tries ≤ 3 with
    | none => s
    | some x =>
      if s.pdOn 7 && tickLe (x.sentAt + 10000) s.tick then
        let s := s.modTr fun r => { r with accesses := modFirst (· == x) (fun y => { y with tries := y.tries + 1, sentAt := s.tick }) r.accesses }
        if x.tries < 3 then s.sendDown (x.regions s.tr) x.packet
        else
          let s := s.raiseNow (faultCode 2 3 7 4) (cellLoc a) s.activeTag (detail [(24, 1, if write then 1 else 0)])
          if write then s else s.modTr fun r => { r with accesses := r.accesses.filter fun y => !(y.write == write && y.level == level && y.addr == a) }
      else s

/-- TELEM_REPORT (R179, R242): the report that is due on the tick `due`. 1 ms after its last one, a unit reports its deferrals, and a Stake its misuse, in a TELEM packet;
those of the Leaf core go into TR_SAT at once. The manual gives no body: DESIGN CHOICE, log entry 56. -/
def execTelemReport (level : Level) (a : CellAddr) (due : Tick) (s : State) : Result :=
  onSeated level a s fun s =>
    let u := s.unit level a
    if due != u.telemAt + 1000000 || !tickLe due s.tick then s
    else
      let s := s.modUnit level a fun u => { u with deferrals := 0, telemAt := s.tick }
      if level = 3 then s.modTr fun r => { r with sat := r.sat.modify 3 (· + u.deferrals.toNat) }
      else s.sendUp level u.addr { classU := true, header := pktHeader 5 2 level, body := [u.deferrals.setWidth 20, u.misuse.setWidth 20] }

/-- ERROR_WIRE_FAULT (R196, R197, R320): the parent that watches the pair raises it for the child's subtree. -/
def execErrorWireFault (level : Level) (a : CellAddr) (child : Byte) (s : State) : Result :=
  onUnit level a s fun s => s.unitFault level a (faultCode 2 level.toNat 0x15 2) (detail [(24, 1, 0), (25, 1, child.toNat)])

-- The hold (R193 to R195).

/-- TR_CELL_HOLD_REQ (R193): the Stake's own request. -/
def execTrCellHoldReq (a : CellAddr) (level : Bool) (s : State) : Result := onUnit 0 a s fun s => s.requestHold 0 a level

/-- TR_RGN_HOLD_REQ (R193): a region throttle's request at its Pergola. -/
def execTrRgnHoldReq (region : BitVec 7) (level : Bool) (s : State) : Result :=
  onUnit 2 { region := region, block := 0, cell := 0 } s fun s => s.requestHold 2 { region := region, block := 0, cell := 0 } level

/-- HOLD_BIT_RX (R193, R194): the Leaf core sees the HOLD bit of an up lane. -/
def Trellis.seeHold (r : Trellis) (region : BitVec 7) (level : Bool) : Trellis :=
  let up := setBit r.upHold region.toNat level
  let begins := r.upHold = 0 && up != 0
  let ties := !begins && level && r.episodeAt == r.hcc && region.toNat < r.lastRegion.toNat
  let turns := (r.upHold != 0) != (up != 0) && r.upHoldAt != r.hcc
  { r with
    upHold := up, episodes := if begins then satInc r.episodes else r.episodes
    upHoldAt := if turns then r.hcc else r.upHoldAt, upHoldWas := if turns then r.upHold != 0 else r.upHoldWas
    lastRegion := if begins || ties then region else r.lastRegion, episodeAt := if begins then r.hcc else r.episodeAt }

/-- HOLD_BIT_RX (R193, R194). -/
def execHoldBitRx (region : BitVec 7) (level : Bool) (s : State) : Result :=
  onUnit 2 { region := region, block := 0, cell := 0 } s fun s => s.modTr fun r => r.seeHold region level

-- Seating (R183 to R185, R417).

/-- KMIN (R185). -/
def kmin (lSeat hPa hAs : Nat) : Nat := 30 + lSeat + hPa + hAs

/-- dn_r: half of the mean round trip, with the fraction of the up crossing, less the turnaround of 2 cycles, to the nearest cycle
(R184). The rule does not say which of the 8 round trips: DESIGN CHOICE, log entry 54. -/
def regionDn (x : RegionMeas) : Nat := ((x.trips.map BitVec.toNat).sum * 32 + x.phase.toNat - 512 + 256) / 512

/-- The largest word latencies measured in a region (R184). -/
def regionHPa (x : RegionMeas) : Nat := (x.arbors.map fun y => y.1.toNat).foldl max 0
def regionHAs (x : RegionMeas) : Nat := (x.arbors.flatMap fun y => y.2.map BitVec.toNat).foldl max 0

/-- The 8 round trips agree within 1 cycle (R185). -/
def tripsOk (x : RegionMeas) : Bool := x.trips.all fun a => x.trips.all fun b => a.toNat ≤ b.toNat + 1

/-- CYC1024: the count of both halves (R184, R199). -/
def seatCount (m : SeatMeas) : Nat := m.half0.toNat + m.half1.toNat

/-- The halves differ by no more than 0.1% (R185), of the larger: DEDUCED, log entry 54. -/
def halvesOk (m : SeatMeas) : Bool :=
  let a := max m.half0.toNat m.half1.toNat
  (a - min m.half0.toNat m.half1.toNat) * 1000 ≤ a

/-- The largest of a measure over the regions. -/
def seatMost (m : SeatMeas) (f : RegionMeas → Nat) : Nat := (m.regions.map f).foldl max 0

/-- Regions that a seating seats: every one of TR_GEOM, or RESEAT_REGION. -/
def Trellis.seating (r : Trellis) : List (BitVec 7) :=
  if r.reseating then [r.reseatRegion] else (List.range r.regions.toNat).map (BitVec.ofNat 7)

/-- The lowest region being seated whose measurement fails `f`, or is absent. -/
def Trellis.worst (r : Trellis) (m : SeatMeas) (f : RegionMeas → Bool) : Option (BitVec 7) :=
  r.seating.find? fun g => !((m.regions.find? fun x => x.region == g).elim false f)

/-- KMIN as computed, before it is stored in 8 bits. -/
def Trellis.kMinOf (r : Trellis) : Nat := kmin r.lSeat.toNat r.hPa.toNat r.hAs.toNat

/-- R185: the first failed check and its region, if any. -/
def Trellis.seatCheck (r : Trellis) (m : SeatMeas) : Option (Nat × BitVec 7) :=
  if r.regions = 0 then some (1, 0)
  else match r.worst m (·.lock), r.worst m tripsOk with
    | some g, _ => some (2, g)
    | none, some g => some (3, g)
    | none, none =>
      if !halvesOk m then some (4, 0)
      else if r.k.toNat < r.kMinOf + 1 then some (5, 0)
      else if r.k.toNat * 1024 < r.ltr.toNat * (r.cyc1024.toNat - 1) then some (6, 0)
      else if r.holdLat.toNat != r.hTrellis.toNat + r.hCell.toNat then some (7, 0)
      else (r.worst m fun x => x.checks.all fun c => c.1 == c.2).map fun g => (8, g)

/-- R417: the region fits the maxima of the last full seating. -/
def Trellis.fits (r : Trellis) (m : SeatMeas) : Bool :=
  seatMost m regionDn ≤ r.lSeat.toNat && seatMost m regionHPa ≤ r.hPa.toNat && seatMost m regionHAs ≤ r.hAs.toNat &&
    seatMost m (fun x => x.upHold.toNat) + 1 + holdDown r.lSeat.toNat r.hPa.toNat r.hAs.toNat ≤ r.hTrellis.toNat

/-- What a full seating measures (R184, R185). KMIN and HTRELLIS saturate in their 8 bits: DESIGN CHOICE, log entry 54. -/
def Trellis.measured (r : Trellis) (m : SeatMeas) : Trellis :=
  let l := seatMost m regionDn
  let p := seatMost m regionHPa
  let a := seatMost m regionHAs
  { r with
    cyc1024 := satNat 16 (seatCount m), lSeat := satNat 8 l, hPa := satNat 4 p, hAs := satNat 4 a, kMin := satNat 8 (kmin l p a)
    hTrellis := satNat 8 (seatMost m (fun x => x.upHold.toNat) + 1 + holdDown l p a) }

/-- What is kept of a region. -/
def regionSeatOf (x : RegionMeas) : RegionSeat :=
  { region := x.region, dn := satNat 8 (regionDn x), arbors := x.arbors, upHold := x.upHold }

/-- The pad of a unit's input (R184, R417): a Pergola's root input by L_SEAT less dn_r, an Arbor and a Stake to the chip-wide maxima. -/
def Trellis.pad (r : Trellis) (level : Level) (a : CellAddr) : Nat :=
  match r.seats.find? fun x => x.region == a.region with
  | none => 0
  | some x =>
    let arbor := x.arbors.getD a.block.toNat (0, [])
    match level.toNat with
    | 2 => r.lSeat.toNat - x.dn.toNat
    | 1 => r.hPa.toNat - arbor.1.toNat
    | 0 => r.hAs.toNat - (arbor.2.getD a.cell.toNat 0).toNat
    | _ => 0

/-- The regions seated come into step (R163, R177, R184): every count is loaded, every transmitter has full credit, and nothing of
before waits. -/
def Trellis.loadCounts (r : Trellis) (m : SeatMeas) : Trellis :=
  let gs := r.seating
  let fresh (u : TUnit) : TUnit :=
    if u.level = 3 then { u with lanes := u.lanes.filter fun l => !(l.port.elim false fun p => gs.contains (p.setWidth 7)) }
    else if gs.contains u.addr.region then { u with slip := 0, lanes := [], upQ := [], upD := none, due := [], swapAt := none } else u
  { r with
    units := (r.units.map fresh).filter fun u => !u.isReset
    seated := gs.foldl (fun b g => setBit b g.toNat) r.seated
    seats := (r.seats.filter fun x => !gs.contains x.region) ++ (m.regions.filter fun x => gs.contains x.region).map regionSeatOf }

/-- The lowest region of TR_GEOM that is not seated, 0 if there is none (R199). -/
def Trellis.unseatedRegion (r : Trellis) : BitVec 7 :=
  BitVec.ofNat 7 (((List.range r.regions.toNat).find? fun g => !r.seated.getLsbD g).getD 0)

/-- FIRST and OVF of the units of a region clear, of every region with `none` (R323). -/
def State.clearFirst (s : State) (region : Option (BitVec 7)) : State :=
  s.modTr fun r => { r with units := (r.units.map fun u =>
    if region.elim true (· == u.addr.region) then { u with first := 0, ovf := false } else u).filter fun u => !u.isReset }

/-- A context becomes ACTIVE: FIRST and OVF of every unit clear (R323), and no dump of an ENDED slot shows units any more (R275). -/
def State.activated (s : State) : State :=
  let old (c : Ctx) : Ctx := if c.st = .ended then { c with superseded := true } else c
  ((s.clearFirst none).modCtx0 old).modCtx1 old

/-- SEATING_END (R184, R185, R417). What a full seating measured is stored before the checks, and stays when one fails: DEDUCED,
log entry 54. A region that fails stays unseated. -/
def State.seatingEnd (s : State) (m : SeatMeas) : State :=
  if s.tr.seat != .seating then s
  else
    let part := s.tr.reseating
    let s := s.modTr fun r => if part then { r with cyc1024 := satNat 16 (seatCount m) } else r.measured m
    let bad := match s.tr.seatCheck m with
      | some x => some x
      | none => if part && !s.tr.fits m then some (9, s.tr.reseatRegion) else none
    match bad with
    | some (c, g) => s.modTr fun r => { r with seat := .failed, cause := BitVec.ofNat 4 c, failRegion := g, reseating := false }
    | none =>
      (s.modTr fun r => let r := r.loadCounts m
        { r with seat := .seated, cause := 0, failRegion := r.unseatedRegion, reseating := false, seatedAt := s.tick }).clearFirst
        (if part then some s.tr.reseatRegion else none)

/-- SEATING_END (R185, R417). -/
def execSeatingEnd (m : SeatMeas) (s : State) : Result := onLeaf s fun s => if s.pdOn 7 then s.seatingEnd m else s

/-- A unit whose switch cycle has come changes its set: a SWAP exchanges, a COPY copies (R182, R224). -/
def Trellis.switchUnit (r : Trellis) (u : TUnit) : TUnit :=
  match r.unitSwitch u with
  | some c =>
    if c.toNat ≤ r.hcc.toNat then { u with
      setA := u.setS, setS := if u.swapAt.isSome then u.setA else u.setS, wasDn := u.setA.mapDn, wasUp := u.setA.mapUp, swapAt := none }
    else u
  | none => u

/-- TRELLIS_SET_SWITCH (R182): at the switch cycle every unit changes its set, or the copy is made. -/
def Trellis.switchSets (r : Trellis) : Trellis :=
  let r := { r with units := (r.units.map r.switchUnit).filter fun u => !u.isReset }
  match r.switchAt with
  | some (c, swaps) =>
    if c.toNat ≤ r.hcc.toNat then { r with
      setA := r.setS, setS := if swaps then r.setA else r.setS, wasDn := r.setA.mapDn, wasUp := r.setA.mapUp, switchedAt := c, switchAt := none } else r
  | none => r

/-- TRELLIS_SET_SWITCH (R182). -/
def execTrellisSetSwitch (s : State) : Result := onLeaf s fun s => s.modTr Trellis.switchSets

-- TR_CTL (R183, R195, R199).

/-- Seating starts; writes of SEAT and RESEAT that R183 does not accept complete with rp_err. Traffic on the lanes being seated
stops. A RESEAT is accepted of any region and at any time after TR_GEOM is written: DEDUCED, log entry 54. -/
def State.startSeat (s : State) (part : Bool) : State :=
  if s.tr.en && s.tr.regions != 0 && s.activeSlot.isNone then
    (s.modTr fun r => { r with
      seat := .seating, cause := 0, reseating := part, lastSlot := 0, checkAt := 0, slots := []
      seated := if part then setBit r.seated r.reseatRegion.toNat false else 0 }).rpOk
  else s.rpErr

/-- COPY (R182): at the first multiple of 256 after the write, and not while a context is active. -/
def State.startCopy (s : State) : State :=
  if s.activeSlot.isSome then s.rpErr
  else (s.modTr fun r => { r with switchAt := some (BitVec.ofNat 64 (roundUp 256 (r.hcc.toNat + 1)), false) }).rpOk

/-- EN (R195, R199): 0 drives the root lanes low and unseats every unit. The sets, latches and arrivals of the units stay, and a
WRITE that no unit has acknowledged still awaits that (R181). -/
def State.setTrEn (s : State) (en : Bool) : State :=
  if !en && s.activeSlot.isSome then s.rpErr
  else (s.modTr fun r => if en then { r with en := true } else
    { r with
      en := false, seat := .unseated, reseating := false, seated := 0, upHold := 0, sent := [], slots := [], switchAt := none
      units := (r.units.map fun u => { u with lanes := [], upQ := [], upD := none, due := [], swapAt := none }).filter
        fun u => !u.isReset }).rpOk

/-- A write of TR_CTL: the RW fields, then each WO bit that is 1 (R199). A write that any rule refuses
has no effect. The WO bits act in ascending order (R407), so that SEAT and RESEAT together end as a reseat. -/
def State.writeTrCtl (s : State) (w : Word) : State :=
  let acts : List (State → State) :=
    (if w.getLsbD 1 then [fun s => s.startSeat false] else []) ++ (if w.getLsbD 2 then [fun s => s.startSeat true] else []) ++
    (if w.getLsbD 3 then [State.startCopy] else []) ++
    (if w.getLsbD 5 then [fun s => (s.modTr fun r => { r with maxErr := 0x8000 }).rpOk] else []) ++
    (if w.getLsbD 6 then [fun s => (s.modTr fun r => { r with sat := [0, 0, 0, 0] }).rpOk] else [])
  let s0 := s.setTrEn (w.getLsbD 0)
  if s0.rp.err then s.rpErr
  else
    let s1 := s0.modTr fun r => { r with view := w.getLsbD 4, reseatRegion := w.extractLsb' 8 7 }
    let s2 := acts.foldl (fun t f => if t.rp.err then t else f t) s1
    if s2.rp.err then s.rpErr else s2

/-- TR_CTL as its RW fields stand. -/
def Trellis.ctl (r : Trellis) : Word :=
  (0 : BitVec 15) ++ bit r.pending ++ (0 : BitVec 1) ++ r.reseatRegion ++ (0 : BitVec 3) ++ bit r.view ++ (0 : BitVec 3) ++ bit r.en

/-- TR_EN_WRITE (R54, R195, R199): a write of TR_CTL. -/
def execTrEnWrite (w : Word) (s : State) : Result := onLeafReg 7 s fun s => s.writeTrCtl w

/-- SEAT (R183): a write of TR_CTL.SEAT with the other fields as they stand. -/
def execSeat (s : State) : Result := onLeafReg 7 s fun s => s.startSeat false

/-- RESEAT (R183, R417): a write of TR_CTL.RESEAT with RESEAT_REGION. -/
def execReseat (region : BitVec 7) (s : State) : Result :=
  onLeafReg 7 s fun s =>
    let t := (s.modTr fun r => { r with reseatRegion := region }).startSeat true
    if t.rp.err then s.rpErr else t

/-- COPY (R182). -/
def execCopy (s : State) : Result := onLeafReg 7 s State.startCopy

/-- CLR_STRETCH (R199). -/
def execClrStretch (s : State) : Result := onLeafReg 7 s fun s => (s.modTr fun r => { r with maxErr := 0x8000 }).rpOk

/-- CLR_SAT (R199). -/
def execClrSat (s : State) : Result := onLeafReg 7 s fun s => (s.modTr fun r => { r with sat := [0, 0, 0, 0] }).rpOk

end Sys2Proof.Machine
end

