-- ==== Sys2Proof/Machine/Bandstand.lean ====
section
/-!
DEFINITION. The Bandstand (07): the tick table, the LAUNCH check, refresh windows, load envelopes and
lending (13), swaps, park, steps and their completion (R211 to R214, R240, R264, R265, R289, R313).
-/

namespace Sys2Proof.Machine

-- The tick table (R200 to R203).

/-- Order of actions due on one tick (R203); LAUNCH entries have none there and stand first. -/
def actionRank : Action → Nat
  | .launch => 0 | .swap => 1 | .park => 2 | .windowClose => 3 | .capClose => 4 | .loadStep => 5
  | .windowOpen => 6 | .capOpen => 7 | .signal => 8

/-- Action code (R201). -/
def actionCode : Action → Nat
  | .launch => 1 | .windowOpen => 2 | .windowClose => 3 | .loadStep => 4 | .signal => 5 | .swap => 6
  | .park => 7 | .capOpen => 8 | .capClose => 9

/-- No entry is free (R202). -/
def State.tableFull (s : State) (k : Nat := 1) : Bool := s.band.table.length + k > 4096

/-- Insert an entry under the next SEQ (R200, R202). -/
def State.insert (s : State) (e : Entry) : State :=
  s.modBand fun b =>
    let t := b.table ++ [{ e with seq := b.seq }]
    { b with table := t, seq := b.seq + 1, hwm := if b.hwm.toNat < t.length then BitVec.ofNat 13 t.length else b.hwm }

/-- Free an entry (R202). -/
def State.freeEntry (s : State) (q : BitVec 32) : State :=
  s.modBand fun b => { b with table := b.table.filter fun e => e.seq != q }

/-- The entry with SEQ `q` and action `a`. -/
def State.entry (s : State) (a : Action) (q : BitVec 32) : Option Entry :=
  s.band.table.find? fun e => e.action == a && e.seq == q

/-- Due tick of opening `k` of a schedule (R215). -/
def Sched.openTick (c : Sched) (k : Nat) : Tick := dueTick (htAdd c.t0 (k * c.period.toNat))

/-- Due tick of closing `k`. -/
def Sched.closeTick (c : Sched) (k : Nat) : Tick := dueTick (htAdd c.t0 (k * c.period.toNat + c.length.toNat))

/-- Schedule `w` of the active set. -/
def State.sched (s : State) (w : Nat) : Sched := s.band.schedA.getD w {}

/-- Opening `k` exists. -/
def Sched.has (c : Sched) (k : Nat) : Bool := c.en && (c.count = 0 || k < c.count.toNat)

/-- The due edge actions as (tick, rank in R203, SEQ): table entries, openings and closings. -/
def State.edges (s : State) : List (Tick × Nat × Nat) :=
  ((s.band.table.filter fun e => e.resolved && e.action != .launch).map fun e => (dueTick e.t, actionRank e.action, e.seq.toNat)) ++
  ((List.range 16).filterMap fun w =>
    let c := s.sched w
    let k := s.band.opened.getD w 0
    if s.band.openW.getLsbD w then some (c.closeTick (k - 1), actionRank .windowClose, w)
    else if c.has k then some (c.openTick k, actionRank .windowOpen, w) else none)

/-- R203: no due edge action precedes this one. -/
def State.edgeTurn (s : State) (t : Tick) (rank q : Nat) : Bool :=
  s.bandRuns && s.isDue t &&
    !(s.edges.any fun x => tickLt x.1 t || (x.1 == t && (x.2.1 < rank || (x.2.1 == rank && x.2.2 < q))))

/-- An edge entry that is resolved and whose turn it is. -/
def State.dueEntry (s : State) (a : Action) (q : BitVec 32) : Option Entry :=
  (s.entry a q).filter fun e => e.resolved && s.edgeTurn (dueTick e.t) (actionRank a) q.toNat

/-- A descriptor completes DONE on the due tick of its last entry (R311, R312). -/
def State.entryDone (s : State) (e : Entry) : State :=
  match e.desc with
  | some n => if e.last then s.complete n stDone 0 0 (some (htOf (dueTick e.t))) none true else s
  | none => s

/-- Reasons of DISCARDED (R312). -/
def reFault : Nat := 1
def reClose : Nat := 2
def reParked : Nat := 3
def reEnded : Nat := 4

/-- An entry completes DISCARDED: as its descriptor's record, or as an ENTRY record (R202, R313). -/
def State.discardEntry (s : State) (e : Entry) (reason : Nat) (cause : BitVec 16) : State :=
  match e.desc with
  | some n => s.complete n stDiscarded cause (det10 [(22, 1, reason)]) none none true
  | none => s.reply s.stamp 1 0 [cplRecord 0x04 stDiscarded e.ptag 0 s.stamp 0 (grpOne true) cause
      (det10 [(22, 1, actionCode e.action), (23, 1, e.arg.toNat), (24, 4, e.id.toNat)])]

/-- The entries of a partition in the order of R203 and SEQ (R314). -/
def State.entriesOf (s : State) (t : PTag) : List Entry :=
  let before (a b : Entry) : Bool := actionRank a.action < actionRank b.action || (a.action == b.action && a.seq.toNat ≤ b.seq.toNat)
  sortBy before (s.band.table.filter fun e => !e.node && e.ptag == t)

/-- Is the descriptor's FIRE sent and its edge still to come? An action taken stands (R328). -/
def State.fired (s : State) (n : Nat) : Bool := s.tr.sent.any fun x => x.2.code == wFire && x.2.desc == some n

/-- R202, R317: every entry and every taken descriptor of the partition completes DISCARDED; the words
asked for it are dropped. Posted PARTITION_OPENs stay, and at a close PARTITION_CLOSE is DONE. -/
def State.discardAll (s : State) (t : PTag) (reason : Nat) (cause : BitVec 16) : State :=
  let es := s.entriesOf t
  let s := s.modBand fun b => { b with table := b.table.filter fun e => e.node || e.ptag != t }
  let s := es.foldl (fun s e => s.discardEntry e reason cause) s
  let s := s.modTr fun r => { r with acts := r.acts.filter fun a => a.ptag != t || a.code == wRelease }
  let ds := s.eng.taken.filter fun d => !d.fin && !d.node && d.ptag == t && d.opcode != 0x07 && !(d.opcode == 0x08 && reason == reClose) && !s.fired d.num
  ds.foldl (fun s d => s.complete d.num stDiscarded cause (det10 [(22, 1, reason)])) s

-- Latency signatures (R208 to R210).

/-- SIG_BLOCK of a set (R208). -/
def State.sigBlock (s : State) (t : TrellisSet) : BitVec 64 :=
  let r := s.tr
  hashZ (bytesOf 2 r.k.toNat ++ bytesOf 2 r.ltr.toNat ++ [r.holdLat, r.hCell, 4, 0] ++
    (List.range r.regions.toNat).flatMap fun g => (List.range r.blocks.toNat).flatMap fun b =>
      bytesOf 4 (assocGet (g * 64 + b) 0 t.trims).toNat)

/-- A swap of the context's partition is due at or before tick `t` (R203). -/
def State.swapBy (s : State) (tag : PTag) (t : Tick) : Bool :=
  ((s.part tag).bind (·.swap)).elim false fun a => tickLe (dueTick a.t) t

/-- A UC that the LAUNCH check raises; the entry is freed and nothing is sent. -/
def State.launchFault (s : State) (e : Entry) (cause : Nat) (det : BitVec 64) : State :=
  (s.freeEntry e.seq).raiseNow (uc 0x09 cause) 0 (some e.ptag) det

/-- R210: the check of one LAUNCH, against the set that is active at T. -/
def State.launchOne (s : State) (e : Entry) : State :=
  match (s.slotOf e.ptag).filter fun k => (s.ctx k).st = .active with
  | none => s.launchFault e 0x0B (detail [(24, 4, e.id.toNat)])
  | some k =>
    if s.tr.seat != .seated then s.launchFault e 0x0C (detail [(24, 4, e.id.toNat), (28, 1, match s.tr.seat with
      | .unseated => 0 | .seating => 1 | .seated => 2 | .failed => 3)])
    else
      let sh := s.swapBy e.ptag (dueTick e.t)
      let cfg := if sh then (s.ctx k).cfgS else (s.ctx k).cfgA
      let blk := s.sigBlock (if sh then s.tr.setS else s.tr.setA)
      let s := s.modBand fun b => { b with sigHost := s.pins.latSig }
      if cfg.sigHost != s.pins.latSig then
        (s.launchFault e 0x04 (detail [(24, 1, 0)])).modFc fun f => { f with details := f.details ++ [(uc 0x09 0x04, e.ptag, cfg.sigHost ^^^ s.pins.latSig)] }
      else if cfg.sigBlock != blk then s.launchFault e 0x04 (detail [(24, 1, 1)])
      else
        let (s, ok) := (s.freeEntry e.seq).sendWord { ix := 0, t := e.t, code := wFire, arg := e.arg.setWidth 4, ptag := e.ptag, desc := e.desc }
        if !ok then s
        else
          let s := s.modCtx k fun c => (c.startStep (dueTick e.t)).note s.stamp (.item secL (bytesOf 4 e.id.toNat ++ bytesOf 1 e.arg.toNat))
          if e.env then s.modBand fun b => { b with envFires := b.envFires ++ [e.t] } else s

/-- LAUNCH entries are checked in the order of their due ticks and SEQ (R175, R203). -/
def State.launchTurn (s : State) (e : Entry) : Bool :=
  let t := s.sampleTick e.t
  s.bandRuns && e.resolved && s.isDue t && s.wordTurn t wFire &&
    !(s.band.table.any fun x => x.action == .launch && x.resolved &&
      (tickLt (s.sampleTick x.t) t || (s.sampleTick x.t == t && x.seq.toNat < e.seq.toNat)))

/-- LAUNCH_CHECK (R187, R203, R210, R228): at the sampling tick of a LAUNCH entry. -/
def execLaunchCheck (q : BitVec 32) (s : State) : Result :=
  onLeaf s fun s => match s.entry .launch q with
    | some e => if s.launchTurn e then s.launchOne e else s
    | none => s

-- Refresh windows (R215 to R218).

/-- Openings taken by now, and whether the schedule is open (R215). -/
def Sched.stand (c : Sched) (now : Tick) : Nat × Bool :=
  let first := dueTick c.t0
  if !c.en || tickLt now first || c.period = 0 then (0, false)
  else
    let k := (now - first).toNat / c.period.toNat + 1
    let k := if c.count = 0 then k else min k c.count.toNat
    (k, (now - first).toNat < (k - 1) * c.period.toNat + c.length.toNat)

/-- mc_win (R216, R343, R349): by the active schedule that holds the controller, else high. -/
def State.mcWinNow (s : State) : BitVec 16 :=
  if !(s.isLeaf && s.pdOn 7) then 0
  else if s.pw.pfail then s.pins.mcPresent
  else (List.range 16).foldl (fun v m =>
    match (List.range 16).find? fun w => (s.sched w).en && (s.sched w).mask.getLsbD m with
    | some w => if s.band.openW.getLsbD w then setBit v m else v
    | none => if s.pins.mcPresent.getLsbD m then setBit v m else v) 0

/-- Drive mc_win. In the safe state it holds (R335). -/
def State.driveWin (s : State) : State :=
  if s.fc.safe then s else s.modPins fun p => { p with mcWin := s.mcWinNow }

/-- Ask for the WIN_OPEN and WIN_CLOSE words of opening `k` (R201, R215). -/
def State.askWindow (s : State) (w k : Nat) : State :=
  let c := s.sched w
  if c.has k && c.announce then
    (s.askWord (htAdd c.t0 (k * c.period.toNat)) wWinOpen (BitVec.ofNat 4 w)).askWord
      (htAdd c.t0 (k * c.period.toNat + c.length.toNat)) wWinClose (BitVec.ofNat 4 w)
  else s

/-- A schedule of the active set begins to hold now (R217, R218). -/
def State.enterSched (s : State) (w : Nat) : State :=
  let (k, o) := (s.sched w).stand s.tick
  let s := s.modTr fun r => { r with acts := r.acts.filter fun a => !((a.code == wWinOpen || a.code == wWinClose) && a.arg.toNat == w) }
  let s := s.modBand fun b => { b with opened := b.opened.set w k, openW := setBit b.openW w o }
  let c := s.sched w
  let s := if o && c.announce then s.askWord (htAdd c.t0 ((k - 1) * c.period.toNat + c.length.toNat)) wWinClose (BitVec.ofNat 4 w) else s
  s.askWindow w k

/-- WINDOW_OPEN (R201, R203, R216). -/
def execWindowOpen (w : BitVec 4) (s : State) : Result :=
  onLeaf s fun s =>
    let c := s.sched w.toNat
    let k := s.band.opened.getD w.toNat 0
    if c.has k && !s.band.openW.getLsbD w.toNat && s.edgeTurn (c.openTick k) (actionRank .windowOpen) w.toNat then
      ((s.modBand fun b => { b with opened := b.opened.set w.toNat (k + 1), openW := setBit b.openW w.toNat }).askWindow w.toNat (k + 1)).driveWin
    else s

/-- WINDOW_CLOSE (R201, R203, R216). -/
def execWindowClose (w : BitVec 4) (s : State) : Result :=
  onLeaf s fun s =>
    let c := s.sched w.toNat
    let k := s.band.opened.getD w.toNat 0
    if s.band.openW.getLsbD w.toNat && s.edgeTurn (c.closeTick (k - 1)) (actionRank .windowClose) w.toNat then
      (s.modBand fun b => { b with openW := setBit b.openW w.toNat false }).driveWin
    else s

/-- MC_FORCED_EDGE (R14, R56, R219): stamped by the TDC. -/
def execMcForcedEdge (m : BitVec 4) (stamp : HT80) (s : State) : Result :=
  onLeaf s fun s =>
    if s.pdOn 7 && s.pins.mcPresent.getLsbD m.toNat then
      let inside := s.pins.mcWin.getLsbD m.toNat
      let s := s.modBand fun b => { b with forced := satInc b.forced, lastMc := m, lastInside := inside }
      let s := match s.activeSlot with
        | some k => s.modCtx k fun c => ({ c with intr := satInc c.intr } : Ctx).note stamp .intr
        | none => s
      s.raise { code := ce 0x09 0x06, loc := 0, partV := s.activeTag.isSome, ptag := s.activeTag.getD 0, stamp := stamp,
                detail := detail [(24, 1, m.toNat), (25, 1, if inside then 1 else 0)] }
    else s

-- Load envelopes (R220 to R223).

/-- Levels between floor and run. -/
def Env.delta (e : Env) : Nat := e.lRun.toNat - e.lFloor.toNat

/-- s_up and s_dn in whole ns (R220, R221). -/
def Env.sUp (e : Env) : Nat := e.rUp.toNat * 1000 / e.delta
def Env.sDn (e : Env) : Nat := e.rDn.toNat * 1000 / e.delta

/-- T of every ENV launch that is held and resolved, or fired and not yet due (R221). -/
def State.envTimes (s : State) : List HT80 :=
  (s.band.table.filter fun e => e.action == .launch && e.env && e.resolved).map (·.t) ++ s.band.envFires

/-- U(t) for one launch, if its ramp is in force (R221). -/
def Env.ramp (e : Env) (now : Tick) (t : HT80) : Option Nat :=
  let left := (dueTick t - now).toNat
  if tickLe now (dueTick t) && left ≤ e.rUp.toNat * 1000 && e.delta != 0 && e.sUp != 0 then
    some (e.lRun.toNat - (left + e.sUp - 1) / e.sUp) else none

/-- D(t), if t_d has come (R221). -/
def State.descentLevel (s : State) : Option Nat :=
  let e := s.band.envA
  match s.band.descent with
  | some d =>
    if tickLe d s.tick && (!s.band.run || d == s.tick) then
      some (max e.lFloor.toNat (if e.delta = 0 || e.sDn = 0 then e.lFloor.toNat else e.lRun.toNat - (s.tick - d).toNat / e.sDn))
    else none
  | none => none

/-- Level of a LOAD_STEP ramp in force now (R223). -/
def Ramp.level (r : Ramp) (now : Tick) : Nat :=
  let d := (r.target.toNat - r.start.toNat) + (r.start.toNat - r.target.toNat)
  let begins := r.due - BitVec.ofNat 64 r.ofs
  let made := ((List.range d).filter fun k => tickLe (begins + BitVec.ofNat 64 ((k + 1) * r.ofs / d)) now).length
  if r.start.toNat ≤ r.target.toNat then r.start.toNat + made else r.start.toNat - made

/-- The target level (R221, R223, R349, R356). -/
def State.loadTarget (s : State) : Nat :=
  let b := s.band
  if s.pw.pfail then 0
  else if b.force then b.forceLevel.toNat
  else if !b.envA.en then (match b.ramps.getLast? with
    | some r => r.level s.tick
    | none => b.stepTarget.toNat)
  else if s.activeSlot.isSome then
    if b.run then b.envA.lRun.toNat
    else
      let us := s.envTimes.filterMap (b.envA.ramp s.tick)
      us.foldl max (match s.descentLevel with | some d => d | none => b.level.toNat)
  else match b.idle with
    | some (t, lv, step) => if step = 0 then 0 else lv.toNat - (s.tick - t).toNat / step
    | none => b.level.toNat

/-- Gray code (R58). -/
def gray (v : BitVec 4) : BitVec 4 := v ^^^ (v >>> 1)

/-- LOAD_LEVEL_CHANGE (R58, R222): one level, at least 32 ns after the last change. In the safe state the
output holds (R335). -/
def execLoadLevelChange (s : State) : Result :=
  onLeaf s fun s =>
    let t := s.loadTarget
    let v := s.band.level.toNat
    if s.pdOn 7 && !s.fc.safe && t != v && tickLe (s.band.lastChange + 32) s.tick then
      let up := t > v
      let far := up && t > v + 1
      let s := if far && !s.band.compressing then
          (s.modBand fun b => { b with compressed := true }).raiseNow (ce 0x09 0x07) 0 s.activeTag (detail [(24, 1, v), (25, 1, t)]) else s
      let n : BitVec 4 := BitVec.ofNat 4 (if up then v + 1 else v - 1)
      (s.modBand fun b => { b with level := n, lastChange := s.tick, compressing := far }).modPins fun p => { p with loadTarget := gray n }
    else s

/-- The context stops being active: the output descends under R223. -/
def State.idleDescent (s : State) : State :=
  s.modBand fun b => { b with
    run := false, descent := none, envFires := [],
    idle := if b.envA.en then some (s.tick, b.level, b.envA.sDn) else none }

/-- A LOAD_STEP's ramp begins (R223). -/
def State.startRamp (s : State) (e : Entry) : State :=
  if s.band.ramps.any fun r => r.seq == e.seq then s
  else s.modBand fun b => { b with ramps := b.ramps ++ [{ seq := e.seq, due := dueTick e.t, ofs := e.ofs.toNat * 1000, start := b.level, target := e.arg.setWidth 4 }] }

/-- What the passing of a tick does here: ramps begin, ENV launches fall due, t_d comes (R221, R223). -/
def State.bandTick (s : State) : State :=
  let s := (s.band.table.filter fun e => e.action == .loadStep && e.resolved &&
      s.isDue (dueTick e.t - BitVec.ofNat 64 (e.ofs.toNat * 1000))).foldl State.startRamp s
  let dueF := s.band.envFires.filter fun t => s.isDue (dueTick t)
  let s := if dueF.isEmpty then s else s.modBand fun b => { b with run := true, descent := none, envFires := b.envFires.filter fun t => !(dueF.contains t) }
  -- on t_d itself the descent stands at L_RUN, and a release may still end it (R221)
  if s.band.run && s.band.descent.elim false (fun d => tickLt d s.tick) then s.modBand fun b => { b with run := false } else s

/-- LOAD_STEP (R201, R203, R223). -/
def execLoadStep (q : BitVec 32) (s : State) : Result :=
  onLeaf s fun s => match s.dueEntry .loadStep q with
    | some e =>
      let s := (s.freeEntry q).modBand fun b => { b with stepTarget := e.arg.setWidth 4, ramps := b.ramps.filter fun r => r.seq != q }
      s.entryDone e
    | none => s

-- Lending (R347).

/-- Ramp start T − R_UP of every ENV launch held; none when one is unresolved. -/
def State.rampStarts (s : State) : Option (List Tick) :=
  if s.band.table.any fun e => e.action == .launch && e.env && !e.resolved then none
  else some (s.envTimes.map fun t => dueTick (htSub t (s.band.envA.rUp.toNat * 1000)))

/-- Every ramp start lies at least (or, with `strict`, more than) `d` ns ahead. -/
def State.rampsAhead (s : State) (d : Nat) (strict : Bool) : Bool :=
  match s.rampStarts with
  | none => false
  | some l => l.all fun t => tickLe s.tick t && (if strict then (t - s.tick).toNat > d else (t - s.tick).toNat ≥ d)

/-- The part of case A that holds throughout. -/
def State.lendBase (s : State) : Bool :=
  s.band.lendEn && !s.fc.safe && !s.pw.pfail && s.pdOn 7

/-- Case A but its last condition. -/
def State.lendA (s : State) : Bool :=
  s.lendBase && s.activeSlot.isSome && s.band.envA.en && s.band.level == s.band.envA.lFloor && s.descentLevel.isSome

/-- Case B. -/
def State.lendB (s : State) : Bool := s.lendBase && s.activeSlot.isNone && s.band.lendIdle && s.band.level = 0

/-- GUARD in ns. -/
def State.guardNs (s : State) : Nat := s.band.lendGuard.toNat * 1000

/-- The rise condition, and whether it is case A. -/
def State.lendRise (s : State) : Option Bool :=
  if s.pins.lend || !(s.band.lastFall.elim true fun t => tickLe (t + 1000) s.tick) then none
  else if s.lendA && s.rampsAhead (s.guardNs + 100000 * s.band.lendMin.toNat) false then some true
  else if s.lendB then some false else none

/-- The hold condition of the running episode. -/
def State.lendHolds (s : State) : Bool :=
  if s.band.lendCaseA then s.lendA && s.rampsAhead s.guardNs true else s.lendB

/-- pw_lend falls if its condition no longer holds; `inserted` when an insertion has just been made. -/
def State.lendFall (s : State) (inserted : Bool) : State :=
  if s.pins.lend && !s.lendHolds then
    let short := inserted && s.band.lendCaseA && s.lendA
    (s.modPins fun p => { p with lend := false }).modBand fun b => { b with
      lastFall := some s.tick, lendShort := if short then satInc b.lendShort else b.lendShort }
  else s

/-- PW_LEND_RISE (R59, R347). -/
def execPwLendRise (s : State) : Result :=
  onLeaf s fun s => match s.lendRise with
    | some a => (s.modPins fun p => { p with lend := true }).modBand fun b => { b with lendCaseA := a, lendEpisodes := satInc b.lendEpisodes }
    | none => s

/-- PW_LEND_FALL (R59, R347). -/
def execPwLendFall (s : State) : Result := onLeaf s fun s => s.lendFall false

-- Other edge entries (R201).

/-- SIGNAL_ENTRY (R201, R260). -/
def execSignalEntry (q : BitVec 32) (s : State) : Result :=
  onLeaf s fun s => match s.dueEntry .signal q with
    | some e =>
      -- the release effects of this tick come first (R263)
      if (s.slotOf e.ptag).elim false fun k => (s.ctx k).rels.any fun r => s.isDue (dueTick r.t) then s else
      let s := match (s.slotOf e.ptag).filter fun k => (s.ctx k).st = .active with
        | some k => s.objOp k (e.relRound.toNat % 4096) e.relBid e.id 3
        | none => s
      (s.freeEntry q).entryDone e
    | none => s

/-- R412: the stop window opens or closes on this tick. -/
def State.stopWindow (s : State) (n : Nat) (opens : Bool) : State :=
  s.modCapIn n fun c =>
    if c.winOpen == opens then c
    else if opens then { c with winOpen := true, tOpen := s.tick.setWidth 32 } else { c with winOpen := false, tClose := s.tick.setWidth 32 }

/-- CAPTURE_OPEN (R201, R412). -/
def execCaptureOpen (q : BitVec 32) (s : State) : Result :=
  onLeaf s fun s => match s.dueEntry .capOpen q with
    | some e => ((s.freeEntry q).stopWindow e.arg.toNat true).entryDone e
    | none => s

/-- CAPTURE_CLOSE (R201, R412). -/
def execCaptureClose (q : BitVec 32) (s : State) : Result :=
  onLeaf s fun s => match s.dueEntry .capClose q with
    | some e => ((s.freeEntry q).stopWindow e.arg.toNat false).entryDone e
    | none => s

-- Swap (R224, R415).

/-- The Leaf's own part of a swap: schedules, envelope, limits, signatures. The Trellis set follows its
own word (R182). -/
def State.swapLeaf (s : State) (t : PTag) : State :=
  match s.slotOf t with
  | none => s
  | some k =>
    let s := s.modCtx k fun c => { c with cfgA := c.cfgS, cfgS := c.cfgA }
    let s := s.modBand fun b => { b with schedA := b.schedS, schedS := b.schedA, envA := b.envS, envS := b.envA }
    ((List.range 16).foldl State.enterSched s).driveWin

/-- Every node of the tree exchanges the partition's entry, tree and rank map (R224, R415). -/
def Part.exchange (p : Part) : Part :=
  { p with act := p.shd, shd := p.act, ranksA := p.ranksS, ranksS := p.ranksA, copy := !p.copy, swap := none, swaps := satInc p.swaps }

/-- The SWAP_AT of this Leaf that armed the swap is DONE (R311). -/
def State.swapDone (s : State) (t : PTag) (a : SwapArm) : State :=
  match s.eng.taken.find? fun d => !d.fin && d.opcode == 0x05 && d.ptag == t && !d.node with
  | some d => s.complete d.num stDone 0 (det10 [(22, 4, a.id.toNat)]) (some (htOf (dueTick a.t))) none true
  | none => s

/-- SWAP (R203, R224): on the due tick of the armed swap. On a Hub no tick table orders it. -/
def execSwap (t : PTag) (s : State) : Result :=
  whenAlive s fun s =>
    match (s.part t).bind (·.swap) with
    | none => s
    | some a =>
      let e := s.band.table.find? fun e => e.action == .swap && e.ptag == t
      let turn := match e with
        | some e => s.edgeTurn (dueTick e.t) (actionRank .swap) e.seq.toNat
        | none => s.isDue (dueTick a.t) && !s.fc.safe && !s.pw.pfail
      if !turn then s
      else
        let s := (s.modPart t Part.exchange).swapLeaf t
        let s := s.mirrorPart t
        let s := match e with
          | some e => s.freeEntry e.seq
          | none => s
        s.swapDone t a

-- Park (R227, R272).

/-- Replay of a partition stops: its REPLAY_START is discarded (R292, R317). -/
def State.stopReplay (s : State) (t : PTag) : State :=
  if s.sync.replay.elim false (fun r => r.1 == t) then
    s.modSync fun y => { y with replay := none, replayQ := [], lastOfs := none, recG0 := none } else s

/-- PARK (R203, R227): on the due tick of T_rel, once the step has ended. -/
def execPark (q : BitVec 32) (s : State) : Result :=
  onLeaf s fun s => match s.dueEntry .park q with
    | none => s
    | some e =>
      match (s.slotOf e.ptag).filter fun k => (s.ctx k).st = .active with
      | none => s
      | some k =>
        if (s.ctx k).rels.any fun r => r.bid == e.relBid then s
        else
          let s := s.expireAll k
          let gone := ((s.ctx k).objs.filter fun o => o.2.disarms).length
          let s := s.modCtx k fun c => { c with
            st := .parked, objs := c.objs.map fun o => (o.1, o.2.parkOne), disarmed := satNat 8 gone, tStart := none, tArr := none }
          let s := s.modTr fun r => { r with acts := r.acts.filter fun a => a.obj.isNone }
          let s := s.modPart e.ptag fun p => { p with swap := none }
          let s := s.freeEntry q
          let s := match e.desc with
            | some n => s.complete n stDone 0 (det10 [(22, 4, e.relRound.toNat)]) (some (htOf (dueTick e.t))) none true
            | none => s
          ((s.stopReplay e.ptag).discardAll e.ptag reParked 0).idleDescent

-- Steps (R211 to R214, R240, R264, R265, R289, R291, R313).

/-- RELEASE record of a barrier that is not the step barrier (R313). -/
def releaseRecord (t : PTag) (a : Arm) (r : Rel) (tick : HT80) : BitVec 256 :=
  cplRecord 0x02 stDone t a.hostTag tick 0x02 (grpOne true) 0 (det10 [(22, 1, a.bid.toNat), (24, 4, r.round.toNat), (28, 2, r.j.toNat)])

/-- What a step reports at its release (R214, R289). -/
structure StepRep where
  n : BitVec 64
  tick : HT80
  slack : Int
  realign : Int
  gv : Bool
  lateQ : BitVec 16
  deriving DecidableEq, Repr

/-- The STEP group (R312, R313). -/
def stepGroup (t : PTag) (a : Arm) (c : Ctx) (r : StepRep) : List (BitVec 256) :=
  let grp (i : Nat) : Byte := BitVec.ofNat 8 (i + 12 + (if i = 3 then 16 else 0))
  let flags : BitVec 8 := (0 : BitVec 4) ++ bit c.divThis ++ bit c.rep ++ bit c.prov ++ bit r.gv
  let head : BitVec 64 := a.hostTag ++ t ++ (0x00 : BitVec 8) ++ (0x03 : BitVec 8)
  let mk (i : Nat) (w8 : BitVec 80) (w20 : BitVec 96) : BitVec 256 := w20 ++ grp i ++ (0x02 : BitVec 8) ++ w8 ++ head
  let g0 := if r.gv then c.g0 else 0
  let g1 := if r.gv then c.g1 else 0
  [ mk 0 r.tick ((0 : BitVec 8) ++ flags ++ r.n ++ (0 : BitVec 16)),
    mk 1 (c.intr ++ c.d0) (satInt 32 r.slack ++ c.d1),
    mk 2 (c.stretch.getD 0 ++ g0) (satInt 32 r.realign ++ g1),
    mk 3 (r.lateQ ++ c.p) ((0 : BitVec 64) ++ c.held) ]

/-- R294: G0 is compared at the release. -/
def State.replayG0 (s : State) (k : Bool) (n : BitVec 64) (gv : Bool) : State :=
  match s.sync.recG0 with
  | some (st, g) =>
    let s := s.modSync fun y => { y with recG0 := none }
    if st = n.setWidth 32 && gv && g != (s.ctx k).g0 then s.diverge k n else s
  | none => s

/-- The Record ring at a release that ends a step (R291). -/
def State.recordStep (s : State) (k : Bool) (r : StepRep) : State :=
  let c := s.ctx k
  let n := r.n.setWidth 32
  let ws := sortBy (fun a b => decide (a.1 ≤ b.1)) (c.wStep.filter fun w => w.2 != 0)
  let s := if s.sync.recRegion then ws.foldl (fun s w => s.record (recRegion w.1 c.ptag n w.2)) s else s
  let flags : Byte := (0 : BitVec 3) ++ bit c.divThis ++ bit s.sync.recOvf ++ bit c.rep ++ bit c.prov ++ bit r.gv
  -- OVF stands until a STEP record that carries it is written
  let s := if s.sync.rec_ then s.modSync fun y => { y with recOvf := false } else s
  let s := s.record (recStep flags c.ptag n c.d0 (if r.gv then c.g0 else 0))
  s.record (recStepT c.ptag n c.d1 (if r.gv then c.g1 else 0))

/-- R32, R212, R214, R264, R284, R289, R291, R313: the release of the step barrier ends the step. -/
def State.endStep (s : State) (k : Bool) (a : Arm) (r : Rel) : State :=
  let c := s.ctx k
  let tick := dueTick r.t
  let tA := c.lastArr.getD tick
  let start := c.tStart.getD tA
  let rep : StepRep := {
    n := c.step, tick := htOf tick, slack := slackOf start tA c.cfgA.budget, realign := htDiffNs r.t (htOf tA)
    gv := c.digestSlot.isSome, lateQ := r.j }
  let s := s.replayG0 k rep.n rep.gv
  let s := s.reply rep.tick 0 0 (stepGroup c.ptag a (s.ctx k) rep)
  let s := s.recordStep k rep
  let s := s.modBand fun b => { b with
    slack := satInt 32 rep.slack, lateSteps := if rep.slack < 0 then satInc b.lateSteps else b.lateSteps,
    descent := if b.descent.elim false (fun d => tickLe s.tick d) then none else b.descent }
  let s := s.expireAll k
  let due (o : Nat) : Bool := c.rels.any fun x => x.bid.toNat == o
  let again (o : Nat × Obj) : Obj := if c.resumed then o.2.restartDeadline r.t (due o.1) else o.2
  let objs := (s.ctx k).objs.map fun o => (o.1, if c.st = .active then (again o).realign r.t else o.2)
  let s := (s.ctx k).objs.foldl (fun s o => if c.st = .active && o.2.type == .timer && o.2.rel then s.dropTimerWake o.1 else s) s
  let s := s.modCtx k fun c => { c with
    step := c.step + 1, tStart := some tick, tArr := none, held := 0, intr := 0, stretch := none, overrun := false, divThis := false, prov := false,
    resumed := if c.st = .active then false else c.resumed, objs := objs }
  let s := s.modCtx k fun c => c.note s.stamp (.realign (BitVec.ofInt 64 rep.realign))
  objs.foldl (fun s o => if c.st = .active && o.2.type == .timer && o.2.rel then s.askTimerWake o.1 o.2 else s) s

/-- R282: the round's item, the digest slot of the step barrier zeroed. -/
def roundItem (a : Arm) (digest : Option Nat) (r : Rel) : List Byte :=
  let rec0 := match (if a.step then digest else none) with
    | some n => withDigest r.record n 0 0
    | none => r.record
  bytesOf 1 a.bid.toNat ++ bytesOf 4 r.round.toNat ++ (if a.types = 0 then [] else bytesOf 128 rec0.toNat)

/-- R240: on the due tick of a release the member releases the object, ends the step and reports. -/
def State.releaseNow (s : State) (k : Bool) (a : Arm) (r : Rel) : State :=
  let c := s.ctx k
  let s := s.modCtx k fun c => (({ c with rels := c.rels.erase r } : Ctx).note s.stamp (.lateQ r.j)).note s.stamp (.item secB (roundItem a c.digestSlot r))
  let s := s.setObj k a.bid.toNat ((s.obj k a.bid.toNat).releaseOne r.t r.j (c.st == .active))
  let s := if a.step then s.endStep k a r
    else if a.notify || a.resultAddr != 0 then s.reply (htOf (dueTick r.t)) 0 0 [releaseRecord c.ptag a r (htOf (dueTick r.t))] else s
  -- a held host arrival counts at once for the new round (R265)
  if c.st = .active && !a.chanEn then s.checkLocal k a.bid else s

/-- RELEASE_DUE (R32, R239, R240). Releases due earlier, or on the same tick with a lower BARRIER_ID,
come first (R282). -/
def execReleaseDue (t : PTag) (bid : Byte) (s : State) : Result :=
  onLeaf s fun s =>
    match s.slotOf t with
    | none => s
    | some k =>
      let c := s.ctx k
      match c.arm bid, c.rels.find? fun r => r.bid == bid with
      | some a, some r =>
        let before (x : Rel) : Bool := tickLt (dueTick x.t) (dueTick r.t) || (dueTick x.t == dueTick r.t && x.bid.toNat < bid.toNat)
        if s.isDue (dueTick r.t) && !c.rels.any before then s.releaseNow k a r else s
      | _, _ => s

/-- STEP_OVERRUN (R213): t_arr has not come by t_start + LIMIT. -/
def execStepOverrun (t : PTag) (s : State) : Result :=
  onLeaf s fun s =>
    match (s.slotOf t).filter fun k => (s.ctx k).st = .active with
    | none => s
    | some k =>
      let c := s.ctx k
      match c.tStart with
      | none => s
      | some st =>
        if c.cfgA.limit = 0 || c.tArr.isSome || c.overrun || !s.bandRuns || !s.isDue (st + c.cfgA.limit.setWidth 64) then s
        else
          let s := s.modCtx k fun c => { c with overrun := true }
          let host := c.stepArm.elim false fun a => !a.chanEn
          let late : Nat := match c.stepArm with
            | some a => let want := s.tr.regionMask a.chan
                        ((List.range 128).find? fun r => want.getLsbD r && !(c.chan a.chan).arrived.getLsbD r).getD 0
            | none => 0
          let why : Nat := if s.holdNow then 1 else if host then 2 else 0
          let region : Nat := if why = 1 then s.tr.lastRegion.toNat else if why = 2 then 0 else late
          let s := s.raiseNow (uc 0x09 0x05) (mkLoc region) (some t) (detail [(24, 1, why), (28, 4, (c.step.setWidth 32).toNat)])
          if why = 2 then s
          else
            let g : BitVec 7 := BitVec.ofNat 7 region
            let ch := (c.stepArm.filter (·.chanEn)).map (·.chan)
            let s := (s.modBand fun b => { b with overrun := some { ptag := t, region := g, stamp := s.stamp, chan := ch } }).modTr fun r => { r with reads := [] }
            match ch with
            | none => s
            | some ch =>
              let ix := ixOutstanding + ch.setWidth 7
              (List.range s.tr.blocks.toNat).foldl (fun s b => s.access false 1 ⟨g, BitVec.ofNat 6 b, 0⟩ ix) (s.access false 2 ⟨g, 0, 0⟩ ix)

/-- A READ of what is outstanding on a channel (R213). -/
def Access.asks (x : Access) : Bool := !x.write && x.ix.toNat / 16 == 2

/-- What the READ of a unit brought of its lowest outstanding child; 0x3F if it brought nothing. -/
def Trellis.outstandingOf (r : Trellis) (level : Level) (a : CellAddr) : BitVec 6 :=
  ((r.reads.find? fun x => x.1 == (level, a)).bind fun x => x.2[1]?).elim 0x3F fun w => w.setWidth 6

/-- OVERRUN_READ_DONE (R213, R316): when the READs are answered or have failed, at the latest after 50 µs, a FAULT_DETAIL record
names the lowest outstanding block and cell of the region, or 0x3F. Operands: the overrun's partition and region. -/
def execOverrunReadDone (ptag : PTag) (region : BitVec 7) (s : State) : Result :=
  onLeaf s fun s =>
    match s.band.overrun.filter fun o => o.ptag == ptag && o.region == region with
    | none => s
    | some o =>
      if s.tr.accesses.any Access.asks && !tickLe (htInt o.stamp + 50000) s.tick then s
      else
      let block := s.tr.outstandingOf 2 ⟨o.region, 0, 0⟩
      let cell := if block = 0x3F then 0x3F else s.tr.outstandingOf 1 ⟨o.region, block, 0⟩
      let s := (s.modBand fun b => { b with overrun := none }).modTr fun r => { r with accesses := r.accesses.filter (!·.asks) }
      match o.seq with
      | none => s
      | some q => s.putGroup 3 [({
          kind := 0x41, flags := 1, ptag := o.ptag, code := uc 0x09 0x05, seq := q, stamp := o.stamp, node := s.elect.node
          loc := mkLoc o.region.toNat block.toNat cell.toNat, detail := 0 } : EvRec).bits]

-- Deadlines of objects (R263, R265).

/-- The active context and one of its objects. -/
def State.activeObj (s : State) (o : Nat) : Option (Bool × Obj) := s.activeSlot.map fun k => (k, s.obj k o)

/-- The deadline of an object of the active context has passed, if it is of one of the types `f`. -/
def State.objDue (s : State) (o : Nat) (f : ObjType → Bool) : State :=
  match s.activeObj o with
  | some (k, x) => if f x.type then s.expireObj k o else s
  | none => s

/-- WAIT_TIMEOUT (R20, R263): the tick after the deadline. -/
def execWaitTimeout (o : BitVec 12) (s : State) : Result := onLeaf s fun s => s.objDue o.toNat fun t => t == .counter || t == .flag

/-- TIMER_FIRE (R20, R262, R263): its WAKE has been asked for at arming. -/
def execTimerFire (o : BitVec 12) (s : State) : Result := onLeaf s fun s => s.objDue o.toNat (· == .timer)

/-- BARRIER_TIMEOUT (R20, R265): DEADLINE has passed before the release is accepted. -/
def execBarrierTimeout (bid : Byte) (s : State) : Result := onLeaf s fun s => s.objDue bid.toNat (· == .barrier)

end Sys2Proof.Machine
end

