-- ==== Sys2Proof/Machine/Dump.lean ====
section
/-!
DEFINITION. The dump (09, R274 to R277): its records, and the writing of them to the Dump ring as space
allows (R304).
-/

namespace Sys2Proof.Machine

/-- A tick-table entry in the layout of R200. -/
def Entry.bits (e : Entry) : BitVec 256 :=
  let flags : BitVec 8 := (0 : BitVec 3) ++ bit e.resolved ++ bit e.node ++ bit e.env ++ bit e.rel ++ (1 : BitVec 1)
  e.seq ++ e.relRound ++ e.relBid ++ e.arg ++ e.ofs ++ (if e.resolved then e.t else 0) ++ e.id ++
    (if e.node then 0 else e.ptag) ++ flags ++ BitVec.ofNat 8 (actionCode e.action)

/-- OBJECT (R276). -/
def objRecord (o : Nat) (x : Obj) : BitVec 256 := x.bits ++ BitVec.ofNat 16 o ++ (0 : BitVec 8) ++ (0x11 : BitVec 8)

/-- SLOT (R276). -/
def slotRecord (expArr : BitVec 16) (b : BarSlot) : BitVec 256 :=
  (0 : BitVec 48) ++ b.tlCur ++ b.typesCur ++ b.misuse ++ expArr ++ b.cntNext ++ b.cntCur ++ (0 : BitVec 8) ++
    (0 : BitVec 5) ++ bit b.sent ++ b.cur ++ b.bid ++ (0x12 : BitVec 8)

/-- UNIT (R276, R277). -/
def unitRecord (u : TUnit) : BitVec 256 :=
  (0 : BitVec 144) ++ u.first ++ (0 : BitVec 8) ++ ((0 : BitVec 6) ++ bit u.ovf ++ bit (u.first != 0)) ++ u.arrNext ++ u.arrCur ++
    u.misuse ++ u.addr.cell.setWidth 8 ++ u.addr.block.setWidth 8 ++ u.addr.region.setWidth 8 ++ u.level.setWidth 8 ++ (0x14 : BitVec 8)

/-- A unit whose masks, counts and latches are all 0 is omitted (R275). -/
def TUnit.quiet (u : TUnit) : Bool := u.arrCur = 0 && u.arrNext = 0 && u.misuse = 0 && u.first = 0 && !u.ovf

/-- Code of a context state (R256). -/
def CtxSt.code : CtxSt → BitVec 3
  | .free => 0 | .opening => 1 | .active => 2 | .parked => 3 | .ended => 4

/-- Units in region, block and cell order; a region's own record first (R275). -/
def unitKey (u : TUnit) : Nat :=
  (u.addr.region.toNat * 64 + u.addr.block.toNat) * 256 + u.addr.cell.toNat * 4 + (3 - u.level.toNat)

/-- Every unit of a region of TR_GEOM. -/
def Trellis.regionUnits (r : Trellis) (g : Nat) : List TUnit :=
  let at_ (l : Level) (b c : Nat) : TUnit := { level := l, addr := ⟨BitVec.ofNat 7 g, BitVec.ofNat 6 b, BitVec.ofNat 6 c⟩ }
  at_ 2 0 0 :: (List.range r.blocks.toNat).flatMap fun b => at_ 1 b 0 :: (List.range r.cells.toNat).map fun c => at_ 0 b c

/-- The units whose records a dump holds: those that hold anything, and every unit of a region that is not seated, which answers
no READ (R275, R277). -/
def State.dumpUnits (s : State) : List TUnit :=
  let mute := (List.range s.tr.regions.toNat).filter fun g => !s.tr.seated.getLsbD g
  sortBy (fun a b => decide (unitKey a ≤ unitKey b)) ((s.tr.units.filter fun u => !u.quiet && s.tr.unitSeated u.level u.addr) ++ mute.flatMap s.tr.regionUnits)

/-- Unit records appear for an ACTIVE slot, and for an ENDED one with no slot active since (R275). -/
def Ctx.unitsShown (c : Ctx) : Bool := c.st == .active || (c.st == .ended && !c.superseded)

/-- HEADER and the items of a dump of context slot `k`. -/
def State.dumpOfSlot (s : State) (k : Bool) (reason : Byte) (desc : Option Nat) : DumpJob :=
  let c := s.ctx k
  let live := c.st == .active || c.st == .parked || c.st == .opening
  let bids := (s.fab.parts.find? fun p => p.ptag == c.ptag).elim [] fun p => p.slots.map (·.bid)
  let slots : List DumpItem := if live then bids.map .slot else c.endSlots.map .fixed
  let objs := c.objs.filter fun o => o.2.type != .none
  let ents := if live then sortBy (fun a b => decide (a.seq.toNat ≤ b.seq.toNat)) (s.band.table.filter fun e => !e.node && e.ptag == c.ptag) else []
  let us := if c.unitsShown then s.dumpUnits else []
  let slotB : BitVec 8 := (0 : BitVec 3) ++ bit live ++ c.st.code ++ bit k
  let h : BitVec 256 := c.step.setWidth 32 ++ BitVec.ofNat 16 us.length ++ BitVec.ofNat 16 ents.length ++ BitVec.ofNat 16 slots.length ++
    BitVec.ofNat 16 objs.length ++ c.fault ++ (if live then s.stamp else c.endT) ++ slotB ++ (0 : BitVec 4) ++ s.elect.node ++
    c.ptag ++ reason ++ (0x10 : BitVec 8)
  { slot := some k, ptag := c.ptag, desc := desc
    todo := [.fixed h] ++ objs.map (fun o => .object o.1) ++ slots ++ ents.map (fun e => .entry e.seq) ++
      us.map (fun u => .unit u.level u.addr) ++ [.last] }

/-- A dump of a partition's barrier slots on a Hub; those of an ended partition stand as they are. -/
def State.dumpOfHub (s : State) (p : Part) (desc : Option Nat) : DumpJob :=
  let items : List DumpItem := p.slots.map fun b => if p.ended then .fixed (slotRecord p.act.expArr b) else .slot b.bid
  let h : BitVec 256 := (0 : BitVec 32) ++ (0 : BitVec 16) ++ (0 : BitVec 16) ++ BitVec.ofNat 16 p.slots.length ++ (0 : BitVec 16) ++ p.fault ++
    (if p.ended then p.tClose.getD s.stamp else s.stamp) ++ (0xFF : BitVec 8) ++ (0 : BitVec 4) ++ s.elect.node ++ p.ptag ++ (0x01 : BitVec 8) ++ (0x10 : BitVec 8)
  { slot := none, ptag := p.ptag, desc := desc, todo := [.fixed h] ++ items ++ [.last] }

/-- The record of an item as it reads now (R276). -/
def State.dumpRecord (s : State) (j : DumpJob) : DumpItem → BitVec 256
  | .fixed r => r
  | .object o => match j.slot with
    | some k => objRecord o (s.obj k o)
    | none => 0
  | .slot b => match s.fab.parts.find? fun p => p.ptag == j.ptag with
    | some p => slotRecord p.act.expArr ((p.slot b).getD { bid := b })
    | none => slotRecord 0 { bid := b }
  | .entry q => ((s.band.table.find? fun e => e.seq == q).map Entry.bits).getD 0
  | .unit l a => unitRecord (s.unit l a)
  | .last => (0 : BitVec 160) ++ crc32c (j.bytes.flatMap fun r => bytesOf 32 r.toNat) ++ BitVec.ofNat 32 (j.written + 1) ++ (0x1F : BitVec 32)

/-- R277: a unit that does not answer under R180 is recorded with FIRST 0xFFFF: one whose region is not seated, so that no packet
reaches it. -/
def State.itemRecord (s : State) (j : DumpJob) (i : DumpItem) : BitVec 256 :=
  match i with
  | .unit l a =>
    if !s.tr.unitSeated l a then unitRecord { addr := a, level := l, first := 0xFFFF } &&& ~~~((0xFF : BitVec 256) <<< 80)
    else s.dumpRecord j i
  | _ => s.dumpRecord j i

/-- Write what the Dump ring has room for. The last record's write response ends the dump. -/
def State.pumpDump (s : State) : Nat → State
  | 0 => s
  | n + 1 =>
    match s.eng.dump with
    | none => s
    | some j =>
      match j.todo with
      | [] => s
      | i :: rest =>
        if !s.ringRuns 6 || (s.ring 6).noRoom 1 then
          s.modEng fun e => { e with dump := some { j with stalled := some (j.stalled.getD s.tick) } }
        else
          let r := s.itemRecord j i
          let j' := { j with todo := rest, written := j.written + 1, bytes := j.bytes ++ [r], stalled := none }
          ((s.drew.modEng fun e => { e with dump := some j' }).writeGroup 6 [r] none).pumpDump n

/-- Records a dump has left. -/
def State.dumpLeft (s : State) : Nat := s.eng.dump.elim 0 fun j => j.todo.length

/-- Is the item a unit's record? -/
def DumpItem.isUnit : DumpItem → Bool
  | .unit _ _ => true
  | _ => false

/-- R277: a broadcast READ of the dump index at each level. -/
def State.readUnits (s : State) : State :=
  [2, 1, 0].foldl (fun s l => s.access false l ⟨0, 0, 0⟩ ixDump 0 (some 3)) s

/-- A dump that has waited until a context became ACTIVE shows no units (R275): N_UNIT is 0. -/
def DumpJob.withoutUnits (j : DumpJob) : DumpJob :=
  { j with todo := (j.todo.filter fun i => !i.isUnit).map fun i => match i with
      | .fixed r => .fixed (if r.extractLsb' 0 8 = 0x10 then r &&& ~~~((0xFFFF : BitVec 256) <<< 208) else r)
      | i => i }

/-- A dump begins. -/
def State.startDump (s : State) (j : DumpJob) : State :=
  let s := s.modEng fun e => { e with dump := some j }
  let s := match j.slot with
    | some k => s.modCtx k fun c => { c with dumpBusy := true }
    | none => s
  (if j.todo.any DumpItem.isUnit then s.readUnits else s).pumpDump j.todo.length

/-- R274: the dump of a slot at a fault end; it waits while another dump is written. -/
def State.autoDump (s : State) (k : Bool) : State :=
  if !s.sync.autoDump then s
  else if s.eng.dump.isSome then
    (s.modEng fun e => { e with dumpQ := e.dumpQ ++ [s.dumpOfSlot k 0x02 none] }).modCtx k fun c => { c with dumpBusy := true }
  else s.startDump (s.dumpOfSlot k 0x02 none)

/-- The dump is over: the next one waiting begins. -/
def State.endDump (s : State) (status : Byte) : State :=
  match s.eng.dump with
  | none => s
  | some j =>
    let s := s.modEng fun e => { e with dump := none }
    let s := match j.slot with
      | some k => s.modCtx k fun c => { c with dumpBusy := s.eng.dumpQ.any fun x => x.slot == some k }
      | none => s
    let s := match j.desc with
      | some n => s.complete n status (if status = stIncomplete then ce 0x0D 0x03 else 0) (det10 [(22, 4, j.written)])
      | none => s
    match s.eng.dumpQ with
    | j :: q => (s.modEng fun e => { e with dumpQ := q }).startDump (if (j.slot.map s.ctx).elim false Ctx.unitsShown then j else j.withoutUnits)
    | [] => s

/-- DUMP_ABANDON (R304): 10 ms without space. -/
def execDumpAbandon (s : State) : Result :=
  whenAlive s fun s =>
    match s.eng.dump with
    | some j =>
      if j.stalled.elim false fun t => tickLe (t + 10000000) s.tick then
        let s := s.modRing 6 fun r => { r with drop := satInc r.drop }
        (s.raiseNow (ce 0x0D 0x03) 0 (some j.ptag) (detail [(24, 2, j.written)])).endDump stIncomplete
      else s
    | none => s

end Sys2Proof.Machine
end

