-- ==== Sys2Proof/Machine/Fabric.lean ====
section
/-!
DEFINITION. Partitions (05, R143 to R161): a node's place in the barrier tree, the open with its
acknowledgements and its commit, the close, the quiesce point, and the root's checks and records.
-/

namespace Sys2Proof.Machine

-- Stale flits (R159).

/-- A dropped flit is counted: on a Hub by partition number, on a Leaf in SO_DROP.STALE. -/
def State.countStale (s : State) (t : PTag) : State :=
  if s.isLeaf then s.modSync fun y => { y with stale := satInc y.stale }
  else s.modFab fun b => { b with stales := assocSet (ptPart t).toNat (satInc (assocGet (ptPart t).toNat 0 b.stales)) b.stales }

/-- R159: the node takes a partition-scoped flit that is neither PART nor MIRROR. -/
def State.takes (s : State) (t : PTag) : Bool :=
  (s.part t).elim false fun p =>
    (p.st == .open_ || p.st == .closing) && !p.ended && p.tClose.elim true fun c => tickLe s.tick (dueTick c)

-- Messages.

/-- A PART payload of this node. -/
def State.partMsg (s : State) (t : PTag) : PartMsg :=
  { ptag := t, bidsM1 := 0, node := s.elect.node, feat := 0, t := 0, aux := 0, dmax := 0 }

/-- Ports on which a partition's downward PART and MIRROR flits leave this node (R146). -/
def Part.downPorts (p : Part) : List PortNo := p.act.children ++ p.down.toList

/-- Ports toward the node's children on the time tree. -/
def State.timeKids (s : State) : List PortNo := s.upPorts.filter fun p => (s.port p).partnerTp

/-- A PART flit down the tree. -/
def State.partDown (s : State) (p : Part) (op : PartOp) (m : PartMsg) : State := s.sendOn p.downPorts 7 (.part op m)

-- The place of a node (R145, R147, R148).

/-- R148: BELOW and PORT of an entry at this node. -/
def State.placeRank (s : State) (r : RankEntry) : RankEntry :=
  let a := r.apexHops.toNat
  let h := s.elect.hops.toNat
  let own := (s.elect.route.drop a).take (h - a)
  let path := routeList r.path
  let below := a ≤ h && path.take (h - a) == own
  { r with below := below, port := if below then path.getD (h - a) 0xFF else 0xFF }

/-- What is left of an entry's path below this node. -/
def State.restOf (s : State) (r : RankEntry) : List Byte := (routeList r.path).drop (s.elect.hops.toNat - r.apexHops.toNat)

/-- Arrivals that a relay-only Leaf passes on, from the paths of the members below it (R145). -/
def relayArrivals : Nat → List (List Byte) → Nat
  | 0, _ => 0
  | n + 1, paths =>
    ((paths.filterMap List.head?).eraseDups.map fun b =>
      let sub := (paths.filter fun l => l.head? == some b).map List.tail
      if sub.contains [] then 1 else relayArrivals n sub).sum

/-- Is the partner on port `b` a Hub? -/
def State.hubAt (s : State) (b : Byte) : Bool := (s.port (b.setWidth 6)).partnerHub

/-- R145, R153: the node finds its place from the rank entries: children, EXP_ARR, apex, UP_PORT. A Leaf
uses the mirrored entries for this alone. A node at the hop count of the apex that is not the apex lies beside the tree. -/
def State.placePart (s : State) (p : Part) : Part :=
  let rs := p.ranksA.map s.placeRank
  let apexHops := (rs.head?.map (·.apexHops)).getD 0
  let apex := p.act.apexNode == s.elect.node
  let onPath := apex || apexHops.toNat < s.elect.hops.toNat
  let paths := if onPath then (rs.filter (·.below)).map s.restOf else []
  let kids := (paths.filterMap List.head?).eraseDups
  let me := s.isLeaf && paths.contains []
  let arr (b : Byte) : Nat :=
    let sub := (paths.filter fun l => l.head? == some b).map List.tail
    if s.hubAt b || sub.contains [] then 1 else relayArrivals 8 sub
  let on := apex || !paths.isEmpty
  let set : PartSet → PartSet := fun c => { c with
    apex := apex, upPort := if apex || !on then none else s.elect.parent, children := if on then kids.map (·.setWidth 6) else [],
    expArr := BitVec.ofNat 16 ((if me then 1 else 0) + (kids.map arr).sum) }
  { p with ranksA := rs, ranksS := rs, member := me, apexHops := apexHops, act := set p.act, shd := set p.shd }

/-- A node with hop count `hops` lies on the barrier tree: it is the apex, or it lies below the apex and a member lies at or
below it (R145). -/
def Part.onTree (p : Part) (hops : Byte) : Bool := p.act.apex || (p.apexHops.toNat < hops.toNat && p.ranksA.any (·.below))

-- The end of a partition at this node (R157 to R159, R256, R274, R313, R317, R327).

/-- T_q (R158). -/
def quiesceOf (close : HT80) (dMax : BitVec 32) : HT80 := htAdd close (2 * dMax.toNat)

/-- R256, R258: the slot becomes ENDED; replay of its partition stops. -/
def State.endSlot (s : State) (k : Bool) (stamp : HT80) (fault : BitVec 16) : State :=
  let c := s.ctx k
  let recs := ((s.part c.ptag).map fun p => p.slots.map (slotRecord p.act.expArr)).getD []
  let s := s.modCtx k fun c => { c with
    st := .ended, image := true, imageTag := c.ptag, endSlots := recs, clearing := false, fault := fault, endT := stamp, tStart := none, tArr := none, rels := [] }
  -- no WAKE is issued any more (R258)
  let s := if c.st = .active then s.modTr fun r => { r with acts := r.acts.filter fun a => a.obj.isNone } else s
  let s := s.stopReplay c.ptag
  let s := if (s.band.overrun.elim false fun o => o.ptag == c.ptag) then s.modBand fun b => { b with overrun := none } else s
  if c.st = .active then s.idleDescent else s

/-- CLOSE_ACK goes up once this node has ended the partition and every barrier child has sent its own. -/
def State.tryCloseAck (s : State) (t : PTag) : State :=
  match s.part t with
  | none => s
  | some p =>
    if p.ended && !p.closeAcked && p.act.children.all p.closeAcks.contains then
      let s := s.modPart t fun p => { p with closeAcked := true }
      match p.act.upPort with
      | some u => s.send u 7 (.part .closeAck (s.partMsg t))
      | none => s
    else s

/-- The staged entries of a partition number are freed (R155). -/
def State.unstage (s : State) (t : PTag) : State :=
  s.modFab fun b => { b with staged := b.staged.filter fun g => ptPart g.ptag != ptPart t }

/-- The partition ends here. `stamp` is the close tick or the fault stamp, `fault` 0 after a close. A
close tick that stands stays (R158). -/
def State.endPart (s : State) (t : PTag) (stamp : HT80) (fault : BitVec 16) : State :=
  match s.part t with
  | none => s
  | some p =>
    if p.ended then s
    else
      let close := p.tClose.getD stamp
      let tq := quiesceOf close p.act.dMax
      let slot := s.slotOf t
      -- R155: the fault of a partition in OPENING cancels its open
      let s := if p.st = .opening then s.unstage t else s
      let s := s.modPart t fun p => { p with st := .quiesce, ended := true, tClose := some close, tEvent := tq, fault := fault, swap := none }
      let s := match slot with
        | some k => s.endSlot k stamp fault
        | none => s
      let s := s.discardAll t (if fault = 0 then reClose else reFault) fault
      -- a PARTITION_OPEN bound to this open, and the PARTITION_CLOSEs, after the DISCARDED records
      let s := (s.eng.taken.filter fun d => !d.fin && d.opcode == 0x07 && d.bound && ptPart d.ptag == ptPart t).foldl
        (fun s d => s.complete d.num stDiscarded fault (det10 [(22, 1, if fault = 0 then reClose else reFault)]) none (some t)) s
      let s := (s.eng.taken.filter fun d => !d.fin && d.opcode == 0x08 && d.ptag == t).foldl (fun s d => s.complete d.num stDone 0 tq (some (htOf (dueTick close)))) s
      let s := s.modEng fun e => { e with ends := e.ends ++ [endRecord t stamp tq fault] }
      let s := match slot with
        | some k => if fault = 0 then s else s.autoDump k
        | none => s
      (s.mirrorPart t).flushEnds.tryCloseAck t

/-- The fault that a forwarded PART FAULT or a local UC brings: at once, or on its tick (R327). -/
def State.faultPart (s : State) (t : PTag) (stamp : HT80) (fault : BitVec 16) : State :=
  if s.isDue (dueTick stamp) then s.endPart t stamp fault
  else s.modPart t fun p => { p with st := .closing, tClose := some (p.tClose.getD stamp), fault := fault }

/-- CLOSE_TICK (R157, R158): the due tick of the close tick. -/
def execCloseTick (part : BitVec 10) (s : State) : Result :=
  whenAlive s fun s =>
    match s.partNo part with
    | some p =>
      match p.tClose with
      | some c => if !p.ended && s.isDue (dueTick c) then s.endPart p.ptag c p.fault else s
      | none => s
    | none => s

-- Refusals and the commit, at one node.

/-- The root mirrors that an entry is FREE again, in both sets (R128, R153). -/
def State.mirrorFree (s : State) (p : Part) : State :=
  [false, true].foldl (fun s sh => s.mirror { (p.mirrorMsg sh false) with entry := (p.word sh false) &&& ~~~(0xFF0000 : BitVec 160) }) s

/-- The entry is forgotten. -/
def State.dropPart (s : State) (t : PTag) : State :=
  s.modFab fun b => { b with parts := b.parts.filter fun p => p.ptag != t || p.st == .free }

/-- The unbound opener descriptor of a partition number, or the one bound to it. -/
def State.opener (s : State) (t : PTag) (bound : Bool) : List Taken :=
  s.eng.taken.filter fun d => !d.fin && d.opcode == 0x07 && ptPart d.ptag == ptPart t && (if bound then d.bound else d.body.getLsbD 12)

/-- R158: a CLOSE has cancelled the open: the entry, its runs and the member's context stay held until T_q. A REFUSED carries
T 0, so that a node other than the root counts T_q from the arrival (DESIGN CHOICE, log entry 53). -/
def State.cancelHere (s : State) (t : PTag) : State :=
  match s.part t with
  | none => s
  | some p =>
    let close := htOf s.tick
    let tq := quiesceOf close p.act.dMax
    let s := match s.slotOf t with
      | some k => s.modCtx k fun c => { c with st := .ended, image := true, imageTag := t, clearing := false, endT := close }
      | none => s
    let s := s.modPart t fun p => { p with st := .quiesce, ended := true, tClose := some close, tEvent := tq, closeAcked := true }
    let s := (s.opener t p.accepted ++ s.opener t false).foldl (fun s d => s.complete d.num stRefused (refusal 0x05 0x1A) 0 none (some t)) s
    (s.eng.taken.filter fun d => !d.fin && d.opcode == 0x08 && d.ptag == t).foldl (fun s d => s.complete d.num stDone 0 tq) s

/-- R156, R158, R256: a REFUSED at a node. An OPENING entry is forgotten and its slot is FREE again, or, after a CLOSE, stays
held; after T a REFUSED counts as a fault. -/
def State.refuseHere (s : State) (t : PTag) (cause : BitVec 16) : State :=
  match s.part t with
  | none => (s.opener t false).foldl (fun s d => s.complete d.num stRefused cause) s
  | some p =>
    if p.st = .opening then
      if cause = refusal 0x05 0x1A then s.cancelHere t
      else
        let s := match s.slotOf t with
          | some k => s.modCtx k fun c => { c with st := .free, clearing := false, ptag := if c.image then c.imageTag else 0 }
          | none => s
        let s := (s.mirrorFree p).dropPart t
        (s.opener t p.accepted ++ s.opener t false).foldl (fun s d => s.complete d.num stRefused cause 0 none (some t)) s
    else if p.ended then s
    else (s.raiseNow (uc 0x05 0x02) 0 (some t) (detail [(24, 2, cause.toNat), (26, 3, noNode.toNat)])).faultPart t s.stamp (uc 0x05 0x02)

/-- The commit reaches a node. -/
def State.commitHere (s : State) (t : PTag) (m : PartMsg) : State :=
  s.modPart t fun p => if p.st = .opening then { p with
    committed := true, tOpen := if m.t = 0 then p.tOpen else m.t, tEvent := if m.t = 0 then p.tEvent else m.t } else p

-- The root's records (R143, R149).

/-- Longest common beginning of two chains. -/
def commonPrefix : List NodeId → List NodeId → List NodeId
  | a :: l, b :: r => if a = b then a :: commonPrefix l r else []
  | _, _ => []

/-- From the root to the apex: the lowest common ancestor (R145). -/
def State.apexChain (s : State) (members : List NodeId) : List NodeId :=
  match members with
  | [] => []
  | m :: r => r.foldl (fun c n => commonPrefix c (s.chain n 9)) (s.chain m 9)

/-- D_max in ns (R143). -/
def dMaxOf (worst margin : Nat) : Nat := roundUp 32 ((worst + margin * 65536 + 65535) / 65536)

/-- The partition's nodes: every node from the apex to a member. -/
def State.treeNodes (s : State) (apex : NodeId) (members : List NodeId) : List NodeId :=
  (members.flatMap fun m => (s.chain m 9).dropWhile (· != apex)).eraseDups

/-- Is a node a Hub, as the root knows it? -/
def State.isHubNode (s : State) (n : NodeId) : Bool := if n = s.elect.node then !s.isLeaf else (s.nodeById n).elim false (·.hub)

/-- The lowest index at which a run of `size` is free among `used` runs (start, size), below `cap`. -/
def fitRun (used : List (Nat × Nat)) (size cap : Nat) : Option Nat :=
  (sortBy (fun a b => decide (a ≤ b)) (0 :: used.map fun r => r.1 + r.2)).find? fun a =>
    a + size ≤ cap && used.all fun r => r.2 = 0 || a + size ≤ r.1 || r.1 + r.2 ≤ a

/-- Rank entries and barrier slots of a Hub (R148, R153). -/
def rankPool : Nat := 65536
def slotPool : Nat := 16384

/-- Partitions that will free their resources (R149). -/
def Part.leaving (p : Part) : Bool := p.st == .closing || p.st == .quiesce

/-- R149: the open is short somewhere; with `after`, once every partition in CLOSING or QUIESCE is gone. -/
def State.short (s : State) (apex : NodeId) (members : List NodeId) (bids : Nat) (after : Bool) : Bool :=
  let gone (t : PTag) : Bool := after && s.fab.parts.any fun p => p.ptag == t && p.leaving
  let runs := s.fab.runs.filter fun r => !gone r.ptag
  let hubs := (s.treeNodes apex members).filter s.isHubNode
  let noRun := hubs.any fun h =>
    let here := runs.filter fun r => r.node == h
    (fitRun (here.map fun r => (r.rankAt, r.ranks)) members.length rankPool).isNone ||
      (fitRun (here.map fun r => (r.slotAt, r.slots)) bids slotPool).isNone
  let held := s.fab.parts.filter fun p => p.st != .free && !(after && p.leaving)
  noRun || members.any (fun m => (held.filter fun p => p.ranksA.any fun r => r.node == m).length ≥ 2) ||
    (s.isLeaf && held.length ≥ 16)

/-- R149: the root notes the runs that a committed open takes at each Hub. -/
def State.noteRuns (s : State) (p : Part) : State :=
  let members := p.ranksA.map (·.node)
  ((s.treeNodes p.act.apexNode members).filter s.isHubNode).foldl (fun s h =>
    let here := s.fab.runs.filter fun r => r.node == h
    let run : Run := {
      node := h, ptag := p.ptag, ranks := members.length, slots := p.bidsM1.toNat + 1
      rankAt := (fitRun (here.map fun r => (r.rankAt, r.ranks)) members.length rankPool).getD 0
      slotAt := (fitRun (here.map fun r => (r.slotAt, r.slots)) (p.bidsM1.toNat + 1) slotPool).getD 0 }
    s.modFab fun b => { b with runs := b.runs ++ [run] }) s

/-- Member entries that the root can stage (R155): on a Hub the 65,536 of bank 31, each at 8 times its index. -/
def State.stageCap (s : State) : Nat := if s.isLeaf then 256 else 65536

/-- The entries that a stream's run has reached: its ranks so far. The count of ranks comes only with the PART OPEN. -/
def Staged.size (g : Staged) : Nat := (g.members.map fun x => x.1.toNat + 1).foldl max 0

/-- R155: a streamed member entry reaches the root. The run begins with the first entry, at the lowest index at which it
fits; since MIRROR does not carry RANK_CNT, it grows with the stream, and moves to the lowest place where it fits when
another run is in its way (DESIGN CHOICE, log entry 26). A stream for which no run is free has its entries dropped. -/
def State.stageEntry (s : State) (m : MirrorMsg) : State :=
  let rest := s.fab.staged.filter fun g => ptPart g.ptag != ptPart m.ptag
  let used := (rest.filter fun g => !g.dropped).map fun g => (g.start, g.size)
  let old := (s.fab.staged.find? fun g => ptPart g.ptag == ptPart m.ptag).getD { ptag := m.ptag }
  let grown := { old with members := old.members ++ [(m.index, m.entry.extractLsb' 64 64)] }
  let stays := old.members != [] && old.start + grown.size ≤ s.stageCap && used.all fun r => r.2 = 0 || old.start + grown.size ≤ r.1 || r.1 + r.2 ≤ old.start
  let new : Staged :=
    if old.dropped then old
    else if stays then grown
    else match fitRun used grown.size s.stageCap with
      | some a => { grown with start := a }
      | none => { old with dropped := true, members := [] }
  s.modFab fun b => { b with staged := rest ++ [new] }

/-- The hardware ID that entry `i` of the staging area holds (R155). -/
def Fabric.staging (b : Fabric) (i : Nat) : Option (BitVec 64) :=
  b.staged.findSome? fun g => (g.members.find? fun x => g.start + x.1.toNat == i).map (·.2)

/-- The node of a hardware ID as the root knows it. -/
def State.nodeOfHwid (s : State) (h : BitVec 64) : Option NodeId :=
  if h = s.gate.hwid then some s.elect.node else (s.nodeRow h).map (·.node)

/-- R154, R156: the member table, if it is valid: node of each rank. -/
def State.memberNodes (s : State) (g : Staged) (n : Nat) : Option (List NodeId) :=
  let byRank := (List.range n).map fun r => (g.members.find? fun x => x.1.toNat == r).bind fun x => s.nodeOfHwid x.2
  let nodes := byRank.filterMap id
  if g.members.length = n && nodes.length = n && nodes.eraseDups.length = n then some nodes else none

/-- A PART from the root to the opener alone, before any tree exists: it goes down the time tree. -/
def State.answerOpener (s : State) (op : PartOp) (m : PartMsg) (cause : BitVec 16) : State :=
  let s := s.sendOn s.timeKids 7 (.part op { s.partMsg m.ptag with aux := cause })
  match op with
  | .refused => if m.node = s.elect.node then s.refuseHere m.ptag cause else s
  | _ => if m.node = s.elect.node then (s.opener m.ptag false).foldl (fun s d => s.notice d.num stDeferred) s else s

/-- The root refuses before an entry exists. -/
def State.refuseOpen (s : State) (m : PartMsg) (cause : BitVec 16) : State :=
  (s.unstage m.ptag).answerOpener .refused m cause

/-- R363, R366, R375: why this node, member or not, refuses every PART OPEN. -/
def State.nodeRefuses (s : State) : Option (BitVec 16) :=
  if s.gate.life = .retired then some (refusal 0x12 0x10)
  else if (s.gate.life = .field || s.gate.life = .service) && !(s.lg.ready && s.gate.keyOk) then some (refusal 0x10 0x10)
  else if s.gate.scope.getLsbD 1 then some (refusal 0x12 0x11)
  else none

/-- R154 step 6: the root commits. -/
def State.rootCommit (s : State) (t : PTag) : State :=
  match s.part t with
  | none => s
  | some p =>
    if p.st != .opening || p.committed then s
    else
      let m := { s.partMsg t with dmax := p.act.dMax, t := if p.moved then p.tOpen else 0 }
      (((s.noteRuns p).unstage t).partDown p .openAck m).commitHere t m

/-- R156: the root refuses an open whose tree exists. -/
def State.rootRefuse (s : State) (t : PTag) (cause : BitVec 16) : State :=
  match s.part t with
  | none => s
  | some p => if p.st != .opening then s
    else ((s.unstage t).partDown p .refused { s.partMsg t with aux := cause }).refuseHere t cause

/-- R157, R158: PART CLOSE at the root. -/
def State.rootClose (s : State) (m : PartMsg) : State :=
  match s.part m.ptag with
  | none => s.countStale m.ptag
  | some p =>
    match p.st with
    | .opening =>
      (((s.unstage p.ptag).partDown p .refused { s.partMsg p.ptag with aux := refusal 0x05 0x1A }).refuseHere p.ptag (refusal 0x05 0x1A)).mirrorPart p.ptag
    | .open_ =>
      let least := htAdd s.stamp 200000
      let t := if m.t = 0 || htLt m.t least then least else m.t
      let s := s.modPart p.ptag fun p => { p with st := .closing, tClose := some t, tEvent := t }
      ((s.partDown p .close { s.partMsg p.ptag with t := t })).mirrorPart p.ptag
    | _ => s

-- Acknowledgement (R154 step 5).

/-- The apex's or the root's side of an acknowledgement from below. -/
def State.toRoot (s : State) (op : PartOp) (m : PartMsg) : State :=
  if s.sun.isRoot then
    match op with
    | .openAck => s.rootCommit m.ptag
    | .refused => s.rootRefuse m.ptag m.aux
    | .close => s.rootClose m
    | _ => s
  else match s.elect.parent with
    | some p => s.send p 7 (.part op m)
    | none => s

/-- Toward the apex, and from there to the root. -/
def State.partUp (s : State) (p : Part) (op : PartOp) (m : PartMsg) : State :=
  match p.act.upPort with
  | some u => s.send u 7 (.part op m)
  | none => s.toRoot op m

/-- OPEN_ACK leaves once the node has accepted and every barrier child has acknowledged. -/
def State.tryAck (s : State) (t : PTag) : State :=
  match s.part t with
  | none => s
  | some p =>
    if p.st = .opening && p.accepted && !p.acked && p.act.children.all p.acks.contains then
      (s.modPart t fun p => { p with acked := true }).partUp p .openAck { s.partMsg t with dmax := p.act.dMax }
    else s

-- A node takes PART OPEN (R149, R154, R186, R210, R256).

/-- The open block of a posted PARTITION_OPEN that this OPEN binds. -/
def State.posted (s : State) (t : PTag) : Option (Taken × OpenBlock) :=
  (s.eng.taken.filter fun d => !d.fin && d.opcode == 0x07 && !d.bound && ptPart d.ptag == ptPart t).findSome? fun d => d.blk.map fun b => (d, b)

/-- A PARTITION_OPEN is posted for this number, but its open block is still being read. -/
def State.openUnread (s : State) (t : PTag) : Bool :=
  (s.posted t).isNone && s.eng.taken.any fun d => !d.fin && d.opcode == 0x07 && !d.bound && ptPart d.ptag == ptPart t

/-- Why a member refuses, if it does. -/
def State.memberRefuses (s : State) (t : PTag) : Option (BitVec 16) :=
  match s.posted t with
  | none => some (refusal 0x05 0x18)
  | some (_, b) =>
    if s.tr.seat != .seated then some (refusal 0x08 0x10)
    else if b.sigHost != s.pins.latSig || b.sigBlock != s.sigBlock s.tr.setA then some (refusal 0x09 0x10)
    else if s.ctx0.st != .free && s.ctx1.st != .free then some (refusal 0x05 0x19)
    else none

/-- A slot enters OPENING: its entries are to be cleared (R257). -/
def openCtx (old : Ctx) (t : PTag) (b : OpenBlock) : Ctx :=
  let p := provenance b.prog b.weights b.inputs b.sigHost b.step0 b.rankCnt
  let cfg : StepCfg := { budget := b.budget, limit := b.limit, sigHost := b.sigHost, sigBlock := b.sigBlock }
  { st := .opening, ptag := t, image := old.image, imageTag := old.imageTag, disarmed := old.disarmed, dumpBusy := old.dumpBusy, clearing := true, objs := old.objs, cfgA := cfg, cfgS := cfg,
    rank := b.rank, rankCnt := b.rankCnt, step := b.step0, step0 := b.step0, p := p, gPrev := p }

/-- R154 step 4: the member binds its descriptor and takes the lowest FREE slot. -/
def State.bindMember (s : State) (t : PTag) : State :=
  match s.posted t with
  | none => s
  | some (d, b) =>
    let k := s.ctx0.st != .free
    let s := s.modEng fun e => { e with taken := modFirst (fun x => x.num == d.num) (fun x => { x with bound := true }) e.taken }
    s.modCtx k fun c => openCtx c t b

/-- R149: a Hub allocates its runs at the lowest free indices. -/
def State.allocHere (s : State) (p : Part) : Option (Nat × Nat) :=
  if s.isLeaf then some (0, 0)
  else
    let others := s.fab.parts.filter fun q => q.st != .free && q.accepted && q.onTree s.elect.hops && q.ptag != p.ptag
    match fitRun (others.map fun q => (q.act.rankBase.toNat, q.rankCntM1.toNat + 1)) (p.rankCntM1.toNat + 1) rankPool,
          fitRun (others.map fun q => (q.slotBase, q.bidsM1.toNat + 1)) (p.bidsM1.toNat + 1) slotPool with
    | some r, some b => some (r, b)
    | _, _ => none

/-- R26, R27: a node other than the root that is not LOCKED accepts no open. R6: the revision of the node's own tree links
lacks a requested feature. -/
def State.treeRefuses (s : State) (p : Part) : Option (BitVec 16) :=
  if !s.sun.isRoot && s.sun.st != .locked then some (refusal 0x05 0x14)
  else if p.treePorts.any (fun q => (s.port q).rev == 4) && (p.feat.extractLsb' 0 3 != 0 || p.bidsM1.toNat ≥ 64) then some (refusal 0x05 0x15)
  else none

/-- REFUSED goes toward the root with its cause (R154 step 5). -/
def State.refuseUp (s : State) (p : Part) (cause : BitVec 16) : State := s.partUp p .refused { s.partMsg p.ptag with aux := cause }

/-- R154 step 4: the member's own part of an open. A PARTITION_OPEN that is posted when the OPEN arrives counts, although its
open block may still be on its way from host memory: the member answers once it is there. -/
def State.memberTurn (s : State) (t : PTag) : State :=
  match s.part t with
  | none => s
  | some p =>
    if s.openUnread t then s.modPart t fun p => { p with unread := true }
    else
      let why := s.memberRefuses t
      -- a Trellis root that is off samples nothing (R40)
      let s := (s.modPart t fun p => { p with unread := false }).modBand fun b => { b with sigHost := if s.pdOn 7 then s.pins.latSig else b.sigHost }
      match why with
      | some cause => s.refuseUp p cause
      | none => s.bindMember t

/-- Members whose open block has now been read, or will never be, go on. -/
def State.unreadTurn (s : State) : State :=
  (s.fab.parts.filter fun p => p.unread && p.st == .opening).foldl (fun s p => s.memberTurn p.ptag) s

/-- A tree node takes PART OPEN: it is OPENING from here on, refuses, or waits for its children. -/
def State.acceptOpen (s : State) (p0 : Part) (m : PartMsg) : State :=
  let p := s.placePart { p0 with
    st := .opening, tEvent := m.t, tOpen := m.t, rankCntM1 := m.aux, bidsM1 := m.bidsM1, feat := m.feat
    act := { p0.act with dMax := m.dmax }, shd := { p0.shd with apexNode := p0.act.apexNode, dMax := m.dmax }
    slots := freshSlots m.bidsM1, accepted := false, acks := [], committed := false, closeAcks := [], ended := false, fault := 0, tClose := none, swap := none }
  match s.allocHere p with
  | none => (s.modFab fun b => { b with parts := (b.parts.filter fun q => ptPart q.ptag != ptPart m.ptag) ++ [p] }).refuseUp p (refusal 0x05 0x16)
  | some (ra, sl) =>
    let base (c : PartSet) : PartSet := { c with rankBase := BitVec.ofNat 16 ra }
    let p := { p with act := base p.act, shd := base p.shd, slotBase := sl, accepted := !p.member }
    let s := s.modFab fun b => { b with parts := (b.parts.filter fun q => ptPart q.ptag != ptPart m.ptag) ++ [p], stales := b.stales.filter fun x => x.1 != (ptPart m.ptag).toNat }
    let s := s.partDown p .opOpen m
    match s.nodeRefuses.or (s.treeRefuses p) with
    | some cause => s.refuseUp p cause
    | none => if p.member then s.memberTurn m.ptag else s.tryAck m.ptag

/-- CONTEXT_SLOT_CLEAR_DONE (R257): the entries are zero, and the member may acknowledge. A dump of the
slot delays it. -/
def execContextSlotClearDone (k : Bool) (s : State) : Result :=
  onLeaf s fun s =>
    let c := s.ctx k
    if c.clearing && !c.dumpBusy then
      let s := s.modCtx k fun c => { c with objs := [], clearing := false, image := false, imageTag := 0 }
      (s.modPart c.ptag fun p => { p with accepted := true }).tryAck c.ptag
    else s

-- The root opens (R154 to R156, R159, R160).

/-- The root's answers to PART OPEN (R156). -/
inductive OpenVerdict where
  | refuse (cause : Nat)
  | defer
  | proceed (members : List NodeId)
  deriving DecidableEq, Repr

/-- R156: the first matching row. `fresh` is false when a deferred open is examined again (R160). The root knows the lock
state of its own links' partners; a deeper node that is not LOCKED refuses the OPEN itself (`State.treeRefuses`). Of the
revision of a deeper link the manual does not say how the root learns it, and `free` stands for what it finds. R155's refusal of
a stream that found no run has no place in the rule's table: it stands after the row of the lead and before the row of the
member table (DESIGN CHOICE, log entry 53). -/
def State.judgeOpen (s : State) (m : PartMsg) (fresh : Bool) (free : BitVec 32) : OpenVerdict :=
  let n := m.aux.toNat + 1
  let g := (s.fab.staged.find? fun g => ptPart g.ptag == ptPart m.ptag).getD { ptag := m.ptag }
  let number := s.partNo (ptPart m.ptag)
  if s.isLeaf && s.fab.nodes.any (·.hub) then .refuse 0x10
  else if fresh && htLt m.t (htAdd s.stamp 1000000) then .refuse 0x11
  else if g.dropped then .refuse 0x17
  else match s.memberNodes g n with
    | none => .refuse 0x12
    | some members =>
      let apex := ((s.apexChain members).getLast?).getD noNode
      let nodes := s.treeNodes apex members
      let near (x : NodeId) : Bool := (s.nodeById x).elim false fun r => r.parent == s.elect.node
      let linkBad (f : Port → Bool) : Bool := nodes.any fun x => (s.nodeById x).elim false fun r => r.parent == s.elect.node && f (s.port (r.port.setWidth 6))
      let deep := nodes.any fun x => x != s.elect.node && !near x
      let unlocked := linkBad fun q => q.partnerSt != 1
      let rev4 := (nodes.any fun x => x != apex && near x && (s.nodeById x).elim false fun r => (s.port (r.port.setWidth 6)).rev == 4) || (deep && free.getLsbD 1)
      let quiesce := number.elim false fun p => p.st == .quiesce
      let short := s.short apex members (m.bidsM1.toNat + 1) false
      if number.elim false fun p => p.st != .quiesce then .refuse 0x13
      else if unlocked || s.sun.st == .untrusted then .refuse 0x14
      else if rev4 && (m.feat.extractLsb' 0 3 != 0 || m.bidsM1.toNat ≥ 64) then .refuse 0x15
      else if short && s.short apex members (m.bidsM1.toNat + 1) true then .refuse 0x16
      else if (quiesce || short) && fresh && s.fab.defer.length ≥ 16 then .refuse 0x17
      else if quiesce || short then .defer
      else .proceed members

/-- The resolved rank entry of a member (R147). -/
def State.rankOf (s : State) (t : PTag) (apex : NodeId) (apexHops : Nat) (r : Nat) (n : NodeId) : RankEntry :=
  let below := ((s.chain n 9).dropWhile (· != apex)).tail
  let path := below.map fun x => (s.nodeById x).elim 0xFF fun q => q.port
  { node := n, valid := true, resolved := true, ptag := t, rank := BitVec.ofNat 16 r, path := routeBits path, apexHops := BitVec.ofNat 8 apexHops }

/-- R154 step 3: the open proceeds under the next generation. -/
def State.rootStart (s : State) (m : PartMsg) (members : List NodeId) (moved : Bool) (free : BitVec 32) : State :=
  let num := ptPart m.ptag
  let gen := assocGet num.toNat s.fab.genBase s.fab.gens + 1
  let t : PTag := gen ++ num
  let chain := s.apexChain members
  let apex := chain.getLast?.getD noNode
  let margin := if m.dmax = 0 then 96 else m.dmax.toNat
  let links := members.map fun n => (n, s.linksTo apex n)
  let worst := (links.map fun x => s.dPath x.1 x.2).foldl max 0
  let dMax : BitVec 32 := satNat 32 (dMaxOf worst margin)
  let deep := (s.treeNodes apex members).any fun x => x != s.elect.node && !((s.nodeById x).elim false fun r => r.parent == s.elect.node)
  let near4 := (s.treeNodes apex members).any fun x => x != apex && (s.nodeById x).elim false fun r =>
    r.parent == s.elect.node && (s.port (r.port.setWidth 6)).rev == 4
  let ranks := members.zipIdx.map fun (n, r) => s.rankOf t apex (chain.length - 1) r n
  let set : PartSet := { apexNode := apex, dMax := dMax }
  let p : Part := {
    part := num, ptag := t, st := .opening, rev4 := near4 || (deep && free.getLsbD 1), act := set, shd := set
    rankCntM1 := m.aux, bidsM1 := m.bidsM1, feat := m.feat, tEvent := m.t, tOpen := m.t, opener := m.node, ranksA := ranks, ranksS := ranks
    margin := margin, moved := moved, links := links, apexHops := BitVec.ofNat 8 (chain.length - 1)
    down := (chain[1]?).bind fun n => (s.nodeById n).map fun r => r.port.setWidth 6 }
  let s := s.modFab fun b => { b with
    gens := assocSet num.toNat gen b.gens, stales := b.stales.filter fun x => x.1 != num.toNat, parts := b.parts.filter fun q => q.part != num }
  let out : PartMsg := { s.partMsg t with bidsM1 := m.bidsM1, feat := m.feat, t := m.t, aux := m.aux, dmax := dMax }
  let q := s.placePart p
  let ports := if q.onTree s.elect.hops then q.act.children else p.down.toList
  let s := [q.mirrorMsg false false, q.mirrorMsg false true].foldl (fun s x => s.sendOn ports 7 (.mirror x)) s
  let s := ranks.foldl (fun s r => s.sendOn ports 7 (.mirror (r.mirrorMsg false))) s
  let s := if q.onTree s.elect.hops then s.acceptOpen p out
    else (s.modFab fun b => { b with parts := b.parts ++ [{ p with slots := [] }] }).partDown p .opOpen out
  let s := s.mirrorPart t
  (ranks.foldl (fun s r => (s.mirror (r.mirrorMsg false)).mirror (r.mirrorMsg true)) s)

/-- PART OPEN at the root (R154 to R156, R160, R161). -/
def State.rootOpen (s : State) (m : PartMsg) : State :=
  if s.fab.reopenAt.elim false fun t => tickLt s.tick t then s
  else match s.nodeRefuses with
  | some c => s.refuseOpen m c
  | none =>
    let free := Config.anyWord s.freeIx
    match s.judgeOpen m true free with
    | .refuse c => (if c = 0x10 then s.raiseNow (ce 0x04 0x04) else s).drew.refuseOpen m (refusal 0x05 c)
    | .defer => (s.drew.modFab fun b => { b with defer := b.defer ++ [{ msg := m, since := s.tick }] }).answerOpener .deferred m 0
    | .proceed l => s.drew.rootStart m l false free

/-- R160: a deferred open is examined; it starts if its resources are free. -/
def State.tryDeferred (s : State) (d : Deferred) : State :=
  let free := Config.anyWord s.freeIx
  match s.judgeOpen d.msg false free with
  | .defer => s.drew
  | .refuse c => (s.drew.modFab fun b => { b with defer := b.defer.erase d }).refuseOpen d.msg (refusal 0x05 c)
  | .proceed l =>
    let keep := !htLt d.msg.t (htAdd s.stamp 500000)
    let m := if keep then d.msg else { d.msg with t := htAdd s.stamp 1000000 }
    (s.drew.modFab fun b => { b with defer := b.defer.erase d }).rootStart m l (!keep) free

/-- The defer queue, from its front. -/
def State.runDefer (s : State) : State := if s.sun.isRoot then s.fab.defer.foldl State.tryDeferred s else s

-- Timed events of partitions.

/-- OPEN_ACK_TIMEOUT (R156): at T − 200 µs without every acknowledgement. -/
def execOpenAckTimeout (part : BitVec 10) (s : State) : Result :=
  whenAlive s fun s =>
    match s.partNo part with
    | some p => if s.sun.isRoot && p.st == .opening && !p.committed && s.isDue (dueTick (htSub p.tOpen 200000)) then s.rootRefuse p.ptag (refusal 0x05 0x1E) else s
    | none => s

/-- The open tick on a member (R32, R256, R278, R280, R291, R311, R323). -/
def State.openMember (s : State) (k : Bool) (p : Part) : State :=
  let runs := s.activeSlot.isNone
  let s := s.modCtx k fun c => { c with st := if runs then .active else .parked, iStart := htOf (dueTick p.tOpen) }
  let s := if runs then (s.activated.modSync fun y => { y with rises := 0 }).modBand fun b => { b with idle := none, force := false } else s
  let s := s.record (recOpen (s.ctx k))
  (s.opener p.ptag true).foldl (fun s d => s.complete d.num stDone 0
    (det10 [(22, 4, p.act.dMax.toNat), (26, 1, (if k then 1 else 0) + (if runs then 0 else 2))]) (some (htOf (dueTick p.tOpen))) (some p.ptag)) s

/-- OPEN_TICK (R154, R156): the due tick of T. -/
def execOpenTick (part : BitVec 10) (s : State) : Result :=
  whenAlive s fun s =>
    match s.partNo part with
    | none => s
    | some p =>
      if p.st != .opening || !s.isDue (dueTick p.tOpen) then s
      else if !p.committed then
        (s.modPart p.ptag fun p => { p with st := .open_ }).raiseNow (uc 0x05 0x01) 0 (some p.ptag)
      else
        let s := s.modPart p.ptag fun p => { p with st := .open_ }
        let s := match s.slotOf p.ptag with
          | some k => s.openMember k p
          | none => s
        s.mirrorPart p.ptag

/-- QUIESCE_POINT (R149, R158, R160, R256): the due tick of T_q. -/
def execQuiescePoint (part : BitVec 10) (s : State) : Result :=
  whenAlive s fun s =>
    match s.partNo part with
    | none => s
    | some p =>
      if p.st != .quiesce || !s.isDue (dueTick p.tEvent) then s
      else
        let free (c : Ctx) : Ctx := if c.ptag = p.ptag && c.st = .ended then { c with st := .free } else c
        let s := (s.modCtx0 free).modCtx1 free
        let s := s.mirrorFree p
        let s := s.modFab fun b => { b with
          parts := b.parts.filter fun q => q.part != part || q.st == .free
          gens := assocSet part.toNat (ptGen p.ptag) b.gens, runs := b.runs.filter fun r => r.ptag != p.ptag }
        s.runDefer

/-- DEFER_TIMEOUT (R160): an entry has waited 1 s. -/
def execDeferTimeout (part : BitVec 10) (s : State) : Result :=
  whenAlive s fun s =>
    match s.fab.defer.find? fun d => ptPart d.msg.ptag == part with
    | some d =>
      if s.sun.isRoot && tickLe (d.since + BitVec.ofNat 64 nsPerS) s.tick then
        (s.modFab fun b => { b with defer := b.defer.erase d }).refuseOpen d.msg (refusal 0x05 0x1B)
      else s
    | none => s

/-- REOPEN_HOLD_END (R161): 1 ms after the role was taken. -/
def execReopenHoldEnd (s : State) : Result :=
  whenAlive s fun s => if s.fab.reopenAt.elim false s.isDue then s.modFab fun b => { b with reopenAt := none } else s

/-- OPEN_NOT_RECEIVED (R311): no OPEN has bound a posted PARTITION_OPEN within 2 s. -/
def execOpenNotReceived (part : BitVec 10) (s : State) : Result :=
  onLeaf s fun s =>
    match s.eng.taken.find? fun d => !d.fin && d.opcode == 0x07 && !d.bound && ptPart d.ptag == part && tickLe (d.takenAt + BitVec.ofNat 64 (2 * nsPerS)) s.tick with
    | some d => s.complete d.num stRefused (refusal 0x05 0x1D)
    | none => s

/-- RESUME_TICK (R186, R228, R273, R280): T_res of the PARK_AT with RESUME that this Leaf has taken. A Leaf
that is not seated makes no parked context active. -/
def execResumeTick (part : BitVec 10) (s : State) : Result :=
  onLeaf s fun s =>
    match s.eng.taken.find? fun d => !d.fin && d.opcode == 0x09 && d.body.getLsbD 12 && ptPart d.ptag == part with
    | none => s
    | some d =>
      let t : HT80 := field d.body 8 80
      if !s.isDue (dueTick t) || !s.bandRuns then s
      else match (s.slotOf d.ptag).filter fun k => (s.ctx k).st = .parked with
        | none => s.complete d.num stRefused (refusal 0x0B 0x10) 0 (some (htOf (dueTick t)))
        | some k =>
          match s.activeTag with
          | some a => s.raiseNow (uc 0x09 0x0A) 0 (some d.ptag) (detail [(24, 2, a.toNat)])
          | none =>
            if s.tr.seat != .seated then s.complete d.num stRefused (refusal 0x08 0x10) 0 (some (htOf (dueTick t)))
            else
              let s := s.modCtx k fun c => ({ c with st := .active, resumed := true, tStart := none, tArr := none } : Ctx).restart (htOf (dueTick t))
              (s.activated.modBand fun b => { b with idle := none, force := false }).complete d.num stDone 0 0 (some (htOf (dueTick t)))

end Sys2Proof.Machine
end

