-- ==== Sys2Proof/Machine/LinkRx.lean ====
section
/-!
DEFINITION. The sequenced messages that a node accepts on its ports (03 to 09): LAUNCH, SWAP, PARK, the
barrier messages, SIGNAL, and the fabric's own messages.
-/

namespace Sys2Proof.Machine

/-- A partition-scoped message other than PART and MIRROR: a stale one is dropped and counted (R159). -/
def onScoped (p : PortNo) (m : Msg) (s : State) (f : State → Part → State) : Result :=
  onMsg p m s fun s => match (s.part (msgTag m)).filter fun _ => s.takes (msgTag m) with
    | some x => f s x
    | none => s.countStale (msgTag m)

-- LAUNCH, SWAP and PARK (R146, R201 to R206, R224 to R226).

/-- The taken descriptor `op` of this node that a downward copy answers. -/
def State.ownDesc (s : State) (op : Byte) (t : PTag) (origin : NodeId) (leafOrig : Bool) (match_ : Taken → Bool) : Option Taken :=
  if leafOrig && origin == s.elect.node && s.isLeaf then
    s.eng.taken.find? fun d => !d.fin && d.opcode == op && !d.node && d.ptag == t && match_ d &&
      !(s.band.table.any fun e => e.desc == some d.num) && !(s.fired d.num)
  else none

/-- Signed ns from now to T, as 32 bits. -/
def State.leadNs (s : State) (t : HT80) : Int := htDiffNs t s.stamp

/-- "tick table full" (R202). -/
def State.tableFullFault (s : State) (t : PTag) (a : Action) : State := s.raiseNow (uc 0x09 0x01) 0 (some t) (detail [(24, 1, actionCode a)])

/-- R205, R206: a member inserts a LAUNCH from the downward copy. -/
def State.insertLaunch (s : State) (p : PortNo) (m : LaunchMsg) : State :=
  let lead := s.leadNs m.t
  if lead < (s.lTr + 20 : Nat) then
    s.raiseNow (uc 0x09 0x02) (portLoc p) (some m.ptag) (detail [(24, 4, m.launchId.toNat), (28, 4, (BitVec.ofInt 32 lead).toNat)])
  else if s.tableFull then s.tableFullFault m.ptag .launch
  else
    let d := s.ownDesc 0x01 m.ptag m.origin m.leafOrig fun d => !d.body.getLsbD 12 && field d.body 28 32 == m.launchId && field d.body 8 80 == m.t
    let env := d.elim false fun d => d.body.getLsbD 14
    (s.insert { action := .launch, env := env, ptag := m.ptag, id := m.launchId, t := m.t, arg := m.chan.setWidth 8, desc := d.map (·.num) }).lendFall env

/-- A LAUNCH at a node: upward it goes to the apex, which turns it; downward it goes to every child and
into the member's table. -/
def State.takeLaunch (s : State) (p : PortNo) (x : Part) (m : LaunchMsg) : State :=
  if m.up && !x.act.apex then s.sendOn x.act.upPort.toList 5 (.launch m)
  else
    let m := { m with up := false }
    let s := s.sendOn x.act.children 5 (.launch m)
    if x.member then s.insertLaunch p m else s

/-- R205, R224: a node arms the swap, and a member inserts its entry. -/
def State.armSwap (s : State) (p : PortNo) (x : Part) (m : SwapMsg) : State :=
  let lead := s.leadNs m.t
  if lead < 200 then
    s.raiseNow (uc 0x09 0x03) (portLoc p) (some m.ptag) (detail [(24, 4, m.swapId.toNat), (28, 4, (BitVec.ofInt 32 lead).toNat)])
  else if x.swap.isSome then s
  else if x.member && s.tableFull then s.tableFullFault m.ptag .swap
  else
    let s := s.modPart m.ptag fun q => { q with swap := some { t := m.t, id := m.swapId } }
    let s := s.mirrorPart m.ptag
    if x.member then
      let d := s.ownDesc 0x05 m.ptag m.origin m.leafOrig fun d => field d.body 28 32 == m.swapId
      (s.insert { action := .swap, ptag := m.ptag, id := m.swapId, t := m.t, desc := d.map (·.num) }).askWord m.t wSwap 0 m.ptag
    else s

/-- A SWAP at a node. A relay-only Leaf forwards it alone. -/
def State.takeSwap (s : State) (p : PortNo) (x : Part) (m : SwapMsg) : State :=
  if m.up && !x.act.apex then s.sendOn x.act.upPort.toList 5 (.swap m)
  else
    let m := { m with up := false }
    let s := s.sendOn x.act.children 5 (.swap m)
    if !s.isLeaf || x.member then s.armSwap p x m else s

/-- R226: the context is active, and the other slot is neither OPENING nor PARKED. -/
def State.parkFree (s : State) (k : Bool) : Bool :=
  let o := s.ctx (!k)
  (s.ctx k).st == .active && o.st != .opening && o.st != .parked

/-- R226: a member receives PARK. The named round is the object's current one, or the next when the
current one's release has been accepted and is not yet due. -/
def State.takeParkHere (s : State) (m : ParkMsg) : State :=
  match s.slotOf m.ptag with
  | none => s
  | some k =>
    let v := s.roundOf k m.bid
    let d := (m.round - v.setWidth 2).toNat
    let held := (s.ctx k).rels.find? fun r => r.bid == m.bid
    if !s.parkFree k then s.raiseNow (uc 0x09 0x08) 0 (some m.ptag)
    else if d ≥ 2 then s.raiseNow (uc 0x09 0x09) 0 (some m.ptag) (detail [(24, 1, m.bid.toNat), (25, 1, m.round.toNat)])
    else if s.tableFull then s.tableFullFault m.ptag .park
    else
      let desc := s.ownDesc 0x09 m.ptag m.origin m.leafOrig fun d => !d.body.getLsbD 12 && field d.body 28 8 == m.bid
      let round := v + BitVec.ofNat 32 d
      let e : Entry := { action := .park, rel := true, resolved := false, ptag := m.ptag, arg := m.bid, relBid := m.bid, relRound := round, desc := desc.map (·.num) }
      match held.filter fun r => r.round == round with
      | some r => (s.insert { e with resolved := true, t := r.t }).askWord r.t wPark 0 m.ptag
      | none => s.insert e

/-- A PARK at a node: the apex names the round of the next release that it has not stamped (R225). -/
def State.takePark (s : State) (x : Part) (m : ParkMsg) : State :=
  if m.up && !x.act.apex then s.sendOn x.act.upPort.toList 5 (.park m)
  else
    let m := if m.up then { m with up := false, round := ((x.slot m.bid).map (·.cur)).getD 0 } else m
    let s := s.sendOn x.act.children 5 (.park m)
    if x.member then s.takeParkHere m else s

-- Barriers (R235 to R239, R252).

/-- A Leaf that only relays: it neither counts nor combines (R145). -/
def State.relayOnly (s : State) (x : Part) : Bool := s.isLeaf && !x.member && !x.act.apex

/-- ARRIVE and ARRIVE_RED. -/
def State.takeArrive (s : State) (p : PortNo) (x : Part) (m : BarMsg) (tc : HT80) : State :=
  let n := s.nominal x p m
  if s.relayOnly x then s.sendOn x.act.upPort.toList 6 (.arrive { m with t := n })
  else s.arriveAt m.ptag { bid := m.bid, round := m.round, types := m.types, record := m.record, n := n, src := p.setWidth 8 } tc

/-- RELEASE and RELEASE_RED (R236). -/
def State.takeRelease (s : State) (p : PortNo) (x : Part) (m : BarMsg) : State :=
  let misuse (s : State) : State := s.modPart m.ptag fun q => q.modSlot m.bid fun b => { b with misuse := satInc b.misuse }
  if s.relayOnly x then (if x.act.upPort == some p then s.sendOn x.act.children 5 (.release m) else misuse s)
  else match x.slot m.bid with
    | none => s
    | some b =>
      if x.act.apex || x.act.upPort != some p then misuse s
      else if m.round != b.cur then
        s.raiseNow (uc 0x0A 0x01) 0 (some m.ptag) (detail [(24, 1, m.bid.toNat), (25, 1, m.round.toNat), (26, 1, b.cur.toNat)])
      else (s.passRelease m.ptag m).completeRound m.ptag m.bid s.stamp 4

-- SIGNAL (R150 to R152, R269, R270).

/-- R270: delivery at a Leaf. -/
def State.deliver (s : State) (m : SignalMsg) : State :=
  match s.slotOf m.ptag with
  | none => s.countStale m.ptag
  | some k =>
    let x := s.obj k m.obj.toNat
    if (s.ctx k).st = .active && x.remoteOk && (x.type == .counter || x.type == .flag) then
      s.post { slot := k, obj := m.obj.toNat, op := m.op, operand := m.value, src := 2, rank := m.srcRank }
    else
      (s.modSync fun y => { y with remote := satInc y.remote }).raiseNow (ce 0x0B 0x04) 0 (some m.ptag)
        (detail [(24, 2, m.obj.toNat), (28, 4, m.srcRank.toNat)])

/-- R150: the rank-map entry of a SIGNAL at a Hub, if it passes every check, and the port on which the SIGNAL goes on. -/
def Part.signalWay (x : Part) (m : SignalMsg) : Option (RankEntry × List PortNo) :=
  match x.ranksA.find? fun r => r.rank.toNat == m.destRank.toNat with
  | none => none
  | some r =>
    if m.destRank.toNat ≤ x.rankCntM1.toNat && r.valid && r.resolved && r.ptag == m.ptag then
      some (r, if r.port = 0xFF then x.act.upPort.toList else [r.port.setWidth 6])
    else none

/-- R150: a Hub translates or forwards; one that fails a check is dropped with a CE. -/
def State.hubSignal (s : State) (x : Part) (m : SignalMsg) : State :=
  match x.signalWay m with
  | none => s.raiseNow (ce 0x04 0x03) 0 (some m.ptag) (detail [(28, 4, m.destRank.toNat)])
  | some (r, out) => s.sendOn out 6 (.signal (if m.xlated then m else { m with xlated := true, destNode := r.node }))

/-- This Leaf's own rank in the partition. -/
def State.ownRank (s : State) (t : PTag) : Option (BitVec 32) := (s.slotAny t).map fun k => (s.ctx k).rank

/-- Does the fabric have a Hub, as far as this Leaf can tell (R151, R152)? The root has its table; a node sees its parent, and
if that is the root, a Leaf that serves an open partition, there is none. Otherwise it cannot tell, and `free` stands for what
is the case (log entry 27). -/
def State.hubFabric (s : State) (free : Bool) : Bool :=
  if s.sun.isRoot then s.fab.nodes.any (·.hub)
  else match s.elect.parent with
    | some p => (s.port p).partnerHub || ((s.port p).partnerNode != s.elect.root && free)
    | none => free

/-- R151: the first rule that applies. `port` is none for the Leaf's own SIGNAL. A SIGNAL without XLATED comes from the parent
only where the fabric has no Hub (R151). An apex has no parent port: what rule 3 would send there is dropped and counted. -/
def State.leafSignal (s : State) (x : Part) (port : Option PortNo) (m : SignalMsg) : State :=
  let mine := s.ownRank m.ptag == some m.destRank
  let free := (Config.anyWord s.freeIx).getLsbD 0
  if port.isNone && mine then s.deliver m
  else if !m.xlated && ((port.isSome && port == x.act.upPort) || (x.act.apex && !s.hubFabric free)) then
    let s := if mine then s.drew.deliver m else s.drew
    s.sendOn x.act.children 6 (.signal m)
  else if !m.xlated then (if x.act.upPort.isNone then s.drew.countStale m.ptag else s.drew.sendOn x.act.upPort.toList 6 (.signal m))
  else if m.destNode = s.elect.node then s.deliver m
  else match s.upPorts.find? fun q => (s.port q).partnerNode == m.destNode with
    | some q => s.send q 6 (.signal m)
    | none => s.countStale m.ptag

-- MIRROR (R128, R147, R148, R153, R154).

/-- The port through which an ASSIGN went to a node below this one (R146). -/
def State.wayTo (s : State) (n : NodeId) : Option PortNo := (s.fab.ways.find? fun x => x.1 == n).map fun x => x.2

/-- R153: a mirrored word of a partition entry, as a copy that no command sees until the open reaches it. T_EVENT is what the
mirrored state makes it. A node above the apex keeps the port toward it (R146). -/
def State.mirrorEntry (s : State) (m : MirrorMsg) : State :=
  let num : BitVec 10 := BitVec.ofNat 10 (m.index.toNat / 2)
  let e := m.entry
  let st : PartSt := match (e.extractLsb' 16 3).toNat with
    | 1 => .opening | 2 => .open_ | 3 => .closing | 4 => .quiesce | _ => .free
  let old := (s.fab.parts.find? fun p => p.st == .free && p.part == num).getD { part := num, ptag := m.ptag, st := .free }
  let set (c : PartSet) : PartSet := { c with apexNode := e.extractLsb' 32 20, dMax := e.extractLsb' 112 32 }
  let t : HT80 := e.extractLsb' 0 80
  let new : Part :=
    if m.index.getLsbD 0 then { old with
      tEvent := t, opener := e.extractLsb' 80 20
      tOpen := if old.mst == .opening || old.mst == .open_ then t else old.tOpen, tClose := if old.mst == .closing then some t else old.tClose }
    else
      let base : Part := if old.ptag = m.ptag then old else { part := num, ptag := m.ptag, st := .free }
      let base := { base with
        mst := st, armedBit := e.getLsbD 25, rev4 := e.getLsbD 26, rankCntM1 := e.extractLsb' 96 16, bidsM1 := e.extractLsb' 144 8
        down := s.wayTo (e.extractLsb' 32 20) }
      if m.shadow then { base with shd := set base.shd } else { base with act := set base.act }
  s.modFab fun b => { b with
    parts := (b.parts.filter fun p => !(p.st == .free && p.part == num)) ++ [new]
    gens := if s.sun.isStandby then assocSet num.toNat (ptGen m.ptag) b.gens else b.gens }

/-- R147: a rank-map entry as MIRROR carries it. -/
def rankOfBits (e : BitVec 160) : RankEntry :=
  { node := e.extractLsb' 0 20, valid := e.getLsbD 24, resolved := e.getLsbD 25, ptag := e.extractLsb' 32 16, rank := e.extractLsb' 48 16,
    path := e.extractLsb' 64 64, apexHops := e.extractLsb' 128 8 }

/-- A resolved rank-map entry (R148, R154). -/
def State.mirrorRank (s : State) (m : MirrorMsg) : State :=
  let r := s.placeRank (rankOfBits m.entry)
  let put (l : List RankEntry) : List RankEntry := (l.filter fun x => x.rank != r.rank) ++ [r]
  s.modFab fun b => { b with parts := b.parts.map fun p =>
    if p.st == .free && p.ptag == m.ptag then { p with ranksA := if m.shadow then p.ranksA else put p.ranksA, ranksS := put p.ranksS, apexHops := r.apexHops } else p }

/-- A tree entry on the standby (R139). The root's own entry, which has no parent, ends a full copy (log entry 24). -/
def State.mirrorNode (s : State) (m : MirrorMsg) : State :=
  let e := m.entry
  let node : NodeId := e.extractLsb' 0 20
  let row : NodeRow := {
    hwid := e.extractLsb' 32 64, node := node, hub := e.getLsbD 25, parent := e.extractLsb' 96 20, port := e.extractLsb' 120 8
    hops := e.extractLsb' 128 8, live := e.getLsbD 26, seenAt := s.tick
    dly := BitVec.ofNat 32 ((e.extractLsb' 136 12).toNat * 4096), ltr := BitVec.ofNat 32 ((e.extractLsb' 148 12).toNat * 65536) }
  let s := s.modFab fun b => { b with nodes := (b.nodes.filter fun r => r.node != node && r.hwid != row.hwid) ++ (if e.getLsbD 24 then [row] else []) }
  if row.parent = noNode && s.sun.isStandby then s.modElect fun e => { e with mirrorDone := true } else s

/-- Ports on which a partition's MIRROR goes on down: toward the apex from a node above it, on the time tree from there on
(R146, R154). -/
def State.mirrorDown (s : State) (t : PTag) : List PortNo :=
  match (s.fab.parts.find? fun p => p.st == .free && p.ptag == t).bind (·.down) with
  | some q => [q]
  | none => s.timeKids

/-- MIRROR at a node: streamed entries go up to the root; the root's go down, and to its standby. -/
def State.takeMirror (s : State) (p : PortNo) (m : MirrorMsg) : State :=
  if s.sun.isRoot then (if m.op = 0x03 then s.stageEntry m else s)
  else if s.elect.parent == some p || (s.sun.isStandby && s.elect.rootPort == some p) then
    match m.op.toNat with
    | 1 => let s := s.mirrorEntry m; s.sendOn (s.mirrorDown m.ptag) 7 (.mirror m)
    | 2 => s.mirrorNode m
    | 3 => let s := s.mirrorRank m; s.sendOn (s.mirrorDown m.ptag) 7 (.mirror m)
    | _ => s
  else s.sendOn s.elect.parent.toList 7 (.mirror m)

-- PART (R154 to R159, R327).

/-- A PART comes from above: on the barrier-tree parent port or the time parent. -/
def State.fromAbove (s : State) (p : PortNo) (t : PTag) : Bool :=
  !s.sun.isRoot && ((s.part t).bind (·.act.upPort) == some p || s.elect.parent == some p)

/-- The copy of an entry that MIRROR has brought. -/
def State.copyOf (s : State) (t : PTag) : Option Part := s.fab.parts.find? fun p => p.st == .free && p.ptag == t

/-- Pass a downward PART on toward the apex, or drop it as stale (R146, R159). -/
def State.passDown (s : State) (op : PartOp) (m : PartMsg) : State :=
  match (s.copyOf m.ptag).bind (·.down) with
  | some q => s.send q 7 (.part op m)
  | none => s.countStale m.ptag

/-- R159: the entry that a PART for the root's attention answers has ended, or the root has none. -/
def State.staleAtRoot (s : State) (t : PTag) : Bool := (s.part t).elim s.sun.isRoot (·.ended)

/-- PART OPEN. -/
def State.takeOpen (s : State) (p : PortNo) (m : PartMsg) : State :=
  if s.sun.isRoot then s.rootOpen m
  else if !s.fromAbove p m.ptag then s.sendOn s.elect.parent.toList 7 (.part .opOpen m)
  else match s.copyOf m.ptag with
    | some c => if (s.placePart c).onTree s.elect.hops then s.acceptOpen c m else s.passDown .opOpen m
    | none => s.countStale m.ptag

/-- PART OPEN_ACK: from a child toward the root, or the commit from above. -/
def State.takeOpenAck (s : State) (p : PortNo) (m : PartMsg) : State :=
  if s.staleAtRoot m.ptag then s.countStale m.ptag
  else match s.part m.ptag with
  | some x =>
    if s.fromAbove p m.ptag then (s.partDown x .openAck m).commitHere m.ptag m
    else if x.act.children.contains p then (s.modPart m.ptag fun q => { q with acks := p :: q.acks }).tryAck m.ptag
    else s.toRoot .openAck m
  | none => if s.fromAbove p m.ptag then s.passDown .openAck m else s.toRoot .openAck m

/-- PART DEFERRED: to the opener. -/
def State.takeDeferred (s : State) (p : PortNo) (m : PartMsg) : State :=
  if s.fromAbove p m.ptag then
    let ds := s.opener m.ptag false
    if ds.isEmpty then s.sendOn s.timeKids 7 (.part .deferred m) else ds.foldl (fun s d => s.notice d.num stDeferred) s
  else s

/-- PART REFUSED: from a member toward the root, or from the root down. -/
def State.takeRefused (s : State) (p : PortNo) (m : PartMsg) : State :=
  if s.staleAtRoot m.ptag then s.countStale m.ptag
  else if s.fromAbove p m.ptag then
    match s.part m.ptag with
    | some x => (s.partDown x .refused m).refuseHere m.ptag m.aux
    | none =>
      let ds := s.opener m.ptag false
      if !ds.isEmpty then s.refuseHere m.ptag m.aux
      else match (s.copyOf m.ptag).bind (·.down) with
        | some q => s.send q 7 (.part .refused m)
        | none => s.sendOn s.timeKids 7 (.part .refused m)
  else s.toRoot .refused m

/-- PART CLOSE: from a member to the root, or from the root down. One that arrives after the close tick is dropped (R159). -/
def State.takeClose (s : State) (p : PortNo) (m : PartMsg) : State :=
  if s.staleAtRoot m.ptag then s.countStale m.ptag
  else if s.fromAbove p m.ptag then
    match s.part m.ptag with
    | some x =>
      if x.st = .open_ then
        (s.partDown x .close m).modPart m.ptag fun q => { q with st := .closing, tClose := some m.t, tEvent := m.t }
      else if x.st = .closing then s.partDown x .close m
      else s.countStale m.ptag
    | none => s.passDown .close m
  else s.toRoot .close m

/-- PART CLOSE_ACK. -/
def State.takeCloseAck (s : State) (p : PortNo) (m : PartMsg) : State :=
  match s.part m.ptag with
  | some _ => (s.modPart m.ptag fun q => { q with closeAcks := p :: q.closeAcks }).tryCloseAck m.ptag
  | none => s.countStale m.ptag

/-- PART FAULT (R327). -/
def State.takePartFault (s : State) (p : PortNo) (m : PartMsg) : State :=
  match s.part m.ptag with
  | none => s.countStale m.ptag
  | some x =>
    if x.ended then s.countStale m.ptag
    else
      let s := s.raise { code := uc 0x05 0x02, loc := 0, partV := true, ptag := m.ptag, stamp := m.t, detail := detail [(24, 2, m.aux.toNat), (26, 3, m.node.toNat)] }
      let s := s.sendOn (x.treePorts.filter (· != p)) 7 (.part .fault m)
      s.faultPart m.ptag m.t (uc 0x05 0x02)

-- DELAY (R137, R142, R144).

/-- A DELAY on a port: it may be the first half of a report pair, and it goes toward the root. -/
def State.takeDelayOn (s : State) (p : PortNo) (m : DelayMsg) : State :=
  let s := s.modPort p fun q => { q with half := some m }
  s.sendDelay m

-- Flits in error and stomped flits (R77, R78, R91, R92, R95).

/-- R91, R92: the class and the ports on which this node has begun to send its copy of a message of which it holds the head: it
forwards the message, and by cut-through, which revision 4 does not have on either link. -/
def State.cutPorts (s : State) (p : PortNo) (m : Msg) : Nat × List PortNo :=
  match (s.part (msgTag m)).filter fun _ => s.takes (msgTag m) with
  | none => (5, [])
  | some x =>
    let way (up : Bool) : List PortNo := if up && !x.act.apex then x.act.upPort.toList else x.act.children
    let (cls, ports) : Nat × List PortNo := match m with
      | .launch m => (5, way m.up)
      | .swap m => (5, way m.up)
      | .park m => (5, way m.up)
      | .release _ => (5, if x.act.upPort == some p then x.act.children else [])
      | .arrive _ => (6, if s.relayOnly x then x.act.upPort.toList else [])
      | .signal m =>
        (6, if s.isLeaf then (if m.xlated then [] else if x.act.upPort == some p then x.act.children else x.act.upPort.toList)
            else (x.signalWay m).elim [] (·.2))
      | _ => (7, [])
    (cls, if (s.port p).rev = 4 then [] else ports.filter fun q => (s.port q).rev != 4)

/-- R92: the copies of the message that flit `head` begins leave stomped. -/
def State.stompCopies (s : State) (p : PortNo) (head : Flit) : State :=
  match flitMsg head with
  | none => s
  | some m =>
    let (cls, ports) := s.cutPorts p m
    ports.foldl (fun s q =>
      if (s.port q).st == .up && !s.mute then
        s.modPort q fun r => { r with waiting := r.waiting ++ [{ cls := cls, ready := s.tick, msg := m, bad := true }] }
      else s) s

/-- A flit that does not continue the message which flit `g` has begun (R78). -/
def breaks (f g : Flit) : Bool := flitType f != flitType g || flitTag f != flitTag g || flitSeq f != flitSeq g

/-- The port expects the message of flit `f`. -/
def Port.expects (q : Port) (f : Flit) : Bool := flitSeqd f && flitSeq f == q.rxSeq

-- Meanings.

/-- FLIT_ERROR_RX (R77, R78, R86, R92, R95): a flit in error, or a sequenced flit out of sequence or out of its message.
`x` holds the flit and, if it is not the first of its message, the first flit of the message under reception. Only a
sequenced flit draws a NAK. -/
def execFlitErrorRx (p : PortNo) (x : Flit × Option Flit) (s : State) : Result :=
  onPort p s fun s =>
    let (f, first) := x
    let q := s.port p
    if s.mute || !q.locked then s
    else if crcVerdict f = .bad then
      let s := (s.modPort p fun q => { q with crcErr := satInc q.crcErr }).linkUnits p 1
      if q.st == .up && flitSeqd f then (if q.expects f then s.stompCopies p (first.getD f) else s).nak p else s
    else if q.st == .up && flitSeqd f && (!q.expects f || first.elim false (breaks f)) then
      (first.elim s fun g => if q.expects g then s.stompCopies p g else s).nak p
    else s

/-- STOMPED_FLIT_RX (R92, R95): the message is discarded, its SEQ acknowledged as though received, and the node's own copy
stomped in turn. `x` holds the port, the flit and, if it is not the first of its message, that one. -/
def execStompedFlitRx (x : PortNo × Flit × Option Flit) (s : State) : Result :=
  onPort x.1 s fun s =>
    let (p, f, first) := x
    let q := s.port p
    if q.st != .up || s.mute || crcVerdict f != .stomped then s
    else
      let s := s.modPort p fun q => { q with stomp := satInc q.stomp }
      if q.expects f then (s.stompCopies p (first.getD f)).accept p else if flitSeqd f then s.nak p else s


/-- LAUNCH_RX (R146, R201, R205, R206). -/
def execLaunchRx (p : PortNo) (m : LaunchMsg) (s : State) : Result := onScoped p (.launch m) s fun s x => s.takeLaunch p x m

/-- SWAP_RX (R146, R205, R224). Revision 4 does not have the type: whatever its PTAG, the flit is unknown there (R80). -/
def execSwapRx (p : PortNo) (m : SwapMsg) (s : State) : Result :=
  onMsg p (.swap m) s fun s =>
    if (s.port p).rev = 4 then s.unknownFlit p 0x11
    else match (s.part m.ptag).filter fun _ => s.takes m.ptag with
      | some x => s.takeSwap p x m
      | none => s.countStale m.ptag

/-- PARK_RX (R146, R225, R226). -/
def execParkRx (p : PortNo) (m : ParkMsg) (s : State) : Result := onScoped p (.park m) s fun s x => s.takePark x m

/-- ARRIVE_RX (R145, R235 to R238). -/
def execArriveRx (p : PortNo) (m : BarMsg) (tc : HT80) (s : State) : Result :=
  onScoped p (.arrive { m with red := false, types := 0, record := 0 }) s fun s x => s.takeArrive p x { m with red := false, types := 0, record := 0 } tc

/-- ARRIVE_RED_RX (R145, R235 to R238, R247, R252). -/
def execArriveRedRx (p : PortNo) (m : BarMsg) (tc : HT80) (s : State) : Result :=
  onScoped p (.arrive { m with red := true }) s fun s x => s.takeArrive p x { m with red := true } tc

/-- RELEASE_RX (R236, R239). -/
def execReleaseRx (p : PortNo) (m : BarMsg) (s : State) : Result :=
  onScoped p (.release { m with red := false, types := 0, record := 0 }) s fun s x => s.takeRelease p x { m with red := false, types := 0, record := 0 }

/-- RELEASE_RED_RX (R236, R239, R245). -/
def execReleaseRedRx (p : PortNo) (m : BarMsg) (s : State) : Result :=
  onScoped p (.release { m with red := true }) s fun s x => s.takeRelease p x { m with red := true }

/-- SIGNAL_RX (R150 to R152, R270). -/
def execSignalRx (p : PortNo) (m : SignalMsg) (s : State) : Result :=
  onScoped p (.signal m) s fun s x => if s.isLeaf then s.leafSignal x (some p) m else s.hubSignal x m

/-- ANNOUNCE_RX (R136 to R138, R141, R397). -/
def execAnnounceRx (p : PortNo) (m : AnnounceMsg) (s : State) : Result := onMsg p (.announce m) s fun s => s.announceRx p m

/-- ASSIGN_RX (R138, R140, R142). -/
def execAssignRx (p : PortNo) (m : AssignMsg) (s : State) : Result := onMsg p (.assign m) s fun s => s.assignRx m

/-- TREE_RX (R23, R24, R129, R133 to R135, R397, R398). -/
def execTreeRx (p : PortNo) (m : TreeMsg) (s : State) : Result := onMsg p (.tree m) s fun s => s.treeRx p m

/-- ELECT_RX (R125 to R127). -/
def execElectRx (p : PortNo) (m : ElectMsg) (s : State) : Result := onMsg p (.elect m) s fun s => s.electRx p m

/-- MIRROR_RX (R128, R139, R147, R148, R153 to R155). -/
def execMirrorRx (p : PortNo) (m : MirrorMsg) (s : State) : Result := onMsg p (.mirror m) s fun s => s.takeMirror p m

/-- DELAY_RX (R137, R142, R144). -/
def execDelayRx (p : PortNo) (m : DelayMsg) (s : State) : Result := onMsg p (.delay m) s fun s => s.takeDelayOn p m

/-- PART_OPEN_RX (R149, R154 to R156, R160, R161). -/
def execPartOpenRx (p : PortNo) (m : PartMsg) (s : State) : Result := onMsg p (.part .opOpen m) s fun s => s.takeOpen p m

/-- PART_OPEN_ACK_RX (R154). -/
def execPartOpenAckRx (p : PortNo) (m : PartMsg) (s : State) : Result := onMsg p (.part .openAck m) s fun s => s.takeOpenAck p m

/-- PART_DEFERRED_RX (R160). -/
def execPartDeferredRx (p : PortNo) (m : PartMsg) (s : State) : Result := onMsg p (.part .deferred m) s fun s => s.takeDeferred p m

/-- PART_REFUSED_RX (R154, R156). -/
def execPartRefusedRx (p : PortNo) (m : PartMsg) (s : State) : Result := onMsg p (.part .refused m) s fun s => s.takeRefused p m

/-- PART_CLOSE_RX (R157, R158). -/
def execPartCloseRx (p : PortNo) (m : PartMsg) (s : State) : Result := onMsg p (.part .close m) s fun s => s.takeClose p m

/-- PART_CLOSE_ACK_RX (R159). -/
def execPartCloseAckRx (p : PortNo) (m : PartMsg) (s : State) : Result := onMsg p (.part .closeAck m) s fun s => s.takeCloseAck p m

/-- PART_FAULT_RX (R159, R327). -/
def execPartFaultRx (p : PortNo) (m : PartMsg) (s : State) : Result := onMsg p (.part .fault m) s fun s => s.takePartFault p m

end Sys2Proof.Machine
end

