-- ==== Sys2Proof/Machine/Rings.lean ====
section
/-!
DEFINITION. The eight rings (11, R296 to R304): indices, doorbells, fetching, halts, and the registers
that start and stop a ring.
-/

namespace Sys2Proof.Machine

/-- The ring that an hm_ request belongs to; the firmware image belongs to none (R51). -/
def HmKind.ring : HmKind → Option (BitVec 3)
  | .doorbell n => some n
  | .entry n _ => some n
  | .record n _ _ => some n
  | .prod n => some n
  | .cons n => some n
  | .openBlock n _ _ => some n
  | .members n _ _ => some n
  | .area => some 2
  | .image _ _ => none

/-- Host-produced rings (R296). -/
def hostRing (n : Nat) : Bool := n = 0 || n = 1 || n = 5

/-- log2 of the entry size (R296, R318). -/
def entryLog2 (n : Nat) : Nat := if n ≤ 1 then 6 else 5

/-- Requests of ring `n`, outstanding or held. -/
def Engine.ofRing (e : Engine) (n : Nat) : List HmReq := e.reqs.filter fun r => r.kind.ring.elim false fun m => m.toNat == n

/-- Write CONS once the last such write has its response (R50, R299). -/
def State.flushCons (s : State) (n : Nat) : State :=
  let r := s.ring n
  if r.consOut = r.cons || r.st == .halted || s.eng.reqs.any (fun q => q.kind == .cons (BitVec.ofNat 3 n)) then s
  else (s.modRing n fun x => { x with consOut := x.cons }).hmIssue
    { kind := .cons (BitVec.ofNat 3 n), write := true, addr := r.db, beats := 1, data := r.cons.setWidth 512 <<< 64, be := 0xF00 }

/-- R305: up to 8 entries of a host-produced ring are fetched ahead. -/
def State.fetchMore (s : State) (n : Nat) : Nat → State
  | 0 => s
  | k + 1 =>
    let r := s.ring n
    if s.ringRuns n && r.next != r.prod && (r.next - r.cons).toNat < 8 then
      ((s.modRing n fun x => { x with next := x.next + 1 }).hmIssue {
        kind := .entry (BitVec.ofNat 3 n) r.next, write := false
        addr := r.entryAddr (entryLog2 n) r.next, beats := 2 ^ (entryLog2 n - 4) }).fetchMore n k
    else s

/-- Poll interval in ns (R301). -/
def State.pollNs (s : State) (n : Nat) : BitVec 16 := if (s.ring n).cls then s.eng.pollRemote else s.eng.pollHost

/-- Does the ring want its doorbell read: no untaken entry, or full (R301)? -/
def State.wantsPoll (s : State) (n : Nat) : Bool :=
  let r := s.ring n
  if hostRing n then r.prod = r.cons else r.noRoom 1 || !r.held.isEmpty || (n = 6 && s.dumpLeft != 0)

/-- DOORBELL_POLL (R300, R301). A block-produced ring that needs space is read whatever POLL says. -/
def execDoorbellPoll (n : BitVec 3) (s : State) : Result :=
  whenAlive s fun s =>
    let r := s.ring n.toNat
    if (r.poll || !hostRing n.toNat) && s.wantsPoll n.toNat && tickLe (r.lastPoll + (s.pollNs n.toNat).setWidth 64) s.tick then
      s.readDoorbell n.toNat
    else s

/-- The next SEQ of the node (R316). -/
def State.nextSeq (s : State) : State := s.modFc fun f => { f with seq := f.seq + 1 }

/-- A record for the Event ring. -/
def State.event (s : State) (r : EvRec) : State := s.putGroup 3 [r.bits]

/-- A descriptor's own read failed (R310): members that wait for the open block go on without it. -/
def State.readFailed (s : State) (k : HmKind) : State :=
  match k with
  | .openBlock _ d _ => (s.complete d stRefused (refusal 0x0D 0x12)).unreadTurn
  | .members _ d _ => s.complete d stRefused (refusal 0x0D 0x12)
  | _ => s

/-- R303: the ring halts, with the fault that touches every partition the node holds, and a RING record. -/
def State.haltRing (s : State) (n : Nat) (err : BitVec 2) (cause : Nat) : State :=
  let det := detail [(24, 1, n), (25, 1, cause)]
  let was := (s.ring n).st == .halted
  let s := s.raiseNow (uc 0x0D 0x01) 0 (soleTag s.standing) det
  if was then s
  else
    -- a descriptor's read that is not made any more has failed too
    let lost := (s.eng.hmQ.filter fun r => r.kind.ring.elim false fun m => m.toNat == n).map (·.kind)
    let s := (s.modRing n fun r => { r with st := .halted, err := err, fetched := [] }).loseHeld n
    let s := (s.modEng fun e => { e with hmQ := e.hmQ.filter fun r => r.kind.ring.elim true fun m => m.toNat != n }).nextSeq
    let s := lost.foldl State.readFailed s
    s.event { kind := 0x43, flags := 0, ptag := 0, code := uc 0x0D 0x01, seq := s.fc.seq, stamp := s.stamp, node := s.elect.node, loc := 0, detail := det }

/-- R292, R294: a Replay ring record as replay reads it; other kinds are skipped. -/
def repEntry (d : Desc) : Option RepEntry :=
  let step : BitVec 32 := field d 4 32
  match (field d 0 8).toNat with
  | 0x22 => some (.capture (d.extractLsb' 8 3) (d.getLsbD 11) step (field d 8 80))
  | 0x20 => some (.step (d.getLsbD 8) step (field d 8 64) (field d 16 64))
  | _ => none

/-- The replayed entries read so far enter the replay in ring order. -/
def State.feedReplay (s : State) : Nat → State
  | 0 => s
  | k + 1 =>
    let r := s.ring 5
    match s.sync.replay, r.fetched.find? fun x => x.1 == r.cons with
    | some _, some x =>
      let s := s.modRing 5 fun r => { r with fetched := r.fetched.filter fun y => y.1 != x.1, cons := r.cons + 1 }
      let s := match repEntry x.2 with
        | some e => s.modSync fun y => { y with replayQ := y.replayQ ++ [e] }
        | none => s
      s.feedReplay k
    | _, _ => s

/-- Replay goes on: entries are taken over, CONS is written, more are fetched. -/
def State.replayOn (s : State) : State := ((s.feedReplay 8).flushCons 5).fetchMore 5 8

-- Registers (R302, R318, R319).

/-- Reads of ring `n` from before its restart: their answers are discarded. -/
def State.dropReads (s : State) (n : Nat) : State :=
  let old (r : HmReq) : Bool := match r.kind with
    | .doorbell m => m.toNat == n
    | .entry m _ => m.toNat == n
    | _ => false
  s.modEng fun e => { e with
    hm := e.hm.filter fun x => !old x.2.1
    hmQ := e.hmQ.filter fun r => !old r
    dead := e.dead ++ (e.hm.filter fun x => old x.2.1).map (·.1) }

/-- EN of ring `n` as written. -/
def State.setRingEn (s : State) (n : Nat) (en : Bool) : State :=
  let r := s.ring n
  if en && !r.en then
    -- both indices start at RING_CONS
    let s := (s.dropReads n).modRing n fun r => { r with en := true, st := .running, prod := r.cons, next := r.cons, full := false, fetched := [], fence := none, lastPoll := s.tick, consOut := r.cons }
    if hostRing n then s else (s.drainHeld (BitVec.ofNat 3 n)).pumpDump s.dumpLeft
  else if !en && r.en then
    let st : RingSt := if r.st = .halted then .halted else if (s.eng.ofRing n).isEmpty then .stopped else .stopping
    (s.modRing n fun r => { r with en := false, st := st, fetched := [] }).loseHeld n
  else s

/-- R396: the firmware runs and every TDC is calibrated. -/
def State.fwReady (s : State) : Bool := s.fw.st == .running && s.fw.tdcOk

/-- A write of RING_CTL of ring `n`: EN, POLL, CLASS (R296, R302, R396). -/
def State.writeRingCtl (s : State) (n : Nat) (w : Word) : State :=
  if w.getLsbD 0 && ((!s.isLeaf && (n = 4 || n = 5)) || !s.fwReady) then s.rpErr
  else ((s.modRing n fun r => { r with poll := w.getLsbD 1, cls := w.getLsbD 2 }).setRingEn n (w.getLsbD 0)).rpOk

/-- RING_EN_SET (R302): RING_CTL written with EN 1. -/
def execRingEnSet (n : BitVec 3) (w : Word) (s : State) : Result := onReg 4 s fun s => s.writeRingCtl n.toNat (setBit w 0)

/-- RING_EN_CLEAR (R302): RING_CTL written with EN 0. -/
def execRingEnClear (n : BitVec 3) (w : Word) (s : State) : Result := onReg 4 s fun s => s.writeRingCtl n.toNat (setBit w 0 false)

/-- RING_STOPPED (R302): the outstanding requests of the ring have their responses. -/
def execRingStopped (n : BitVec 3) (s : State) : Result :=
  whenAlive s fun s =>
    if (s.ring n.toNat).st == .stopping && (s.eng.ofRing n.toNat).isEmpty then s.modRing n.toNat fun r => { r with st := .stopped } else s

/-- DB_NUDGE: each named ring's doorbell block is read, whatever POLL says (R301). -/
def State.nudge (s : State) (w : Word) : State :=
  ((List.range 8).foldl (fun s n => if w.getLsbD n then s.readDoorbell n else s) s).rpOk

/-- DB_NUDGE (R301). -/
def execDbNudge (w : Word) (s : State) : Result := onReg 4 s fun s => s.nudge w

end Sys2Proof.Machine
end

