-- ==== Sys2Proof/Machine/Descriptors.lean ====
section
/-!
DEFINITION. Taking descriptors (11, R305 to R311, R315) and the descriptors of each opcode, with the
checks of the chapters that own them (R204 to R207, R217, R220, R223 to R226, R232, R269, R292).
-/

namespace Sys2Proof.Machine

-- The header and the checks of R307.

/-- Fields of a descriptor (R306). -/
def descOp (d : Desc) : Byte := field d 0 8
def descNode (d : Desc) : Bool := d.getLsbD 8
def descTag (d : Desc) : PTag := field d 2 16
def descHost (d : Desc) : BitVec 32 := field d 4 32

/-- Bit `k` of FLAGS. -/
def descFlag (d : Desc) (k : Nat) : Bool := d.getLsbD (8 + k)

/-- An HT80 C-pair at byte `k` (R9). -/
def descTime (d : Desc) (k : Nat) : HT80 := field d k 80
def pairOk (d : Desc) (k : Nat) : Bool := (field d (k + 10) 80 : BitVec 80) == ~~~(field d k 80 : BitVec 80)

/-- The time fields that a descriptor uses (R307). -/
def usedTimes (d : Desc) : List Nat :=
  match (descOp d).toNat with
  | 0x01 => if descFlag d 5 then [] else [8]
  | 0x04 | 0x07 | 0x09 | 0x0E => if descFlag d 4 then [8] else []
  | 0x05 | 0x08 | 0x0A => [8]
  | 0x0D => if descFlag d 4 then [8] else [8, 28]
  | _ => []

/-- R308: the profile has the opcode. -/
def opSupported (leaf : Bool) (op : Nat) : Bool :=
  if leaf then (1 ≤ op && op ≤ 0x10 && op != 3) else [0x01, 0x05, 0x09, 0x0B, 0x0C, 0x0F].contains op

/-- R308: NODE agrees with the scope of the opcode. -/
def scopeOk (leaf : Bool) (d : Desc) : Bool :=
  match (descOp d).toNat with
  | 0x0A | 0x0C | 0x0D | 0x0E | 0x0F => descNode d
  | 0x0B => descNode d == descFlag d 4 && (leaf || !descFlag d 4)
  | _ => !descNode d

/-- An outcome: status, cause, DETAIL. -/
abbrev Verdict := Byte × BitVec 16 × BitVec 80

/-- "ended before take" (R307). -/
def endedBefore : Verdict := (stDiscarded, 0, det10 [(22, 1, reEnded)])

/-- R204, R307 check 4, R158: what the node holds of the partition. -/
def State.holdCheck (s : State) (op : Nat) (t : PTag) : Option Verdict :=
  let notMember : Option Verdict := some (stRefused, refusal 0x05 0x1F, 0)
  match s.part t with
  | none => if (s.slotAny t).elim false (fun k => (s.ctx k).st == .ended) then some endedBefore else some (stRefused, refusal 0x05 0x1C, 0)
  | some p =>
    if p.ended || p.st == .closing || p.tClose.elim false (fun c => s.isDue (dueTick c)) then
      if op = 0x08 && s.isLeaf && p.fault = 0 then some (stDone, 0, quiesceOf (p.tClose.getD s.stamp) p.act.dMax) else some endedBefore
    else if s.isLeaf then (if (s.slotOf t).isSome then none else notMember)
    else if p.act.apex || op = 0x0B then none else notMember

/-- R307: the first check that fails. -/
def State.commonCheck (s : State) (d : Desc) : Option Verdict :=
  let op := (descOp d).toNat
  if !opSupported s.isLeaf op then some (stUnsupported, 0, 0)
  else if (usedTimes d).any fun k => !pairOk d k then some (stInvalid, refusal 0x0D 0x10, 0)
  else if !scopeOk s.isLeaf d then some (stInvalid, refusal 0x0D 0x11, 0)
  else if descNode d || op = 0x07 then none
  else s.holdCheck op (descTag d)

-- Taking (R299, R304, R305, R315).

/-- The next untaken entry of a command ring, if it has been read. -/
def Ring.nextDesc (r : Ring) : Option Desc := (r.fetched.find? fun x => x.1 == r.cons).map (·.2)

/-- A command ring can give a descriptor now. -/
def State.ringReady (s : State) (n : Nat) : Bool := s.ringRuns n && (s.ring n).fence.isNone && (s.ring n).nextDesc.isSome

/-- A command ring shows an untaken descriptor, read or not yet read, that no FENCE holds (R305, R315). -/
def State.ringShows (s : State) (n : Nat) : Bool := s.ringRuns n && (s.ring n).fence.isNone && (s.ring n).prod != (s.ring n).cons

/-- Ring number of a descriptor row. -/
def cmdRing (u : Bool) : Nat := if u then 1 else 0

/-- R304, R305: descriptor `d` is taken now from ring 1 (`u`) or ring 0. Ring 0 has its turn only while ring 1 shows none. -/
def State.takeable (s : State) (u : Bool) (d : Desc) : Bool :=
  s.ringReady (cmdRing u) && (s.ring (cmdRing u)).nextDesc == some d && (u || !s.ringShows 1) && (s.ring 2).held.isEmpty &&
    !s.fc.safe && !s.pw.pfail && s.eng.lastTake.elim true fun t => tickLe (t + 20) s.tick

/-- The descriptor is taken: CONS advances, and the block holds its own copy. -/
def State.pull (s : State) (u : Bool) (d : Desc) : State :=
  let n := cmdRing u
  let x : Taken := {
    num := s.eng.takenNum, urgent := u, opcode := descOp d, node := descNode d, ptag := descTag d, hostTag := descHost d, takenAt := s.tick, body := d }
  let s := s.modRing n fun r => { r with fetched := r.fetched.filter fun y => y.1 != r.cons, cons := r.cons + 1 }
  let s := s.modEng fun e => { e with taken := e.taken ++ [x], takenNum := e.takenNum + 1, lastTake := some s.tick }
  (s.flushCons n).fetchMore n 8

/-- Take a descriptor: the checks of R307, then the opcode's own meaning on the number it is held under. -/
def onDesc (p : Byte → Bool) (u : Bool) (d : Desc) (s : State) (f : State → Nat → State) : Result :=
  whenAlive s fun s =>
    if !(s.takeable u d && p (descOp d)) then s
    else
      let n := s.eng.takenNum
      let v := s.commonCheck d
      let s := s.pull u d
      match v with
      | some (st, cause, det) => s.complete n st cause det
      | none => f s n

/-- Complete with a status alone. -/
def State.ends (s : State) (n : Nat) (st : Byte) : State := s.complete n st

/-- UNSUPPORTED_OPCODE (R308): a code of no row, or of the other profile. -/
def execUnsupportedOpcode (u : Bool) (d : Desc) (s : State) : Result :=
  onDesc (fun op => !opSupported s.isLeaf op.toNat) u d s fun s n => s.ends n stUnsupported

-- Leads (R204).

/-- Lead of a time in 2^-16 ns from the taken tick. -/
def State.lead (s : State) (t : HT80) : Int := htDiff t s.stamp

/-- The lead falls short of `ns`. -/
def State.leadShort (s : State) (t : HT80) (ns : Nat) : Bool := decide (s.lead t < (ns : Int) * 65536)

/-- Minimum lead of a partition-scope LAUNCH_AT or SWAP_AT. -/
def State.minLead (s : State) (p : Part) : Nat :=
  if s.isLeaf then max 1000 (2 * p.act.dMax.toNat + 20) else max 500 (p.act.dMax.toNat + 20)

/-- R204: an ENV launch also leads by R_UP. -/
def State.envShort (s : State) (d : Desc) (t : HT80) : Bool := descFlag d 6 && s.leadShort t (s.band.envA.rUp.toNat * 1000)

-- LAUNCH_AT (R204, R206, R207, R311).

/-- A local-scope launch. -/
def State.launchLocal (s : State) (d : Desc) (n : Nat) : State :=
  let t := descTime d 8
  let bid : Byte := field d 33 8
  let round : BitVec 32 := field d 34 32
  let ofs : BitVec 32 := field d 38 32
  let e : Entry := { action := .launch, env := descFlag d 6, ptag := descTag d, id := field d 28 32, arg := field d 32 8, desc := some n }
  match s.slotOf (descTag d) with
  | none => s.ends n stInvalid
  | some k =>
    if descFlag d 5 then
      if ((s.ctx k).arm bid).isNone then s.ends n stInvalid
      else if decide ((s.roundOf k bid - round).toNat < 2 ^ 31) && s.roundOf k bid != round then s.ends n stLate
      else if s.tableFull then s.ends n stTableFull
      else
        let e := { e with rel := true, resolved := false, relBid := bid, relRound := round, ofs := ofs }
        -- the release of the named round may have been accepted and not be due yet
        let e := match (s.ctx k).rels.find? fun r => r.bid == bid && r.round == round with
          | some r => { e with resolved := true, t := htAdd r.t ofs.toNat }
          | none => e
        (s.insert e).lendFall e.env
    else if s.leadShort t (s.lTr + 100) || s.envShort d t then s.ends n stLate
    else if s.tableFull then s.ends n stTableFull
    else (s.insert { e with t := t }).lendFall e.env

/-- A partition-scope launch goes up to the apex; at the apex Hub it goes down. -/
def State.launchFabric (s : State) (d : Desc) (n : Nat) : State :=
  match s.part (descTag d) with
  | none => s
  | some p =>
    let t := descTime d 8
    let m : LaunchMsg := { ptag := p.ptag, launchId := field d 28 32, t := t, origin := s.elect.node, up := s.isLeaf, leafOrig := s.isLeaf, chan := field d 32 4 }
    if s.leadShort t (s.minLead p) || (s.isLeaf && s.envShort d t) then s.ends n stLate
    else if s.isLeaf then (if s.tableFull then s.ends n stTableFull else s.takeLaunch 0 p m)
    else (s.sendOn p.act.children 5 (.launch m)).ends n stDone

/-- LAUNCH_AT. -/
def execLaunchAt (u : Bool) (d : Desc) (s : State) : Result :=
  onDesc (· == 0x01) u d s fun s n =>
    if decide ((field d 32 8 : Byte).toNat > 15) || (descFlag d 5 && !descFlag d 4) then s.ends n stInvalid
    else if !descFlag d 4 then s.launchFabric d n
    else if !s.isLeaf then s.complete n stInvalid (refusal 0x0D 0x11)
    else s.launchLocal d n

-- BARRIER_ARM (R231 to R233, R257, R265).

/-- The arming of a descriptor. -/
def armOf (d : Desc) : Arm :=
  { bid := field d 8 8, step := descFlag d 4, notify := descFlag d 5, chanEn := d.getLsbD (9 * 8 + 4), chan := field d 9 4, types := field d 10 32
    s := field d 14 64, cfg := field d 22 64, resultAddr := field d 30 64, timeout := field d 38 32, hostTag := descHost d }

/-- R232: an arming that completes INVALID. -/
def State.armInvalid (_s : State) (c : Ctx) (p : Part) (a : Arm) : Bool :=
  let slots := List.range 8
  a.bid.toNat > p.bidsM1.toNat ||
  slots.any (fun n => !typeKnown (slotType a.types n)) ||
  slots.any (fun n => slotType a.types n = 1 && (a.fmt n).toNat > 5) ||
  (a.step && c.arms.any fun b => b.step && b.bid != a.bid) ||
  (p.rev4 && slots.any fun n => slotType a.types n = 7 || (slotType a.types n = 1 && (a.fmt n).toNat ≥ 4)) ||
  slots.any (fun n => (a.res n).toNat ≥ 2 && slotType a.types n != 1) ||
  a.resultAddr.extractLsb' 0 6 != 0

/-- BARRIER_ARM. -/
def execBarrierArm (u : Bool) (d : Desc) (s : State) : Result :=
  onDesc (· == 0x02) u d s fun s n =>
    let a := armOf d
    match s.slotOf (descTag d), s.part (descTag d) with
    | some k, some p =>
      if s.armInvalid (s.ctx k) p a then s.ends n stInvalid
      else if ((s.ctx k).arm a.bid).isSome then s.ends n stBusy
      else
        let x : Obj := {
          type := .barrier, armed := true, chan := a.chan, chanEn := a.chanEn, timeout := a.timeout
          deadline := if a.timeout = 0 then 0 else htAdd s.stamp a.timeout.toNat }
        ((s.modCtx k fun c => { c with arms := c.arms ++ [a] }).setObj k a.bid.toNat x).ends n stDone
    | _, _ => s

-- SIGNAL (R151, R201, R269).

/-- SIGNAL. -/
def execSignal (u : Bool) (d : Desc) (s : State) : Result :=
  onDesc (· == 0x04) u d s fun s n =>
    let op : Byte := field d 34 8
    let obj : BitVec 12 := field d 32 12
    let v : BitVec 32 := field d 36 32
    if descFlag d 4 then
      let t := descTime d 8
      if s.leadShort t 100 then s.ends n stLate
      else if s.tableFull then s.ends n stTableFull
      else s.insert { action := .signal, ptag := descTag d, id := v, t := t, relBid := op, relRound := obj.setWidth 32, desc := some n }
    else if op != 1 && op != 2 then s.ends n stInvalid
    else match s.slotOf (descTag d), s.part (descTag d) with
      | some k, some p =>
        if (s.ctx k).st != .active then s.complete n stRefused (refusal 0x0B 0x10)
        else
          let m : SignalMsg := { ptag := descTag d, destRank := field d 28 32, obj := obj, op := op, xlated := false, value := v, srcRank := (s.ctx k).rank, destNode := noNode }
          (s.leafSignal p none m).ends n stDone
      | _, _ => s

-- SWAP_AT (R204, R224).

/-- SWAP_AT. -/
def execSwapAt (u : Bool) (d : Desc) (s : State) : Result :=
  onDesc (· == 0x05) u d s fun s n =>
    match s.part (descTag d) with
    | none => s
    | some p =>
      let t := descTime d 8
      let m : SwapMsg := { ptag := p.ptag, swapId := field d 28 32, t := t, origin := s.elect.node, up := s.isLeaf, leafOrig := s.isLeaf }
      if p.rev4 then s.complete n stRefused (refusal 0x05 0x15)
      else if p.swap.isSome || s.tr.pending then s.ends n stBusy
      else if s.leadShort t (s.minLead p) then s.ends n stLate
      else if s.isLeaf && s.tableFull then s.ends n stTableFull
      else s.takeSwap 0 p m

-- CFG_WRITE (R181, R209, R211, R311).

/-- R181: one CFG_WRITE value in the shadow set, for every addressed unit. -/
def State.cfgTrellis (s : State) (level : Level) (a : CellAddr) (scope : Option Level) (ix : Nat) (v : BitVec 32) : State :=
  let r := s.tr
  let covers (g b c : Nat) : Bool := match scope.map BitVec.toNat with
    | none => a.region.toNat = g && a.block.toNat = b && (level != 0 || a.cell.toNat = c)
    | some 3 => true
    | some 2 => a.region.toNat = g
    | some _ => a.region.toNat = g && a.block.toNat = b
  let blocks := (List.range r.regions.toNat).flatMap fun g => (List.range r.blocks.toNat).map fun b => (g, b)
  if level = 1 then
    let hit := (blocks.filter fun x => covers x.1 x.2 0).map fun x => x.1 * 64 + x.2
    s.modTr fun r => { r with setS := { r.setS with trims := (r.setS.trims.filter fun x => !hit.contains x.1) ++ (if v = 0 then [] else hit.map fun k => (k, v)) } }
  else
    let cells := blocks.flatMap fun x => (List.range r.cells.toNat).map fun c => (x.1, x.2, c)
    let hit := (cells.filter fun x => covers x.1 x.2.1 x.2.2).map fun x => listenKey x.1 x.2.1 x.2.2 ix
    let w : BitVec 16 := v.setWidth 16
    s.modTr fun r => { r with setS := { r.setS with listen := (r.setS.listen.filter fun x => !hit.contains x.1) ++ (if w = 0xFFFF then [] else hit.map fun k => (k, w)) } }

/-- CFG_WRITE (R176: a broadcast whose SCOPE is not above LEVEL is INVALID). -/
def execCfgWrite (u : Bool) (d : Desc) (s : State) : Result :=
  onDesc (· == 0x06) u d s fun s n =>
    let target := (field d 8 8 : Byte).toNat
    let v0 : BitVec 64 := field d 16 64
    let level := (field d 9 8 : Byte).toNat
    let ix := (field d 13 8 : Byte).toNat
    let w : BitVec 20 := field d 10 20
    let budget : BitVec 32 := v0.setWidth 32
    let limit : BitVec 32 := v0.extractLsb' 32 32
    let bad := match target with
      | 1 => !((level = 1 && ix = 0) || (level = 0 && ix ≤ 3)) || (w.getLsbD 19 && (field d 14 2 : BitVec 2).toNat ≤ level)
      | 2 => limit != 0 && limit.toNat < budget.toNat
      | 3 => false
      | _ => true
    match s.slotOf (descTag d) with
    | none => s
    | some k =>
      if bad then s.ends n stInvalid
      else if s.swapArmed then s.ends n stBusy
      else match target with
        | 1 =>
          let scope : Option Level := if w.getLsbD 19 then some (field d 14 2) else none
          let lv : Level := BitVec.ofNat 2 level
          (s.cfgTrellis lv (wordAddr w) scope ix (v0.setWidth 32)).access true lv (wordAddr w) (BitVec.ofNat 7 ix) (v0.setWidth 32) scope (some n)
        | 2 => (s.modCtx k fun c => { c with cfgS := { c.cfgS with budget := budget, limit := limit } }).ends n stDone
        | _ => (s.modCtx k fun c => { c with cfgS := { c.cfgS with sigHost := v0, sigBlock := field d 24 64 } }).ends n stDone

-- PARTITION_OPEN (R154, R211, R309 to R311).

/-- The open block from its 128 bytes (R310). -/
def openBlockOf (b : BitVec 1024) : OpenBlock :=
  { prog := field b 0 64, weights := field b 8 64, inputs := field b 16 64, sigHost := field b 24 64, sigBlock := field b 32 64, step0 := field b 40 64
    rank := field b 48 32, rankCnt := field b 52 32, budget := field b 56 32, limit := field b 60 32, margin := field b 64 32, bidsM1 := field b 68 8, feat := field b 69 8 }

/-- Apply `f` to taken descriptor `n`. -/
def State.modTaken (s : State) (n : Nat) (f : Taken → Taken) : State :=
  s.modEng fun e => { e with taken := modFirst (fun x => x.num == n) f e.taken }

/-- Read the 64-byte line that holds member entry `first` (R309, R49). -/
def State.readMembers (s : State) (x : Taken) (first : Nat) : State :=
  let a := field x.body 36 64 + BitVec.ofNat 64 (8 * first)
  let k : HmKind := .members (BitVec.ofNat 3 (cmdRing x.urgent)) x.num first
  -- a halted ring reads no more (R303)
  if (s.ring (cmdRing x.urgent)).st == .halted then s.readFailed k
  else s.hmIssue { kind := k, write := false, addr := a &&& ~~~63, beats := 4 }

/-- PARTITION_OPEN. -/
def execPartitionOpen (u : Bool) (d : Desc) (s : State) : Result :=
  onDesc (· == 0x07) u d s fun s n =>
    if s.eng.taken.any fun x => !x.fin && x.num != n && x.opcode == 0x07 && ptPart x.ptag == ptPart (descTag d) then s.ends n stBusy
    else
      let a : BitVec 64 := field d 28 64 &&& ~~~63
      let rd (s : State) (half : Bool) : State := s.hmIssue {
        kind := .openBlock (BitVec.ofNat 3 (cmdRing u)) n half, write := false, addr := if half then a + 64 else a, beats := 4 }
      rd (rd s false) true

/-- The opener's PART OPEN, once every member entry has been streamed. -/
def State.sendOpen (s : State) (x : Taken) (b : OpenBlock) : State :=
  let m : PartMsg := {
    ptag := x.ptag, bidsM1 := b.bidsM1, node := s.elect.node, feat := b.feat, t := descTime x.body 8, aux := (b.rankCnt - 1).setWidth 16, dmax := b.margin }
  if s.sun.isRoot then s.rootOpen m else s.sendOn s.elect.parent.toList 7 (.part .opOpen m)

/-- The open block has been read (R211, R310). -/
def State.openBlockRead (s : State) (n : Nat) (lo hi : BitVec 512) : State :=
  let b := openBlockOf (hi ++ lo)
  if (b.limit != 0 && b.limit.toNat < b.budget.toNat) || b.rankCnt = 0 || b.rankCnt.toNat > 65536 then s.ends n stInvalid
  else
    let s := s.modTaken n fun x => { x with blk := some b }
    match s.eng.taken.find? fun x => x.num == n && !x.fin with
    | some x => if descFlag x.body 4 then s.readMembers x 0 else s
    | none => s

/-- One half of an open block arrives. -/
def State.openHalf (s : State) (n : Nat) (half : Bool) (data : BitVec 512) : State :=
  match s.eng.taken.find? fun x => x.num == n && !x.fin with
  | none => s
  | some x =>
    match x.lo with
    | none => s.modTaken n fun x => { x with lo := some data, streamed := if half then 1 else 0 }
    | some other => (if half then s.openBlockRead n other data else s.openBlockRead n data other).unreadTurn

/-- A streamed member entry: a rank-map entry with RESOLVED 0 (R147, R154). -/
def memberMsg (t : PTag) (rank : Nat) (hwid : BitVec 64) : MirrorMsg :=
  let r : RankEntry := { valid := true, ptag := t, rank := BitVec.ofNat 16 rank, path := hwid }
  r.mirrorMsg false

/-- Member entries of one line arrive: they are streamed to the root (R154). -/
def State.membersRead (s : State) (n first : Nat) (data : BitVec 512) : State :=
  match s.eng.taken.find? fun x => x.num == n && !x.fin with
  | none => s
  | some x =>
    match x.blk with
    | none => s
    | some b =>
      let start := ((field x.body 36 64 : BitVec 64).toNat / 8 + first) % 8
      let last := min b.rankCnt.toNat (first + (8 - start))
      let s := (List.range (last - first)).foldl (fun s i =>
        let m := memberMsg x.ptag (first + i) (field data (8 * (start + i)) 64)
        if s.sun.isRoot then s.stageEntry m else s.sendOn s.elect.parent.toList 7 (.mirror m)) s
      let s := s.modTaken n fun x => { x with streamed := last }
      if last < b.rankCnt.toNat then s.readMembers x last else s.sendOpen x b

-- PARTITION_CLOSE, PARK_AT (R157, R225, R226, R228).

/-- PARTITION_CLOSE: PART CLOSE goes to the root. -/
def execPartitionClose (u : Bool) (d : Desc) (s : State) : Result :=
  onDesc (· == 0x08) u d s fun s _ => s.toRoot .close { s.partMsg (descTag d) with t := descTime d 8 }

/-- A park from a member Leaf. The cause of a refusal for an occupied slot is not given: it is free. -/
def State.parkFrom (s : State) (d : Desc) (n : Nat) : State :=
  let bid : Byte := field d 28 8
  match s.slotOf (descTag d), s.part (descTag d) with
  | some k, some p =>
    if !(((s.ctx k).arm bid).elim false fun a => a.step) then s.ends n stInvalid
    else if !s.parkFree k then s.drew.complete n stRefused ((Config.anyWord s.freeIx).setWidth 16)
    else if s.tableFull then s.ends n stTableFull
    else s.takePark p { ptag := p.ptag, bid := bid, round := 0, origin := s.elect.node, up := true, leafOrig := true }
  | _, _ => s

/-- PARK_AT. An apex Hub holds no context: its descriptor is DONE once PARK has left on every child port. -/
def execParkAt (u : Bool) (d : Desc) (s : State) : Result :=
  onDesc (· == 0x09) u d s fun s n =>
    if s.isLeaf then
      if descFlag d 4 then (if s.leadShort (descTime d 8) 1000 then s.ends n stLate else s) else s.parkFrom d n
    else if descFlag d 4 then s.complete n stInvalid (refusal 0x0D 0x11)
    else match s.part (descTag d) with
      | some p =>
        let m : ParkMsg := { ptag := p.ptag, bid := field d 28 8, round := 0, origin := s.elect.node, up := true, leafOrig := false }
        (s.takePark p m).drew.complete n stDone 0 ((Config.anyWord s.freeIx).setWidth 80)
      | none => s

-- WINDOW_SET and LOAD_ENV (R215, R217, R220, R223).

/-- The schedule of a descriptor. -/
def schedOf (d : Desc) : Sched :=
  { t0 := descTime d 8, en := d.getLsbD (29 * 8), announce := d.getLsbD (29 * 8 + 1), mask := field d 30 16
    period := field d 32 32, length := field d 36 32, count := field d 40 16 }

/-- R217: the first failing controller, if the schedule breaks a rule; 0 where none is at fault. With no context active the
schedule goes into both sets, and must fit each. -/
def State.schedBad (s : State) (w : Nat) (c : Sched) : Option Nat :=
  let fail (m : Nat) : Bool := c.mask.getLsbD m && (
    !s.pins.mcPresent.getLsbD m || (s.pins.mcPpmax.getD m 0).toNat < 1 ||
    c.period.toNat - c.length.toNat + 100 > (s.pins.mcPpmax.getD m 0).toNat * (s.pins.mcTrefi.getD m 0).toNat ||
    (s.band.schedS.zipIdx ++ if s.activeSlot.isNone then s.band.schedA.zipIdx else []).any fun x => x.2 != w && x.1.en && x.1.mask.getLsbD m)
  if c.length.toNat < 100 || c.length.toNat ≥ c.period.toNat then some (((List.range 16).find? c.mask.getLsbD).getD 0)
  else (List.range 16).find? fail

/-- WINDOW_SET. -/
def execWindowSet (u : Bool) (d : Desc) (s : State) : Result :=
  onDesc (· == 0x0A) u d s fun s n =>
    let w := (field d 28 4 : BitVec 4).toNat
    let c := schedOf d
    match s.schedBad w c with
    | some m => s.complete n stInvalid 0 (det10 [(22, 1, m)])
    | none =>
      if s.swapArmed then s.ends n stBusy
      else
        let s := s.modBand fun b => { b with schedS := b.schedS.set w c }
        let s := if s.activeSlot.isNone then ((s.modBand fun b => { b with schedA := b.schedA.set w c }).enterSched w).driveWin else s
        s.ends n stDone

/-- The envelope of a descriptor. -/
def envOf (d : Desc) : Env :=
  { lRun := field d 28 4, lFloor := field d 29 4, en := d.getLsbD (30 * 8), rUp := field d 32 32, rDn := field d 36 32, dwell := field d 40 32 }

/-- R220: the ranges of an envelope. -/
def envBad (d : Desc) : Bool :=
  let e := envOf d
  decide ((field d 28 8 : Byte).toNat > 15 ∨ (field d 29 8 : Byte).toNat > (field d 28 8 : Byte).toNat ∨
    e.rUp.toNat < 1 ∨ e.rUp.toNat > 1000000 ∨ e.rDn.toNat < 1 ∨ e.rDn.toNat > 1000000 ∨ e.dwell.toNat > 1000000)

/-- LOAD_ENV. -/
def execLoadEnv (u : Bool) (d : Desc) (s : State) : Result :=
  onDesc (· == 0x0E) u d s fun s n =>
    if descFlag d 4 then
      let t := descTime d 8
      if s.band.envA.en || decide ((field d 28 8 : Byte).toNat > 15) then s.ends n stInvalid
      else if s.leadShort t 100 then s.ends n stLate
      else if s.tableFull then s.ends n stTableFull
      else s.insert { action := .loadStep, node := true, t := t, id := descHost d, arg := field d 28 8, ofs := field d 32 32, desc := some n }
    else if envBad d then s.ends n stInvalid
    else if s.swapArmed then s.ends n stBusy
    else
      let s := s.modBand fun b => { b with envS := envOf d }
      (if s.activeSlot.isNone then s.modBand fun b => { b with envA := envOf d } else s).ends n stDone

-- DUMP, CAPTURE_ARM, FENCE, REPLAY_START.

/-- DUMP (R275, R311). -/
def execDump (u : Bool) (d : Desc) (s : State) : Result :=
  onDesc (· == 0x0B) u d s fun s n =>
    if descFlag d 4 && decide ((field d 8 8 : Byte).toNat > 1) then s.ends n stInvalid
    else if s.eng.dump.isSome then s.ends n stBusy
    else if descFlag d 4 then s.startDump (s.dumpOfSlot (d.getLsbD 64) 0x01 (some n))
    else match s.slotOf (descTag d), s.part (descTag d) with
      | some k, _ => s.startDump (s.dumpOfSlot k 0x01 (some n))
      | none, some p => s.startDump (s.dumpOfHub p (some n))
      | none, none => s.complete n stRefused (refusal 0x05 0x1C)

/-- CAPTURE_ARM (R311, R412). -/
def execCaptureArm (u : Bool) (d : Desc) (s : State) : Result :=
  onDesc (· == 0x0D) u d s fun s n =>
    let t := descTime d 8
    let t2 := descTime d 28
    let one := descFlag d 4
    let inp : Byte := field d 48 8
    if inp.toNat > 7 || (!one && !htLt t t2) then s.ends n stInvalid
    else if s.leadShort t 100 then s.ends n stLate
    else if s.tableFull (if one then 1 else 2) then s.ends n stTableFull
    else
      let e : Entry := { action := .capOpen, node := true, t := t, id := descHost d, arg := inp, desc := some n, last := one }
      let s := s.insert e
      if one then s else s.insert { e with action := .capClose, t := t2, last := true }

/-- FENCE (R315): it holds its own ring. -/
def execFence (u : Bool) (d : Desc) (s : State) : Result :=
  onDesc (· == 0x0F) u d s fun s n =>
    if (field d 8 8 : Byte).toNat > 2 then s.ends n stInvalid else s.modRing (cmdRing u) fun r => { r with fence := some n }

/-- Every descriptor that a FENCE waits for has its final record written (R315). -/
def State.fenceMet (s : State) (x : Taken) : Bool :=
  let scope := (field x.body 8 8 : Byte).toNat
  s.eng.taken.all fun y => !(decide (y.num < x.num) && (match scope with
    | 0 => y.urgent == x.urgent
    | 1 => true
    | _ => !y.node && y.ptag == x.ptag))

/-- FENCE_DONE (R315). -/
def execFenceDone (u : Bool) (s : State) : Result :=
  whenAlive s fun s =>
    match (s.ring (cmdRing u)).fence with
    | none => s
    | some n =>
      match s.eng.taken.find? fun x => x.num == n && !x.fin with
      | some x => if s.fenceMet x then (s.modRing (cmdRing u) fun r => { r with fence := none }).ends n stDone else s
      | none => s.modRing (cmdRing u) fun r => { r with fence := none }

/-- REPLAY_START (R292). -/
def execReplayStart (u : Bool) (d : Desc) (s : State) : Result :=
  onDesc (· == 0x10) u d s fun s n =>
    let a : BitVec 64 := field d 8 64
    let b : BitVec 64 := field d 16 64
    match s.slotOf (descTag d) with
    | none => s
    | some k =>
      let c := s.ctx k
      -- the interval of FIRST_STEP has begun: the running interval, once it runs, is that step's or later; a parked context's
      -- begins at T_res (R280)
      let begun := c.st != .opening && (if c.st = .parked then a.toNat < c.step.toNat else a.toNat ≤ c.iStep.toNat)
      if b.toNat < a.toNat || s.sync.capMask = 0 then s.ends n stInvalid
      else if begun then s.ends n stLate
      else
        (s.modSync fun y => { y with replay := some (descTag d, a, b, n), replayQ := [], lastOfs := none, recG0 := none, divStep := none }).replayOn

/-- REPLAY_INJECT (R293, R294): a recorded edge of input `n` at its offset in the running interval. -/
def execReplayInject (n : BitVec 3) (s : State) : Result :=
  onLeaf s fun s =>
    match s.activeSlot, s.sync.replayQ with
    | some k, .capture i e step ofs :: rest =>
      let c := s.ctx k
      if i != n || !s.sync.replaying c.ptag c.iStep then s
      else if step != c.iStep.setWidth 32 then (if stepLt step (c.iStep.setWidth 32) then s.checkOrder k step none else s)
      else
        let t := htAdd c.iStart 0 + ofs
        if !s.isDue (dueTick t) then s
        else
          let s := (s.checkOrder k step (some ofs)).modSync fun y => { y with replayQ := rest, lastOfs := some (step, ofs) }
          (s.inject k i e ofs (decide (dueTick t != s.tick))).replayOn
    | _, _ => s

end Sys2Proof.Machine
end

