-- ==== Sys2Proof/Machine/Grotto.lean ====
section
/-!
DEFINITION. The Grotto (14, R357, R358, R367 to R377): the records of the ledger, the order in which they
are written to the lg_ flash, the fuse anchoring, the start-up scan and the reads.
-/

namespace Sys2Proof.Machine

-- Keys (R358).

/-- K_dev, byte 0 first. -/
def Gate.kDev (g : Gate) : List Byte := bytesOf 32 g.devKey.toNat

/-- K_mac = HMAC(K_dev, "GY-LEDGER"). -/
def Gate.kMac (g : Gate) : List Byte := hmac256 g.kDev [0x47, 0x59, 0x2D, 0x4C, 0x45, 0x44, 0x47, 0x45, 0x52]

/-- PAD(e) = HMAC(K_dev, "GY-OWNER" ‖ e). -/
def Gate.pad (g : Gate) (e : Byte) : List Byte := hmac256 g.kDev [0x47, 0x59, 0x2D, 0x4F, 0x57, 0x4E, 0x45, 0x52, e]

/-- A byte list as a number of `n` bits (R7). -/
def packBytes (n : Nat) (l : List Byte) : BitVec n := BitVec.ofNat n (ofBytes l)

-- Lifecycle (R359).

/-- GH_STATE.STATE. -/
def Life.code : Life → BitVec 3
  | .blank => 0
  | .factory => 1
  | .field => 2
  | .service => 3
  | .retired => 4

/-- The state that the LC fuse gives. -/
def lifeOf (lc : BitVec 3) : Life :=
  if lc.getLsbD 2 then .retired else if lc.getLsbD 1 then .field else if lc.getLsbD 0 then .factory else .blank

-- Records (R368 to R370).

/-- Records whose SEQ is `k` × 2^20 open epoch `k` (R371). -/
def epochLen : Nat := 2 ^ 20

/-- R371: a SEQ beyond the last epoch. -/
def beyondEpochs (seq : BitVec 64) : Bool := seq.toNat ≥ 65 * epochLen

/-- R371: a record is anchored. -/
def anchored (seq eLg : Nat) : Bool := seq / epochLen = eLg || seq + 1 = eLg * epochLen

/-- A record of 128 bytes with its MAC. `body` is 64 bytes. -/
def State.ledgerRecord (s : State) (kind : Byte) (pfail : Bool) (eOwn : Byte) (body : List Byte) (chain : BitVec 128) : BitVec 1024 :=
  let head := [kind, BitVec.ofNat 8 (pfail.toNat + 2 * (beyondEpochs s.lg.seq).toNat), s.gate.life.code.setWidth 8, eOwn] ++
    bytesOf 8 s.lg.seq.toNat ++ bytesOf 10 s.sun.now.toNat ++ [(s.sun.st.code).setWidth 8, 0] ++ bytesOf 8 s.gate.hwid.toNat ++
    (body ++ List.replicate 64 (0 : Byte)).take 64 ++ bytesOf 16 chain.toNat
  packBytes 1024 (head ++ (hmac256 s.gate.kMac head).take 16)

/-- Bytes of a record. -/
def recKind (r : BitVec 1024) : Byte := field r 0 8
def recPfail (r : BitVec 1024) : Bool := r.getLsbD 8
def recOwn (r : BitVec 1024) : Byte := field r 3 8
def recSeq (r : BitVec 1024) : BitVec 64 := field r 4 64
def recCode (r : BitVec 1024) : BitVec 16 := field r 32 16
def recFromHost (r : BitVec 1024) : Bool := (field r 34 8 : Byte) != 0
def recNote (r : BitVec 1024) : BitVec 256 := field r 36 256
def recChain (r : BitVec 1024) : BitVec 128 := field r 96 128
def recMac (r : BitVec 1024) : BitVec 128 := field r 112 128

/-- The ODO body (R369). -/
def Odo.body (o : Odo) : List Byte :=
  bytesOf 4 o.poweredS.toNat ++ bytesOf 4 o.thermal.toNat ++ bytesOf 4 o.retrains.toNat ++ bytesOf 8 o.ce.toNat ++
  bytesOf 4 o.uc.toNat ++ bytesOf 2 o.ft.toNat ++ bytesOf 8 o.serdesS.toNat ++ bytesOf 2 o.pfails.toNat ++
  bytesOf 2 o.unclean.toNat ++ bytesOf 4 o.coldStarts.toNat ++ bytesOf 4 o.svcCount.toNat ++ bytesOf 4 o.svcLost.toNat ++ [o.tMax, o.tNow]

/-- The totals of an ODO record. -/
def odoOf (r : BitVec 1024) : Odo :=
  { poweredS := field r 32 32, thermal := field r 36 32, retrains := field r 40 32, ce := field r 44 64, uc := field r 52 32
    ft := field r 56 16, serdesS := field r 58 64, pfails := field r 66 16, unclean := field r 68 16, coldStarts := field r 70 32
    svcCount := field r 74 32, svcLost := field r 78 32, tMax := field r 82 8, tNow := field r 83 8 }

/-- The SERVICE body (R370). -/
def State.svcBody (s : State) (q : SvcReq) : List Byte :=
  bytesOf 2 q.code.toNat ++ [if q.host then 1 else 0, s.gate.scope.setWidth 8] ++ bytesOf 32 q.note.toNat ++ bytesOf 4 s.lg.odo.poweredS.toNat

/-- Pages of the service log: sectors 258 to the last, 16 pages each (R367). -/
def Ledger.logPages (l : Ledger) : Nat := (2048 * 2 ^ (l.cfg.extractLsb' 1 3).toNat - 258) * 16

/-- The service log has no page left. -/
def Ledger.logFull (l : Ledger) : Bool := l.log.length ≥ l.logPages

-- The lg_ port (R66).

/-- A command of the block on the lg_ port. -/
def State.lgSend (s : State) (cmd : Byte) (addr : Option Nat := none) (page : Option Page := none) : State := s.emit (.lg cmd addr page)

/-- The code of a command with an address, for 3-byte and for 4-byte addressing. -/
def Ledger.lgCode (l : Ledger) (short long : Byte) : Byte := if l.cfg.getLsbD 0 then long else short

/-- Write enable, quad page program, read status register. -/
def State.lgProgram (s : State) (addr : Nat) (p : Page) : State :=
  ((s.lgSend 0x06).lgSend (s.lg.lgCode 0x32 0x34) (some addr) (some p)).lgSend 0x05

/-- Write enable, 4 KB sector erase, read status register. -/
def State.lgErase (s : State) (sector : Nat) : State :=
  ((s.lgSend 0x06).lgSend (s.lg.lgCode 0x20 0x21) (some (sector * 4096))).lgSend 0x05

/-- Quad I/O fast read. -/
def State.lgRead (s : State) (addr : Nat) : State := s.lgSend (s.lg.lgCode 0xEB 0xEC) (some addr)

/-- R66: lg_sck and lg_io are driven, and lg_cs_n is; otherwise they are high impedance, and it is not. -/
def State.lgDriven (s : State) : Bool := s.alive

/-- Addresses of page `i` of the journal and of the service log (R367). -/
def journalAddr (i : Nat) : Nat := (2 * 16 + i) * 256
def logAddr (i : Nat) : Nat := (258 * 16 + i) * 256

/-- The page that the next program of a record takes. -/
def Ledger.writeAddr (l : Ledger) : Job → Nat
  | .odo _ => journalAddr l.jPos
  | .svc _ => logAddr l.log.length

-- Writing (R371 to R373).

/-- The Grotto starts no record: the scan is not done, a program or an erase runs, the flash is sealed
after a power-fail commit (R373), or the device is RETIRED (R366). -/
def State.grottoIdle (s : State) : Bool :=
  s.lg.ready && s.lg.job.isNone && s.lg.erasing.isNone && !s.lg.sealed && s.gate.life != .retired

/-- R371: what comes before the record numbered with the present SEQ: an epoch burn, or its absence. -/
def State.beforeRecord (s : State) : State :=
  let n := s.lg.seq.toNat
  let k := n / epochLen
  if n % epochLen = 0 && 1 ≤ k && k ≤ 64 && s.gate.eLgFuse.toNat < k then
    (s.modGate fun g => { g with eLgFuse := BitVec.ofNat 7 k }).modLg fun l =>
      { l with queue := l.queue ++ [{ code := 0x000B, host := false, note := BitVec.ofNat 256 k }] }
  else if beyondEpochs s.lg.seq then
    let s := s.modLg fun l => { l with unanchored := true }
    if s.lg.exhaustedRaised then s else (s.modLg fun l => { l with exhaustedRaised := true }).raiseNow (ce 0x10 0x05)
  else s

/-- A page program starts. -/
def State.startRecord (s : State) (j : Job) : State :=
  let s := s.beforeRecord
  let own := s.gate.eOwn.setWidth 8
  let rec_ := match j with
    | .odo pf => s.ledgerRecord 0x01 pf own s.lg.odo.body s.lg.chain
    | .svc q => s.ledgerRecord 0x02 false own (s.svcBody q) s.lg.chain
  (s.modLg fun l => { l with job := some j, rec_ := rec_, tries := 0 }).lgProgram (s.lg.writeAddr j) (.valid rec_)

/-- R369, R376, R386: a SERVICE record that finds the log full is lost. -/
def State.loseSvc (s : State) (q : SvcReq) : State :=
  let s := s.modLg fun l => { l with svcFull := true, odo := { l.odo with svcLost := satInc l.odo.svcLost } }
  let s := s.raiseNow (ce 0x10 0x06) 0 none (detail [(28, 4, s.lg.odo.svcLost.toNat)])
  q.desc.elim s fun n => s.complete n stRefused (refusal 0x10 0x11)

/-- R372: start what is to be written next: the power-fail record, else the queue. An ODO record waits for the end of the tick,
so that every SERVICE record of that tick comes before it. -/
def State.startJob (s : State) : State :=
  if !s.grottoIdle then s
  else if s.pw.pfail then s.startRecord (.odo true)
  else
    let s := if s.lg.logFull then s.lg.queue.foldl State.loseSvc (s.modLg fun l => { l with queue := [] }) else s
    match s.lg.queue with
    | q :: r => if s.lg.svcHold then s else (s.modLg fun l => { l with queue := r }).startRecord (.svc q)
    | [] => s

/-- R372: an ODO record that is due starts as a tick ends, once no SERVICE record can come before it. -/
def State.startOdo (s : State) : State :=
  if s.grottoIdle && s.lg.odoDue && !s.pw.pfail && (s.lg.queue.isEmpty || s.lg.svcHold) then
    (s.modLg fun l => { l with odoDue := false }).startRecord (.odo false)
  else s

/-- R372: a SERVICE record is queued as its event occurs. There is no ledger in BLANK, and none is
written in RETIRED or after a power-fail commit. -/
def State.svc (s : State) (code : BitVec 16) (note : BitVec 256 := 0) (desc : Option Nat := none) : State :=
  if s.gate.life = .blank || s.gate.life = .retired || s.lg.sealed || s.pw.pfail then s
  else (s.modLg fun l => { l with queue := l.queue ++ [{ code := code, host := desc.isSome, note := note, desc := desc }] }).startJob

/-- The page that the program took holds the record, or is invalid after a failed read-back. The first
page of a journal sector makes the sector after the next one be erased (R372). -/
def Ledger.program (l : Ledger) (j : Job) (p : Page) : Ledger :=
  match j with
  | .svc _ => { l with log := l.log ++ [p] }
  | .odo _ => { l with
      journal := assocSet l.jPos p l.journal, jPos := (l.jPos + 1) % 4096,
      erasing := if l.jPos % 16 = 0 then some ((l.jPos / 16 + 2) % 256) else l.erasing }

/-- The page has been programmed and read back; the erase that is now due starts. -/
def State.tookPage (s : State) (j : Job) (p : Page) : State :=
  let idle := s.lg.erasing.isNone
  let s := (s.lgRead (s.lg.writeAddr j)).modLg fun l => l.program j p
  if idle then s.lg.erasing.elim s fun k => s.lgErase (2 + k) else s

/-- The read-back is good: the record stands. -/
def State.recordDone (s : State) (j : Job) : State :=
  let rec_ := s.lg.rec_
  let s := (s.tookPage j (.valid rec_)).modLg fun l => { l with job := none, seq := l.seq + 1, tries := 0 }
  match j with
  | .odo _ => s
  | .svc q =>
    let s := s.modLg fun l => { l with chain := recMac rec_, svcFull := l.logFull, odo := { l.odo with svcCount := satInc l.odo.svcCount } }
    q.desc.elim s fun n => s.complete n stDone

/-- The program goes on at the next page. -/
def State.nextPage (s : State) (j : Job) : State := s.lgProgram (s.lg.writeAddr j) (.valid s.lg.rec_)

/-- The read-back failed: the record moves to the next page; after three failures R372 gives it up. In the power-fail state
nothing but the power-fail record is begun again (R373). -/
def State.recordFailed (s : State) (j : Job) : State :=
  let s := (s.tookPage j .invalid).modLg fun l => { l with tries := l.tries + 1 }
  if s.pw.pfail && j != .odo true then
    let s := s.modLg fun l => { l with job := none }
    match j with
    | .odo _ => s
    | .svc q => q.desc.elim s fun n => s.complete n stDiscarded 0 (det10 [(22, 1, reFault)])
  else match j with
  | .odo pf =>
    if s.lg.tries < 3 then s.nextPage j
    else if pf then (s.modLg fun l => { l with job := none, sealed := true }).raiseNow (ce 0x10 0x01) 0 none (detail [(24, 1, 1), (28, 4, s.lg.seq.toNat)])
    else (s.modLg fun l => { l with job := none }).raiseNow (ce 0x10 0x01) 0 none (detail [(24, 1, 1), (28, 4, s.lg.seq.toNat)])
  | .svc q =>
    if s.lg.logFull then (s.modLg fun l => { l with job := none }).loseSvc q
    else if s.lg.tries < 3 then s.nextPage j
    else (s.modLg fun l => { l with job := none, svcHold := true, queue := q :: l.queue }).raiseNow (ce 0x10 0x01) 0 none
      (detail [(24, 1, 2), (28, 4, s.lg.seq.toNat)])

/-- PAGE_PROGRAM_DONE (R372). The power-fail record ends with PFAIL_COMMIT_DONE instead. -/
def State.pageDone (s : State) (ok : Bool) : State :=
  match s.lg.job with
  | none => s
  | some j => if ok then (if j = .odo true then s else (s.recordDone j).startJob) else (s.recordFailed j).startJob

/-- PAGE_PROGRAM_DONE (R372). -/
def execPageProgramDone (ok : Bool) (s : State) : Result := whenAlive s fun s => s.pageDone ok

/-- The erase of a journal sector ends. -/
def State.eraseDone (s : State) : State :=
  match s.lg.erasing with
  | none => s
  | some k => (s.modLg fun l => { l with erasing := none, journal := l.journal.filter fun x => x.1 / 16 != k }).startJob

/-- SECTOR_ERASE_DONE (R372). -/
def execSectorEraseDone (s : State) : Result := whenAlive s State.eraseDone

/-- Everything that is queued is written now, in its order (R360, R366), each page read back (R372). -/
def State.drainLedger (s : State) : State :=
  (List.range (3 * s.lg.queue.length + 12)).foldl (fun s _ => s.drew.eraseDone.pageDone (Config.flashOk s.freeIx))
    (s.modLg fun l => { l with svcHold := false }).startJob

/-- PFAIL_COMMIT_DONE (R349, R373). -/
def execPfailCommitDone (s : State) : Result :=
  whenAlive s fun s =>
    if s.pw.pfail && s.lg.job == some (.odo true) then
      ((s.recordDone (.odo true)).modLg fun l => { l with sealed := true }).modPw fun p => { p with committed := true }
    else s

/-- R373: at the assertion of pw_pfail the queue is lost and the commit begins. PFAIL_CNT counts in it. -/
def State.grottoPfail (s : State) : State :=
  let q := s.lg.queue
  let s := s.odoCount fun o => { o with pfails := satInc o.pfails }
  let s := s.modLg fun l => { l with queue := [], odoDue := false }
  q.foldl (fun s q => q.desc.elim s fun n => s.complete n stDiscarded 0 (det10 [(22, 1, reFault)])) s

/-- ODO_INTERVAL (R372): each whole multiple of 10 s of POWERED_S. -/
def execOdoInterval (s : State) : Result :=
  whenAlive s fun s =>
    let n := s.lg.odo.poweredS
    if s.lg.ready && n != 0 && n.toNat % 10 = 0 && n != s.lg.odoAt && !s.pw.pfail then
      (s.modLg fun l => { l with odoAt := n, svcHold := false, odoDue := true }).startJob
    else s

/-- TEMP_SAMPLE (R369): each second. -/
def execTempSample (s : State) : Result :=
  whenAlive s fun s =>
    if !tickLe (s.lg.sampleAt + BitVec.ofNat 64 nsPerS) s.tick then s
    else
      let t := Config.temperature s.freeIx
      let s := s.drew.modLg fun l => { l with sampleAt := s.tick }
      let ups := s.upPorts.length
      let hot := s.lg.hot || t.toInt ≥ s.lg.tHi.toInt
      let cold := hot && t.toInt ≤ s.lg.tLo.toInt
      (s.odoCount fun o => { o with
        poweredS := satInc o.poweredS, serdesS := satInc o.serdesS ups, tNow := t
        tMax := if t.toInt > o.tMax.toInt then t else o.tMax, thermal := if cold then satInc o.thermal else o.thermal }).modLg
        fun l => { l with hot := hot && !cold }

/-- R372, R387: LG_CTL. T_HI and T_LO are RO once the device is past FACTORY. -/
def State.writeLgCtl (s : State) (w : Word) : State :=
  let s := if s.gate.life = .blank || s.gate.life = .factory then
      s.modLg fun l => { l with tHi := w.extractLsb' 0 8, tLo := w.extractLsb' 8 8 } else s
  let s := s.rpOk
  if w.getLsbD 16 && s.lg.ready && s.lg.lastFlush.elim true (fun t => tickLe (t + BitVec.ofNat 64 nsPerS) s.tick) then
    (s.modLg fun l => { l with lastFlush := some s.tick, odoDue := true }).startJob
  else s

/-- FLUSH (R372): LG_CTL with the thresholds as they stand. -/
def execFlush (s : State) : Result :=
  onReg 0 s fun s => s.writeLgCtl (setBit (((s.lg.tLo ++ s.lg.tHi : BitVec 16)).setWidth 32) 16)

/-- R387: LG_FLASH_CFG, writable in BLANK alone. -/
def State.writeLgCfg (s : State) (w : Word) : State :=
  if s.gate.life = .blank then (s.modLg fun l => { l with cfg := w.extractLsb' 0 7, cfgWritten := true }).rpOk else s.rpErr

/-- R387: LG_STAT, whose ROLLBACK clears when 1 is written. -/
def State.writeLgStat (s : State) (w : Word) : State :=
  (if w.getLsbD 2 then s.modLg fun l => { l with rollback := false } else s).rpOk

-- The start-up scan (R374).

/-- The record of a page. -/
def Page.rec? : Page → Option (BitVec 1024)
  | .valid r => some r
  | _ => none

/-- Journal pages from the newest back, by page index. -/
def Ledger.backward (l : Ledger) : List Nat := (List.range 4096).map fun k => (l.jPos + 8191 - k) % 4096

/-- A journal page; none where it is erased. -/
def Ledger.page (l : Ledger) (i : Nat) : Option Page := (l.journal.find? fun x => x.1 == i).map (·.2)

/-- The newest valid ODO record. -/
def Ledger.newestOdo (l : Ledger) : Option (BitVec 1024) := l.backward.findSome? fun i => (l.page i).bind Page.rec?

/-- The valid SERVICE records, oldest first. -/
def Ledger.services (l : Ledger) : List (BitVec 1024) := l.log.filterMap Page.rec?

/-- The valid header is the one that verifies and carries E_own (R367). -/
def State.header (s : State) : Option (BitVec 1024) :=
  let good (p : Option Page) : Option (BitVec 1024) := (p.bind Page.rec?).filter fun r => recOwn r == s.gate.eOwn.setWidth 8
  (good s.lg.hdrA).or (good s.lg.hdrB)

/-- Header A holds the valid header (R365). -/
def State.headerInA (s : State) : Bool := (s.lg.hdrA.bind Page.rec?).elim false fun r => recOwn r == s.gate.eOwn.setWidth 8

/-- R374: invalid pages that are not the last programmed one of their area: AREA, page index. -/
def Ledger.badPages (l : Ledger) : List (Nat × Nat) :=
  ((l.journal.filter fun x => x.2 == .invalid && x.1 != (l.jPos + 4095) % 4096).map fun x => (0, x.1)) ++
  ((l.log.zipIdx.filter fun x => x.1 == .invalid && x.2 + 1 != l.log.length).map fun x => (1, x.2))

/-- Codes of the entries that the block has written. -/
def Ledger.ownCodes (l : Ledger) : List Nat := (l.services.filter fun r => !recFromHost r).map fun r => (recCode r).toNat

/-- R359, R360: entries that an interrupted transition, or a cold reset in SERVICE, leaves owed. -/
def State.owedEntries (s : State) : List (BitVec 16 × BitVec 256) :=
  let codes := s.lg.ownCodes
  let own := s.gate.eOwn.toNat
  (if codes.contains 1 then [] else [((1 : BitVec 16), s.lg.cfg.setWidth 224 ++ gyVersion)]) ++
  (if s.gate.life = .field && !codes.contains 2 then [((2 : BitVec 16), BitVec.ofNat 256 own)] else []) ++
  (if (codes.count 6) + 1 < own then [((6 : BitVec 16), BitVec.ofNat 256 own)] else []) ++
  (if (codes.reverse.find? fun c => c == 3 || c == 4 || c == 6) == some 3 then [((4 : BitVec 16), (3 : BitVec 256))] else [])

/-- R382: entities whose last HEALTH_HARD has no later HEALTH_CLEAR. The NOTE of either ends in kind (1)
and index (2); a fault code (2) comes first in HEALTH_HARD. -/
def Ledger.hardSet (l : Ledger) : List Nat :=
  l.services.foldl (fun h r =>
    if recFromHost r then h
    else if recCode r = 8 then (let i := (field (recNote r) 3 16).toNat; if h.contains i then h else h ++ [i])
    else if recCode r = 9 then h.filter fun i => i != (field (recNote r) 1 16).toNat
    else h) []

/-- Each SERVICE record carries the MAC of the one before it (R368). -/
def chainHolds : List (BitVec 1024) → Bool
  | a :: b :: r => recChain b == recMac a && chainHolds (b :: r)
  | _ => true

/-- R374: the service log, from the SERVICE record that the newest ODO record names, chains to its tail. Where no ODO record
stands, from its first record. -/
def Ledger.chainCheck (l : Ledger) : Bool :=
  match l.newestOdo with
  | none => chainHolds l.services
  | some o =>
    let r := l.services.dropWhile fun x => recMac x != recChain o
    !r.isEmpty && chainHolds r

/-- R374: the Grotto has read the flash. -/
def State.scanFlash (s : State) : State :=
  let bad := s.lg.badPages
  let s := bad.foldl (fun s x => s.raiseNow (ce 0x10 0x02) 0 none (detail [(24, 1, x.1), (28, 4, x.2)]))
    (s.modLg fun l => { l with bad := satNat 8 bad.length })
  let odo := s.lg.newestOdo
  let last := s.lg.services.getLast?
  let e := s.gate.eLgFuse.toNat
  let newest := ((odo.map recSeq).toList ++ (last.map recSeq).toList).foldl (fun (m : Option Nat) q => some (max (m.getD 0) q.toNat)) none
  let whole := newest.elim (e == 0) fun n => anchored n e
  let next := newest.elim 0 (· + 1)
  let totals := (odo.map odoOf).getD {}
  let s := s.modLg fun l => { l with
    seq := BitVec.ofNat 64 (if whole then next else max next (e * epochLen)), rollback := l.rollback || !whole
    chain := (last.map recMac).getD 0, chained := l.chainCheck, svcFull := l.logFull
    odo := { totals with
      coldStarts := satInc totals.coldStarts, unclean := if odo.elim false (fun r => !recPfail r) then satInc totals.unclean else totals.unclean } }
  let s := if whole then s else
    (s.raiseNow (uc 0x10 0x03) 0 none (BitVec.ofNat 64 (newest.getD 0))).svc 0x000A (BitVec.ofNat 256 ((newest.getD 0) % 2 ^ 56 + e * 2 ^ 56))
  let ok := s.header.isSome
  let s := s.modGate fun g => { g with keyOk := ok }
  let s := if s.gate.life = .field && !ok then s.raiseNow (ce 0x12 0x03) 0 none (detail [(24, 1, s.gate.eOwn.toNat)]) else s
  let hard := s.lg.hardSet
  let s := s.modHs fun h => { h with
    evalDue := h.evalDue || !hard.isEmpty, scores := hard.foldl (fun l i => assocSet i { (assocGet i {} l) with hard := true } l) h.scores }
  let s := s.modLg fun l => { l with ready := true }
  let s := if s.gate.life = .retired then s else s.owedEntries.foldl (fun s x => s.svc x.1 x.2) s
  s.startJob

/-- LEDGER_SCAN_DONE (R374, R388): the flash answers its identification, or does not. -/
def execLedgerScanDone (answers : Bool) (idBytes : BitVec 24) (s : State) : Result :=
  whenAlive s fun s =>
    if !s.lg.scanning then s
    else
      let s := s.modLg fun l => { l with scanning := false }
      if !answers then (s.modLg fun l => { l with absent := true }).raiseNow (ce 0x10 0x04) 0 none (detail [(24, 3, idBytes.toNat)])
      else if s.gate.life = .blank then s
      else s.scanFlash

-- Reading (R377).

/-- R377: page of the journal at INDEX `i`: INDEX 0 is the newest ODO record. -/
def Ledger.journalAt (l : Ledger) (i : Nat) : Nat :=
  let newest := (l.backward.find? fun k => ((l.page k).bind Page.rec?).isSome).getD ((l.jPos + 4095) % 4096)
  (newest + 4096 - i % 4096) % 4096

/-- R377: page of the service log at INDEX `i`: INDEX 0 is GENESIS, the first record. -/
def Ledger.logAt (l : Ledger) (i : Nat) : Nat := l.log.findIdx (fun p => p.rec?.isSome) % max 1 l.log.length + i

/-- The address that LG_RD_SEL names, where it names one. -/
def State.rdAddr (s : State) : Option Nat :=
  let i := s.lg.rdIndex.toNat
  if s.lg.rdArea = 0 then (if i < 4096 then some (journalAddr (s.lg.journalAt i)) else none)
  else if s.lg.rdArea = 1 then (if s.lg.logAt i < s.lg.logPages then some (logAddr (s.lg.logAt i)) else none)
  else if s.lg.rdArea = 2 then some (if s.headerInA || s.header.isNone then 0 else 4096)
  else none

/-- R377, R408: a write of LG_RD_SEL starts a read. -/
def State.writeRdSel (s : State) (w : Word) : State :=
  if s.gate.life = .blank then s.rpErr
  else
    let s := s.modLg fun l => { l with rdArea := w.extractLsb' 0 2, rdIndex := w.extractLsb' 8 22, rdBusy := true, rdValid := false, rdErased := false }
    (s.rdAddr.elim s s.lgRead).rpOk

/-- LG_RD_SEL_WRITE (R377). -/
def execLgRdSelWrite (w : Word) (s : State) : Result := onReg 0 s fun s => s.writeRdSel w

/-- The page that LG_RD_SEL names, where it exists: none of it is an erased page. -/
def State.rdPage (s : State) : Option (Option Page) :=
  let l := s.lg
  let i := l.rdIndex.toNat
  if l.rdArea = 0 then some (if i < 4096 then l.page (l.journalAt i) else none)
  else if l.rdArea = 1 then some l.log[l.logAt i]?
  else if l.rdArea = 2 then some (match s.header with
    | some r => some (.valid r)
    | none => l.hdrA.or l.hdrB)
  else none

/-- A record that a torn page shows, and one of an area that does not exist: the manual gives no bytes. -/
def State.freeRecord (s : State) : BitVec 1024 :=
  (List.range 32).foldl (fun b k => b ||| ((Config.anyWord (s.freeIx + k)).setWidth 1024 <<< (32 * k))) 0

/-- LEDGER_READ_DONE (R366, R368, R377). -/
def execLedgerReadDone (s : State) : Result :=
  whenAlive s fun s =>
    if !s.lg.rdBusy then s
    else
      let put (s : State) (v e : Bool) (d : BitVec 1024) : State :=
        s.modLg fun l => { l with rdBusy := false, rdValid := v, rdErased := e, rdData := d }
      let free := put { s with freeIx := s.freeIx + 32 } false false s.freeRecord
      if s.lg.absent || !s.lg.ready then free
      else match s.rdPage with
        | some (some (.valid r)) => put s true false r
        | some (some .wiped) => put s false false 0
        | some (some .invalid) => free
        | some none => put s false true (BitVec.allOnes 1024)
        | none => free

-- LEDGER_NOTE (R376).

/-- LEDGER_NOTE (R376). -/
def execLedgerNote (u : Bool) (d : Desc) (s : State) : Result :=
  onDesc (· == 0x0C) u d s fun s n =>
    let code : BitVec 16 := field d 8 16
    if code.toNat < 0x0100 then s.complete n stInvalid
    else if s.gate.life = .retired then s.complete n stRefused (refusal 0x12 0x10)
    else if !s.lg.ready then s.complete n stRefused (refusal 0x10 0x10)
    else if s.lg.logFull then s.complete n stRefused (refusal 0x10 0x11)
    else if s.lg.queue.length ≥ 16 then s.complete n stBusy
    else s.svc code (field d 12 256) (some n)

end Sys2Proof.Machine
end

