-- ==== Sys2Proof/Machine/Gatehouse.lean ====
section
/-!
DEFINITION. The Gatehouse (14, R357 to R366): lifecycle, challenge and response, sessions, rekey and
retirement.
-/

namespace Sys2Proof.Machine

/-- RESULT codes of GH_STATE (R387). -/
def ghDone : BitVec 4 := 0
def ghBad : BitVec 4 := 1
def ghNoChallenge : BitVec 4 := 2
def ghLocked : BitVec 4 := 3
def ghNotPermitted : BitVec 4 := 4
def ghHeld : BitVec 4 := 5
def ghExhausted : BitVec 4 := 6
def ghFlash : BitVec 4 := 7

/-- R387: a command ends with its RESULT, and GH_RESP clears. -/
def State.ghEnd (s : State) (r : BitVec 4) : State := (s.modGate fun g => { g with result := r, resp := 0 }).rpOk

/-- A challenge serves one command (R361). -/
def State.ghUse (s : State) : State := s.modGate fun g => { g with chal := none }

/-- HMAC over CHAL ‖ HWID ‖ one byte (R362, R365). -/
def State.ghMac (s : State) (key : List Byte) (chal : BitVec 128) (tail : Byte) : BitVec 256 :=
  packBytes 256 (hmac256 key (bytesOf 16 chal.toNat ++ bytesOf 8 s.gate.hwid.toNat ++ [tail]))

/-- K_own, unwrapped from the valid header (R358, R368), which the scan has found to verify (R375). -/
def State.kOwn (s : State) : Option (BitVec 256) :=
  (s.header.filter fun _ => s.gate.keyOk).map fun r => (field r 32 256 : BitVec 256) ^^^ packBytes 256 (s.gate.pad (s.gate.eOwn.setWidth 8))

/-- A header page for owner epoch `e` (R367, R368). -/
def State.headerPage (s : State) (key : BitVec 256) (e : BitVec 5) : Page :=
  let wrapped := key ^^^ packBytes 256 (s.gate.pad (e.setWidth 8))
  .valid (s.ledgerRecord 0x06 false (e.setWidth 8) (bytesOf 32 wrapped.toNat ++ [s.lg.cfg.setWidth 8]) 0)

/-- R355, R363, R414: when a session ends, banks of TEST return to their owners after reset, and the trace
that TRACE opened is emptied. -/
def State.endSession (s : State) (dest : Life) : State :=
  let back := s.profile.owners
  let s := s.modPw fun p => { p with owners := (p.owners.zip back).map fun x => if x.1 = 0xF then x.2 else x.1 }
  let s := if s.gate.scope.getLsbD 0 then s.modBv fun b => { b with en := false, buf := [] } else s
  s.modGate fun g => { g with life := dest, scope := 0, staged := none }

/-- R364: a response that does not match. -/
def State.ghFail (s : State) : State :=
  let n := satInc s.gate.fails
  let first := !s.gate.failNoted
  let lock := n = 4 || n = 8
  let s := s.modGate fun g => { g with
    fails := n, failNoted := true, staged := none, locked := g.locked || lock, lockedAt := if lock then s.tick else g.lockedAt }
  let s := s.raiseNow (ce 0x12 0x01) 0 none (detail [(24, 1, n.toNat)])
  let s := if n = 8 then s.raiseNow (ce 0x12 0x02) 0 none (detail [(24, 1, n.toNat)]) else s
  let s := if first then s.svc 0x0005 (BitVec.ofNat 256 n.toNat) else s
  let s := if lock then s.svc 0x0005 (BitVec.ofNat 256 (n.toNat + 256)) else s
  s.ghEnd ghBad

/-- CHAL (R361, R364). -/
def State.ghChal (s : State) : State :=
  if s.gate.life != .field && s.gate.life != .service then s.ghEnd ghNotPermitted
  else if s.gate.locked then s.ghEnd ghLocked
  else (s.modGate fun g => { g with chal := none, drawing := true }).ghEnd ghDone

/-- Any context slot or partition entry in use (R363). -/
def State.partsHeld (s : State) : Bool :=
  if s.isLeaf then s.ctx0.st != .free || s.ctx1.st != .free else s.fab.parts.any fun p => p.st != .free

/-- OPEN (R362, R363). -/
def State.ghOpen (s : State) (scope : BitVec 3) : State :=
  if s.gate.life != .field || scope = 0 then s.ghEnd ghNotPermitted
  else match s.gate.chal, s.kOwn with
    | _, none => s.ghEnd ghNotPermitted
    | none, _ => s.ghEnd ghNoChallenge
    | some c, some k =>
      let s := s.ghUse
      if scope.getLsbD 1 && s.partsHeld then s.ghEnd ghHeld
      else if s.gate.resp != s.ghMac (bytesOf 32 k.toNat) c (scope.setWidth 8) then s.ghFail
      else
        let s := s.modGate fun g => { g with life := .service, scope := scope, fails := 0, openedAt := s.tick }
        (s.svc 0x0003 (scope.setWidth 256)).ghEnd ghDone

/-- A session ends for `reason` (R359, R370). The entry carries the scopes of the session that ends. -/
def State.closeSession (s : State) (reason : Nat) : State := (s.svc 0x0004 (BitVec.ofNat 256 reason)).endSession .field

/-- EXIT (R360). -/
def State.ghExit (s : State) : State :=
  if s.gate.life != .service then s.ghEnd ghNotPermitted else (s.closeSession 1).ghEnd ghDone

/-- REKEY (R365). -/
def State.ghRekey (s : State) : State :=
  if s.gate.life != .service || !s.gate.scope.getLsbD 2 then s.ghEnd ghNotPermitted
  else if s.gate.eOwn = 16 then s.ghUse.ghEnd ghExhausted
  else match s.gate.chal, s.kOwn with
    | some c, some k =>
      let s := s.ghUse
      (s.modGate fun g => { g with staged := some (g.resp ^^^ s.ghMac (bytesOf 32 k.toNat) c 0x80) }).ghEnd ghDone
    | none, _ => s.ghEnd ghNoChallenge
    | _, none => s.ghEnd ghNotPermitted

/-- A header record, the record numbered next, is programmed into page 0 of its sector, erased before, and read back (R365, R368). -/
def State.headerWritten (s : State) (a : Bool) (p : Page) : State :=
  let at_ := if a then 0 else 4096
  let s := (((s.lgErase (at_ / 4096)).lgProgram at_ p).lgRead at_).drew
  s.modLg fun l => if a then { l with hdrA := some p, seq := l.seq + 1 } else { l with hdrB := some p, seq := l.seq + 1 }

/-- The read-back of a header failed: the sector holds no header, no fuse is burned, and a staged key is gone (R360, R365). -/
def State.headerFailed (s : State) (a : Bool) : State :=
  let s := (s.headerWritten a .invalid).modLg fun l => { l with seq := s.lg.seq }
  (s.modGate fun g => { g with staged := none }).ghEnd ghFlash

/-- CONFIRM (R365). -/
def State.ghConfirm (s : State) : State :=
  match s.gate.staged with
  | none => s.ghEnd ghNotPermitted
  | some k =>
    if s.gate.life != .service || !s.gate.scope.getLsbD 2 then s.ghEnd ghNotPermitted
    else match s.gate.chal with
      | none => (s.modGate fun g => { g with staged := none }).ghEnd ghNoChallenge
      | some c =>
        let s := s.ghUse
        if s.gate.resp != s.ghMac (bytesOf 32 k.toNat) c 0x40 then s.ghFail
        else if !s.lg.ready then (s.modGate fun g => { g with staged := none }).ghEnd ghFlash
        else if !Config.flashOk s.freeIx then s.beforeRecord.headerFailed (!s.headerInA)
        else
          let e := s.gate.eOwn + 1
          let s := s.beforeRecord.headerWritten (!s.headerInA) (s.headerPage k e)
          let s := s.modGate fun g => { g with eOwn := e, eOwnFuse := e }
          ((s.svc 0x0006 (e.setWidth 256)).endSession .field).ghEnd ghDone

/-- RETIRE (R360, R366). -/
def State.ghRetire (s : State) : State :=
  if s.gate.life != .factory && !(s.gate.life == .service && s.gate.scope.getLsbD 2) then s.ghEnd ghNotPermitted
  else if !s.lg.ready then s.ghEnd ghFlash
  else
    let s := (s.svc 0x0007).drainLedger
    if s.lg.queue.any (fun q => q.code = 0x0007 && !q.host) then
      (s.modLg fun l => { l with queue := l.queue.filter fun q => q.code != 0x0007 || q.host }).ghEnd ghFlash
    else
    let s := ((s.lgProgram 0 .wiped).lgProgram 4096 .wiped).modGate fun g => { g with lc := setBit g.lc 2 }
    let s := s.modLg fun l => { l with hdrA := some .wiped, hdrB := some .wiped }
    let s := s.endSession .retired
    (s.modGate fun g => { g with keyOk := false }).ghEnd ghDone

/-- SHIP (R360): the first owner key, under owner epoch 1. -/
def State.ghShip (s : State) : State :=
  if s.gate.life != .factory || !s.lg.ready then s.ghEnd ghNotPermitted
  else if !Config.flashOk s.freeIx then s.beforeRecord.headerFailed true
  else
    let s := s.beforeRecord.headerWritten true (s.headerPage s.gate.resp 1)
    let s := s.modGate fun g => { g with
      lc := setBit g.lc 1, life := .field, eOwn := 1, eOwnFuse := 1, thermFuse := s.lg.tLo ++ s.lg.tHi, keyOk := true }
    (s.svc 0x0002 1).ghEnd ghDone

/-- FUSE_ID (R360). -/
def State.ghFuseId (s : State) : State :=
  let id : BitVec 64 := s.gate.resp.setWidth 64
  if s.gate.life != .blank || id = 0 || id = BitVec.allOnes 64 then s.ghEnd ghNotPermitted
  else (s.modGate fun g => { g with hwidFuse := g.hwidFuse ||| id, hwid := g.hwidFuse ||| id }).ghEnd ghDone

/-- FUSE_KEY (R360, R367): the flash is formatted, then K_dev, LGCFG and LC bit 0 are burned. -/
def State.ghFuseKey (s : State) : State :=
  if s.gate.life != .blank || s.gate.hwidFuse = 0 || !s.lg.cfgWritten then s.ghEnd ghNotPermitted
  else if s.lg.absent then s.ghEnd ghFlash
  else
    let s := (List.range (2048 * 2 ^ (s.lg.cfg.extractLsb' 1 3).toNat)).foldl State.lgErase s
    let s := s.modGate fun g => { g with devKey := g.devKey ||| g.resp, lgcfgFuse := s.lg.cfg.setWidth 8, lc := setBit g.lc 0, life := .factory }
    let s := s.modLg fun l => { l with
      journal := [], jPos := 0, log := [], hdrA := none, hdrB := none, erasing := none, job := none, queue := [], odoDue := false
      seq := 0, chain := 0, odo := {}, odoAt := 0, ready := true, scanning := false, svcFull := false }
    (s.svc 0x0001 (s.lg.cfg.setWidth 224 ++ gyVersion)).ghEnd ghDone

/-- GH_CMD (R360, R387): any other command completes with RESULT 4. -/
def State.writeGhCmd (s : State) (w : Word) : State :=
  let op := w.toNat % 16
  if op = 1 then s.ghChal else if op = 2 then s.ghOpen (w.extractLsb' 4 3) else if op = 3 then s.ghExit else if op = 4 then s.ghRekey
  else if op = 5 then s.ghRetire else if op = 6 then s.ghShip else if op = 7 then s.ghConfirm else if op = 8 then s.ghFuseId
  else if op = 9 then s.ghFuseKey else s.ghEnd ghNotPermitted

/-- GH_RESP`k`: four bytes of a response (R387). -/
def State.writeResp (s : State) (k : Nat) (w : Word) : State :=
  let mask : BitVec 256 := (0xFFFFFFFF : BitVec 256) <<< (32 * k)
  (s.modGate fun g => { g with resp := (g.resp &&& ~~~mask) ||| (w.setWidth 256 <<< (32 * k)) }).rpOk

/-- CHAL (R361, R364). -/
def execChal (s : State) : Result := onReg 0 s State.ghChal

/-- CHAL_DRAWN (R361): within 10 µs. -/
def execChalDrawn (s : State) : Result :=
  whenAlive s fun s =>
    if s.gate.drawing then
      s.drew.modGate fun g => { g with drawing := false, chal := some (Config.challenge s.freeIx), chalAt := s.tick }
    else s

/-- CHAL_EXPIRE (R361): 300 s after issue. -/
def execChalExpire (s : State) : Result :=
  whenAlive s fun s =>
    if s.gate.chal.isSome && tickLe (s.gate.chalAt + BitVec.ofNat 64 (300 * nsPerS)) s.tick then s.ghUse else s

/-- OPEN (R362, R363). -/
def execGateOpen (scope : BitVec 3) (s : State) : Result := onReg 0 s fun s => s.ghOpen scope

/-- EXIT (R360). -/
def execGateExit (s : State) : Result := onReg 0 s State.ghExit

/-- SESSION_TIME_LIMIT (R360): 8 h after opening. -/
def execSessionTimeLimit (s : State) : Result :=
  whenAlive s fun s =>
    if s.gate.life == .service && tickLe (s.gate.openedAt + BitVec.ofNat 64 (28800 * nsPerS)) s.tick then s.closeSession 2 else s

/-- REKEY (R365). -/
def execRekey (s : State) : Result := onReg 0 s State.ghRekey

/-- CONFIRM (R365). -/
def execConfirm (s : State) : Result := onReg 0 s State.ghConfirm

/-- RETIRE (R366). -/
def execRetire (s : State) : Result := onReg 0 s State.ghRetire

/-- SHIP (R360). -/
def execShip (s : State) : Result := onReg 0 s State.ghShip

/-- FUSE_ID (R360). -/
def execFuseId (s : State) : Result := onReg 0 s State.ghFuseId

/-- FUSE_KEY (R360). -/
def execFuseKey (s : State) : Result := onReg 0 s State.ghFuseKey

/-- LOCKOUT_END (R364): 60 s after the fourth failure. After the eighth, LOCKED stays until cold reset. -/
def execLockoutEnd (s : State) : Result :=
  whenAlive s fun s =>
    if s.gate.locked && s.gate.fails.toNat < 8 && tickLe (s.gate.lockedAt + BitVec.ofNat 64 (60 * nsPerS)) s.tick then
      s.modGate fun g => { g with locked := false }
    else s

end Sys2Proof.Machine
end

