-- ==== Sys2Proof/Machine/Health.lean ====
section
/-!
DEFINITION. Health scoring (14, R378 to R384): evidence, windows, attribution, verdicts and the governor.
-/

namespace Sys2Proof.Machine

/-- Entity indices (R378). -/
def entNode : Nat := 0
def entEnd (p : PortNo) : Nat := 1 + p.toNat
def entLink (p : PortNo) : Nat := 65 + p.toNat
def entRegion (r : Nat) : Nat := 129 + r

/-- Kind of an entity, and its number within the kind (R378, R384). -/
def entKind (i : Nat) : Nat × Nat :=
  if i = 0 then (0, 0) else if i ≤ 64 then (1, i - 1) else if i ≤ 128 then (2, i - 65) else (3, i - 129)

/-- The score of an entity. -/
def Health.score (h : Health) (i : Nat) : Score := assocGet i {} h.scores

/-- Apply `f` to the score of an entity. -/
def State.modScore (s : State) (i : Nat) (f : Score → Score) : State :=
  s.modHs fun h => { h with scores := assocSet i (f (h.score i)) h.scores }

/-- Seconds since the last write of HS_SPARES, saturating (R387). -/
def State.sparesAge (s : State) : BitVec 16 :=
  match s.hs.sparesAt with
  | none => 0xFFFF
  | some t => satNat 16 ((s.tick - t).toNat / nsPerS)

/-- R383: the governor caps soft verdicts now. -/
def State.capped (s : State) : Bool := s.hs.spares.toNat ≤ s.hs.floor.toNat || s.sparesAge.toNat ≥ 3600

/-- R382, R383: verdict and CAPPED of a score. -/
def State.verdictOf (s : State) (x : Score) : BitVec 2 × Bool :=
  if x.hard then (2, false)
  else if x.s.toNat ≥ s.hs.tExp.toNat * 256 then (if s.capped then (1, true) else (2, false))
  else if x.s.toNat ≥ s.hs.tAdv.toNat * 256 then (1, false)
  else (0, false)

/-- R384: a verdict that changed to ADVISE or EXPEL is raised and sent toward the root. -/
def State.advise (s : State) (i : Nat) (x : Score) : State :=
  let code := ce 0x11 (if x.verdict = 2 then 0x02 else 0x01)
  let (kind, ix) := entKind i
  let det := detail [(24, 1, kind), (25, 1, ix), (26, 3, s.elect.node.toNat), (29, 1, x.hard.toNat + 2 * x.capped.toNat),
    (30, 2, min (x.s.toNat / 16) 0xFFFF)]
  let m : HealthMsg := { node := s.elect.node, port := 0xFF, fault := code, t := s.stamp, count := x.s.setWidth 32,
                         kind := BitVec.ofNat 8 kind, index := BitVec.ofNat 8 ix }
  let s := s.raiseNow code 0 none det
  match s.elect.parent with
  | some p => if s.sun.isRoot then s else s.send p 7 (.health m)
  | none => s

/-- R382, R383: the verdict of one entity is evaluated. -/
def State.evalOne (s : State) (i : Nat) : State :=
  let old := s.hs.score i
  let v := s.verdictOf old
  let s := s.modScore i fun x => { x with verdict := v.1, capped := v.2 }
  if v.1 != old.verdict && v.1 != 0 then s.advise i (s.hs.score i) else s

/-- R383: an evaluation of every verdict. The one made last at a tick stands, so that it is made as the tick ends. -/
def State.evaluate (s : State) : State := if s.scoring then s.modHs fun h => { h with evalDue := true } else s

/-- R382, R383: the evaluation that this tick has asked for, under the values that stand at its end. -/
def State.settleVerdicts (s : State) : State :=
  if s.hs.evalDue && s.scoring then (s.hs.scores.map (·.1)).foldl State.evalOne (s.modHs fun h => { h with evalDue := false }) else s

/-- R379: evidence in units at an entity. -/
def State.charge (s : State) (i n : Nat) : State := if s.scoring then s.modScore i fun x => { x with units := x.units + n } else s

/-- R382: hard evidence sets HARD at once and writes HEALTH_HARD. -/
def State.chargeHard (s : State) (i : Nat) (code : BitVec 16) : State :=
  if !s.scoring then s
  else
    let s := s.modScore i fun x => { x with hard := true }
    (s.svc 0x0008 (BitVec.ofNat 256 (code.toNat + (entKind i).1 * 2 ^ 16 + i * 2 ^ 24))).evaluate

/-- R379: what a fault charges. `det` is its DETAIL. -/
def State.chargeFault (s : State) (code : BitVec 16) (loc : BitVec 24) (det : BitVec 64) : State :=
  let unit := (codeUnit code).toNat
  let cause := (codeCause code).toNat
  let isCe := codeClass code == 1
  let p : PortNo := loc.extractLsb' 0 6
  let chip := codeLevel code == 3
  let region := (loc.extractLsb' 0 7 : BitVec 7).toNat
  let b24 := (det.extractLsb' 0 8 : BitVec 8).toNat
  let b25 := (det.extractLsb' 8 8 : BitVec 8).toNat
  if unit = 0x03 && cause = 3 then
    (if b24 = 4 || b24 = 5 then s.linkUnits p 128 else if b24 = 1 then s.charge (entLink p) 64 else s)
  else if (unit = 0x01 && cause = 2) || (unit = 0x03 && cause = 2) then s.charge (entLink p) 16
  else if unit = 0x08 && cause = 3 then s.chargeHard (entRegion region) code
  else if unit = 0x15 && cause = 2 then
    (if b24 = 1 then s.chargeHard entNode code else s.chargeHard (entRegion (if chip then b25 else region)) code)
  else if 0x06 ≤ unit && unit ≤ 0x08 then s.charge (if chip then entNode else entRegion region) (if isCe then 16 else 128)
  else if unit = 0x02 && cause = 2 then s.charge entNode (if isCe then 16 else 128)
  else if (unit = 0x0E && cause = 1) || (unit = 0x13 && cause = 1) then s.charge entNode 128
  else if (unit = 0x01 && cause = 3) || (unit = 0x15 && cause = 1) || (unit = 0x0E && cause = 2) then s.chargeHard entNode code
  else s

/-- A window of 64 s (R380). -/
def windowNs : Nat := 64 * nsPerS

/-- HEALTH_WINDOW_END (R380), at a tick whose integer is a multiple of 64 s: the units counted are set aside, and each UP port sends its HEALTH. -/
def execHealthWindowEnd (s : State) : Result :=
  whenAlive s fun s =>
    let w := s.tick
    if !s.scoring || w.toNat % windowNs != 0 || w == s.hs.window then s
    else
      let s := s.modHs fun h => { h with window := w, due := true, scores := h.scores.map fun x => (x.1, { x.2 with win := x.2.units, units := 0 }) }
      let s := s.modPorts fun l => l.map fun q => { q with winUnits := q.units, units := 0 }
      s.upPorts.foldl (fun s p => s.send p 7 (.health {
        node := s.elect.node, port := p.setWidth 8, fault := 0, t := htOf w, count := satNat 32 (s.port p).winUnits, kind := 0, index := 0 })) s

/-- R380: the entity that the link units of port `p` are charged to. -/
def State.blame (s : State) (p : PortNo) : Nat :=
  match (s.port p).partnerHealth with
  | some (t, c) => if t == htOf s.hs.window && c = 0 && (s.port p).st == .up then entEnd p else entLink p
  | none => entLink p

/-- Binary search for the largest `f` below `lo + 2^k` with (2f − 1)^h ≤ 2^(25h − 64). -/
def decaySearch (h : Nat) : Nat → Nat → Nat
  | 0, lo => lo
  | k + 1, lo => let m := lo + 2 ^ k; if (2 * m - 1) ^ h ≤ 2 ^ (25 * h - 64) then decaySearch h k m else decaySearch h k lo

/-- F = round(2^24 × 2^(−64 / HS_HALFLIFE)) (R381). -/
def decay (halflife : Nat) : Nat := decaySearch halflife 25 0

/-- R381: a score decays by the factor `f` and takes the window's units. -/
def Score.step (x : Score) (f : Nat) : Score := { x with s := satNat 24 (x.s.toNat * f / 2 ^ 24 + x.win), win := 0 }

/-- HEALTH_CHARGE (R380 to R383): at W + 1 ms. -/
def execHealthCharge (s : State) : Result :=
  whenAlive s fun s =>
    if !s.scoring || !s.hs.due || s.tick != s.hs.window + 1000000 then s
    else
      let s := s.portNos.foldl (fun s p =>
        let n := (s.port p).winUnits
        if n = 0 then s else (s.modScore (s.blame p) fun x => { x with win := x.win + n }).modPort p fun q => { q with winUnits := 0 }) s
      let f := decay s.hs.halflife.toNat
      (s.modHs fun h => { h with due := false, scores := h.scores.map fun x => (x.1, x.2.step f) }).evaluate

/-- SPARES_STALE (R383): AGE reaches 3,600 s. -/
def execSparesStale (s : State) : Result :=
  whenAlive s fun s =>
    if s.scoring && !s.hs.stale && s.sparesAge.toNat ≥ 3600 then (s.modHs fun h => { h with stale := true }).raiseNow (ce 0x11 0x03) else s

/-- HS_SPARES (R383, R387). -/
def State.writeSpares (s : State) (w : Word) : State :=
  (s.modHs fun h => { h with spares := w.extractLsb' 0 16, sparesAt := some s.tick, stale := false }).evaluate.rpOk

/-- HS_FLOOR (R383, R387). -/
def State.writeFloor (s : State) (w : Word) : State := (s.modHs fun h => { h with floor := w.extractLsb' 0 16 }).evaluate.rpOk

/-- HS_SPARES_WRITE (R383). -/
def execHsSparesWrite (w : Word) (s : State) : Result := onReg 3 s fun s => s.writeSpares w

/-- HS_FLOOR_WRITE (R383). -/
def execHsFloorWrite (w : Word) (s : State) : Result := onReg 3 s fun s => s.writeFloor w

/-- HS_CTL as it reads, without CAP. -/
def Health.ctl (h : Health) : Word := (0 : BitVec 8) ++ h.tExp ++ h.tAdv ++ (BitVec.ofNat 8 h.en.toNat)

/-- R378, R387: every HARD entity is cleared, and HEALTH_CLEAR written for it. -/
def State.clearHard (s : State) : State :=
  s.hs.scores.foldl (fun s x =>
    if x.2.hard then (s.modScore x.1 fun y => { y with hard := false }).svc 0x0009 (BitVec.ofNat 256 ((entKind x.1).1 + x.1 * 2 ^ 8))
    else s) s

/-- HS_CTL (R382, R387, R408). -/
def State.writeHsCtl (s : State) (w : Word) : State :=
  let adv : Byte := w.extractLsb' 8 8
  let exp : Byte := w.extractLsb' 16 8
  let may := s.gate.life = .factory || s.gate.scope.getLsbD 1
  if exp.toNat < adv.toNat || (w.getLsbD 1 && !may) then s.rpErr
  else
    let s := s.modHs fun h => { h with en := w.getLsbD 0, tAdv := adv, tExp := exp }
    let s := if w.getLsbD 1 then s.clearHard else s
    let s := if w.getLsbD 2 then s.modHs fun h => { h with scores := h.scores.map fun x => (x.1, { x.2 with s := 0 }) } else s
    s.rpOk

/-- HS_HALFLIFE (R387). -/
def State.writeHalflife (s : State) (w : Word) : State :=
  let h : BitVec 24 := w.extractLsb' 0 24
  (s.modHs fun x => { x with halflife := if h.toNat < 64 then 64 else h }).rpOk

/-- CLR_HARD (R387): with the other fields as they stand. -/
def execClrHard (s : State) : Result := onReg 3 s fun s => s.writeHsCtl (setBit s.hs.ctl 1)

/-- HS_CLR (R387). -/
def execHsClr (s : State) : Result := onReg 3 s fun s => s.writeHsCtl (setBit s.hs.ctl 2)

/-- HEALTH_RX (R380, R384). A window HEALTH stays with the partner that sent it; a verdict goes on to the
root, which writes it as its own CE. Byte 29 of DETAIL is not carried by the flit. -/
def State.takeHealth (s : State) (p : PortNo) (m : HealthMsg) : State :=
  if m.port != 0xFF then s.modPort p fun q => { q with partnerHealth := some (m.t, m.count) }
  else if s.sun.isRoot then
    let flags := (Config.anyWord s.freeIx).toNat % 4
    s.drew.raiseNow m.fault 0 none (detail [(24, 1, m.kind.toNat), (25, 1, m.index.toNat), (26, 3, m.node.toNat), (29, 1, flags),
      (30, 2, min (m.count.toNat / 16) 0xFFFF)])
  else match s.elect.parent with
    | some q => s.send q 7 (.health m)
    | none => s

/-- HEALTH_RX (R380, R384). -/
def execHealthRx (p : PortNo) (m : HealthMsg) (s : State) : Result := onMsg p (.health m) s fun s => s.takeHealth p m

end Sys2Proof.Machine
end

