-- ==== Sys2Proof/Machine/Faults.lean ====
section
/-!
DEFINITION. The fault collector (12): what it does with a report, what a UC touches, the safe state and
fault injection.
-/

namespace Sys2Proof.Machine

-- What the collector holds (R325, R326, R333, R341).

/-- FC_FIRST.VALID. -/
def Collector.valid (f : Collector) : Bool := f.first.v.getLsbD 56

/-- fl_err_p and fl_err_n follow FC_FIRST.VALID (R61). -/
def State.driveErr (s : State) : State := s.modPins fun p => { p with flErrP := s.fc.valid, flErrN := !s.fc.valid }

/-- R326: a record enters the history of 32, newest first in processing order: R326 sets that order against the key of R37, log
entry 55. `isCe` by its code. -/
def Collector.store (f : Collector) (r : BitVec 256) (isCe : Bool) : Collector :=
  let entryCe (c : CPair 256) : Bool := codeClass (field c.v 4 16) == 1
  if f.hist.length < 32 then { f with hist := cpair r :: f.hist }
  else if !isCe then { f with hist := cpair r :: f.hist.dropLast }
  else if f.hist.any entryCe then
    let old := f.hist.reverse
    { f with hist := cpair r :: ((old.takeWhile fun c => !entryCe c) ++ (old.dropWhile fun c => !entryCe c).tail).reverse }
  else { f with ceLost := satInc f.ceLost }

/-- The FC_FIRST words of a fault: FAULT, SEQ, LOC, VALID, PART_V (R341). -/
def firstWords (r : Report) (seq : BitVec 16) : BitVec 64 :=
  (0 : BitVec 6) ++ bit r.partV ++ bit true ++ r.loc ++ seq ++ r.code

/-- Increment an 8-bit field of a 32-bit counter word, saturating. -/
def bump8 (w : BitVec 32) (k : Nat) : BitVec 32 :=
  let b : Byte := w.extractLsb' (8 * k) 8
  if b = 0xFF then w else w + BitVec.ofNat 32 (2 ^ (8 * k))

/-- R325 step 3. The second component is FIRST. -/
def Collector.latch (f : Collector) (r : Report) (seq : BitVec 16) : Collector × Bool :=
  let cls := codeClass r.code
  let unmasked := cls == 3 || (cls == 2 && !f.mask.v.getLsbD (codeUnit r.code).toNat)
  if !unmasked then (f, false)
  else if f.valid then
    ({ f with ovf := cpair (bump8 (setBit f.ovf.v (codeLevel r.code).toNat) 1) }, false)
  else ({ f with first := cpair (firstWords r seq), firstT := cpair (r.ptag ++ r.stamp) }, true)

/-- R325 step 1: a CE of a promoted unit becomes a UC. -/
def Collector.classify (f : Collector) (r : Report) : Report :=
  if codeClass r.code == 1 && f.promote.v.getLsbD (codeUnit r.code).toNat then { r with code := (r.code &&& 0x3FFF) ||| 0x8000 } else r

/-- R325 step 2: a record with the same code, LOC and PTAG was written less than 10 µs ago. -/
def Collector.coalesces (f : Collector) (r : Report) (now : Tick) : Bool :=
  f.recent.any fun x => x.1 == r.code && x.2.1 == r.loc && x.2.2.1 == r.partV && x.2.2.2.1 == r.ptag && tickLt now (x.2.2.2.2 + 10000)

-- What a UC touches (R327).

/-- R327, its table. `promoted`: the code was that of a CE. "partition fault" has been acted on where the
PART FAULT was accepted. -/
def State.touched (s : State) (r : Report) (promoted : Bool) : List PTag :=
  let unit := (codeUnit r.code).toNat
  let cause := (codeCause r.code).toNat
  let named := if r.partV then [r.ptag] else []
  let b24 := r.detail.extractLsb' 0 8
  if promoted then named
  else if unit = 0x05 && cause = 2 then []
  else if unit = 0x03 then
    (s.fab.parts.filter fun p => p.st != .free && !p.ended && p.treePorts.contains (r.loc.extractLsb' 0 6)).map (·.ptag)
  else if unit = 0x04 then (if cause = 5 then s.standing else [])
  else if unit = 0x01 || unit = 0x05 || (0x09 ≤ unit && unit ≤ 0x0C) then named
  else if (0x06 ≤ unit && unit ≤ 0x08) || (unit = 0x15 && cause = 2 && b24 = 0) then s.activeTag.toList
  else if (0x0D ≤ unit && unit ≤ 0x0F) || (unit = 0x15 && cause = 2) then s.standing
  else []

/-- R327: a partition that a UC touches ends here, and PART FAULT goes out on its UP tree ports. A node
in the safe or the power-fail state sends none (R100, R349). -/
def State.touch (s : State) (r : Report) (t : PTag) : State :=
  match s.part t with
  | none => s
  | some p =>
    if p.ended then s
    else
      let m : PartMsg := { s.partMsg t with t := r.stamp, aux := r.code }
      (s.sendOn p.treePorts 7 (.part .fault m)).faultPart t r.stamp r.code

-- The safe state (R335 to R339).

/-- R336: the SAFE record, once every DISCARDED and END record has been handed over. -/
def State.trySafe (s : State) : State :=
  if s.fc.safe && s.fc.safeOwed && s.eng.ends.isEmpty && s.eng.answers.isEmpty && !s.eng.quiet then
    let s := (s.modFc fun f => { f with safeOwed := false }).nextSeq
    s.event { kind := 0x42, flags := 0, ptag := 0, code := s.fc.safeFault, seq := s.fc.seq, stamp := htOf s.fc.safeAt,
              node := s.elect.node, loc := 0, detail := 0 }
  else s

/-- Ports that are not UP stop training and show DISABLED (R100, R101). -/
def State.silence (s : State) : State :=
  s.modPorts fun l => l.map fun q => if q.st == .up then q else { q.clearLink with st := .disabled }

/-- R335: the node enters the safe state. NODE_DOWN goes out on every UP port, unless LAST_GASP has its
place (R101). -/
def State.enterSafe (s : State) (code : BitVec 16) : State :=
  if s.fc.safe then s
  else
    let s := s.modFc fun f => { f with safe := true, safeAt := s.tick, safeFault := code, safeOwed := true }
    let s := (s.modPins fun p => { p with flHalt := true }).modSun fun u => { u with st := .untrusted }
    let s := s.silence
    let s := if s.pw.pfail then s else s.upPorts.foldl (fun s p => s.emit (.nodeDown p (s.nodeDownMsg 2))) s
    (s.standing.foldl (fun s t => s.endPart t s.stamp code) s).trySafe

/-- R333: a collector self-fault. Steps 3 to 5 of R325 are left out. -/
def State.selfFault (s : State) : State :=
  let code := ft 0x15 0x01
  let s := (s.odoCount fun o => { o with ft := satInc o.ft }).chargeFault code 0 0
  (s.modFc fun f => { f with self := true }).enterSafe code

-- A report (R325).

/-- The record that R210 and R213 write after the FAULT record `ev` of `r`. -/
def State.faultDetail (s : State) (r : Report) (ev : EvRec) : State :=
  match s.fc.details.find? fun d => d.1 == r.code && d.2.1 == r.ptag with
  | some d => (s.modFc fun f => { f with details := f.details.erase d }).putGroup 3 [({ ev with kind := 0x41, flags := BitVec.ofNat 8 r.partV.toNat, detail := d.2.2 } : EvRec).bits]
  | none => s

/-- R325 steps 3 to 6 for a report that is not coalesced. -/
def State.recordFault (s : State) (r : Report) (promoted : Bool) : State :=
  let cls := codeClass r.code
  let s := s.nextSeq
  let seq := s.fc.seq
  let (f, first) := s.fc.latch r seq
  let s := s.modFc fun _ => f
  let s := if first && s.bv.stopOnFault && s.bv.en then s.modBv fun b => { b with en := false, stopped := true } else s
  let s := s.driveErr
  let s := if cls == 1 then s.modFc fun f => { f with ceCnt := cpair (bump8 f.ceCnt.v (codeLevel r.code).toNat) } else s
  let s := s.odoCount fun o =>
    if cls == 1 then { o with ce := satInc o.ce } else if cls == 2 then { o with uc := satInc o.uc } else { o with ft := satInc o.ft }
  let ev : EvRec := { kind := 0x40, flags := BitVec.ofNat 8 (r.partV.toNat + 4 * first.toNat), ptag := if r.partV then r.ptag else 0, code := r.code,
                      seq := seq, stamp := r.stamp, node := s.elect.node, loc := r.loc, detail := r.detail }
  let s := (s.modFc fun f => (f.store ev.bits (cls == 1))).event ev
  let s := s.faultDetail r ev
  let s := if r.code = uc 0x09 0x05 then s.modBand fun b => { b with overrun := b.overrun.map fun o => if o.ptag = r.ptag && o.seq.isNone then { o with seq := some seq } else o } else s
  let s := s.modFc fun f => { f with
    recent := (r.code, r.loc, r.partV, r.ptag, s.tick) :: f.recent.filter fun x => tickLt s.tick (x.2.2.2.2 + 10000) }
  let s := s.chargeFault r.code r.loc r.detail
  if cls == 3 then s.enterSafe r.code
  else if cls == 2 then (s.touched r promoted).foldl (fun s t => s.touch r t) s
  else s

/-- R325 on one report. -/
def State.collect (s : State) (r0 : Report) : State :=
  let r := s.fc.classify r0
  let s := s.traced r.stamp 3 0 (leBytes 2 r.code.toNat ++ leBytes 3 r.loc.toNat ++ leBytes 2 r.ptag.toNat ++ flagByte [r.partV])
  let s :=
    if s.fc.coalesces r s.tick then
      let s := s.modFc fun f => { f with
        ovf := cpair (if (f.ovf.v.extractLsb' 16 16 : BitVec 16) = 0xFFFF then f.ovf.v else f.ovf.v + 0x10000)
        details := f.details.filter fun d => !(d.1 == r.code && d.2.1 == r.ptag) }
      if r.code = uc 0x09 0x05 then s.modBand fun b => { b with overrun := b.overrun.filter fun o => !(o.ptag == r.ptag && o.seq.isNone) } else s
    else s.recordFault r (codeClass r0.code == 1)
  s.flushEnds.trySafe

/-- FAULT_REPORT (R325 to R327). -/
def execFaultReport (src : ReportSrc) (s : State) : Result :=
  whenAlive s fun s =>
    match src with
    | .unit r => s.collect r
    | .waiting =>
      match s.fc.inbox with
      | [] => s
      | r :: rest => (s.modFc fun f => { f with inbox := rest }).collect r

/-- COLLECTOR_SELF_FAULT (R333). -/
def execCollectorSelfFault (s : State) : Result := whenAlive s State.selfFault

/-- SUNDIAL_CHECK (R339). -/
def execSundialCheck (s : State) : Result := whenAlive s fun s => s.raiseNow (ft 0x01 0x03)

/-- A control core runs: its firmware is RUNNING, it has a segment, and it is not halted (R337, R390, R416). -/
def State.coreRuns (s : State) (core : Bool) : Bool :=
  s.pdOn 3 && s.fw.st == .running && !s.fc.safe && !(if core then s.fw.idle1 || s.tst.halt1 else s.fw.idle0 || s.tst.halt0)

/-- CONTROL_CORE_WATCHDOG (R339): a core that runs has let 10 ms pass without a refresh. -/
def execControlCoreWatchdog (core : Bool) (s : State) : Result :=
  whenAlive s fun s => if s.coreRuns core then s.raiseNow (ft 0x13 0x01) 0 none (detail [(24, 1, core.toNat)]) else s

/-- ISLAND_WIRE_FAULT (R324): one episode at island 0 Sundial, 1 control, 2 ring, 3 + p link port p. -/
def execIslandWireFault (island : Byte) (s : State) : Result :=
  if island.toNat < 3 + s.ports.length then
    whenAlive s fun s => s.raiseNow (uc 0x15 0x02) 0 (soleTag s.standing) (detail [(24, 1, 1), (25, 1, island.toNat)])
  else .fault .absentUnit

/-- Records of the engine that are still to be written or answered. -/
def Engine.busy (e : Engine) : Bool :=
  !e.reqs.isEmpty || !e.ends.isEmpty || !e.answers.isEmpty || !e.areaQ.isEmpty || e.rings.any fun r => !r.held.isEmpty

/-- The engine writes no more record; what waits is lost (R336, R350). -/
def State.hush (s : State) : State := s.modEng fun e => { e with quiet := true, ends := [], answers := [], areaQ := [], rings := e.rings.map fun r => { r with held := [] } }

/-- SAFE_DRAIN_END (R336): 100 µs after entry, or once everything has been written. -/
def execSafeDrainEnd (s : State) : Result :=
  whenAlive s fun s =>
    if s.fc.safe && !s.eng.quiet && (s.isDue (s.fc.safeAt + 100000) || (!s.fc.safeOwed && !s.eng.busy)) then s.hush else s

-- The Fault collector page (R325, R337, R340, R341).

/-- A register write that the safe state accepts: FC_CLR and FC_HIST_SEL (R337). -/
def onSafeReg (s : State) (f : State → State) : Result :=
  .next (if s.pins.powered && s.pins.hmRunning then (if s.alive && s.xoOk then f s else s.rpErr) else s)

/-- FC_CLR (R325). -/
def State.writeFcClr (s : State) (w : Word) : State :=
  let held : BitVec 16 := s.fc.first.v.extractLsb' 16 16
  (if w.extractLsb' 0 16 == held then
    (s.modFc fun f => { f with first := cpair (setBit f.first.v 56 false), ovf := cpair (f.ovf.v &&& 0xFFFF0000) }).driveErr
  else s).rpOk

/-- FC_CLR (R325). -/
def execFcClr (w : Word) (s : State) : Result := onSafeReg s fun s => s.writeFcClr w

/-- FC_SAFE.FORCE (R335). -/
def State.writeFcSafe (s : State) (w : Word) : State := (if w.getLsbD 2 then s.raiseNow (ft 0x15 0x03) else s).rpOk

/-- FORCE (R335, R339). -/
def execForce (s : State) : Result := onReg 0 s fun s => s.writeFcSafe 4

/-- The LOC of FC_INJ_LOC as an address. -/
def locAddr (l : BitVec 24) : CellAddr := { region := l.extractLsb' 0 7, block := l.extractLsb' 7 6, cell := l.extractLsb' 13 6 }

/-- R340: one injection. DETAIL of an injected fault is nowhere given. -/
def State.inject1 (s : State) (code : BitVec 16) (mode : Nat) (count : Byte) : State :=
  let loc := s.fc.injLoc
  let a := locAddr loc
  let level := codeLevel code
  let up : Level := level + 1
  let free : BitVec 64 := Config.anyWord s.freeIx ++ Config.anyWord (s.freeIx + 1)
  let p : PortNo := loc.extractLsb' 0 6
  if mode = 0 then
    s.drew.drew.raise { code := code, loc := loc, partV := s.fc.injPartV, ptag := s.fc.injPtag, stamp := s.stamp, detail := free }
  else if mode = 1 then (if s.isLeaf && s.hasUnit level a then s.drew.drew.unitFault level a code free else s)
  else if mode = 2 then s.modPort p fun q => { q with crcInject := count }
  else if mode = 3 then
    (if s.isLeaf && level != 3 && s.hasUnit level a then
      s.unitFault up a (faultCode 2 up.toNat 0x15 2) (detail [(24, 1, 0),
        (25, 1, if level = 0 then a.cell.toNat else if level = 1 then a.block.toNat else a.region.toNat)])
    else s)
  else if mode = 4 then s.selfFault
  else s

/-- FC_INJ (R340, R341, R408): FACTORY only. -/
def State.writeFcInj (s : State) (w : Word) : State :=
  if s.gate.life != .factory then s.rpErr
  else
    let code : BitVec 16 := w.extractLsb' 0 16
    let mode : BitVec 3 := w.extractLsb' 16 3
    let count : Byte := w.extractLsb' 20 8
    let go := w.getLsbD 31 && mode.toNat ≤ 4
    let s := s.modFc fun f => { f with injCode := code, injMode := mode, injCount := count, injDone := if go then satInc f.injDone else f.injDone }
    (if go then s.inject1 code mode.toNat count else s).rpOk

/-- FC_INJ with GO and MODE `m`. -/
def injWord (w : Word) (m : Nat) : Word := (w &&& ~~~(0x00070000 : Word)) ||| BitVec.ofNat 32 (m * 2 ^ 16) ||| 0x80000000

/-- FC_INJ_REPORT (R340, mode 0). -/
def execFcInjReport (w : Word) (s : State) : Result := onReg 0 s fun s => s.writeFcInj (injWord w 0)

/-- FC_INJ_UNIT (R340, mode 1). -/
def execFcInjUnit (w : Word) (s : State) : Result := onReg 0 s fun s => s.writeFcInj (injWord w 1)

/-- FC_INJ_CRC (R340, mode 2). -/
def execFcInjCrc (w : Word) (s : State) : Result := onReg 0 s fun s => s.writeFcInj (injWord w 2)

/-- FC_INJ_WIRE (R340, mode 3). -/
def execFcInjWire (w : Word) (s : State) : Result := onReg 0 s fun s => s.writeFcInj (injWord w 3)

/-- FC_INJ_SELF (R340, mode 4). -/
def execFcInjSelf (w : Word) (s : State) : Result := onReg 0 s fun s => s.writeFcInj (injWord w 4)

end Sys2Proof.Machine
end

