-- ==== Sys2Proof/Machine/Firmware.lean ====
section
/-!
DEFINITION. The firmware image and its load (15, R390 to R394), the calibration of the time-to-digital
converters (R395), and what BU_STAT shows (R399).
-/

namespace Sys2Proof.Machine

-- The image (R390).

/-- What a core has read of the image, and one block of it. -/
def Firmware.part (f : Firmware) (core : Bool) : List (Nat × BitVec 512) := if core then f.blocks1 else f.blocks
def Firmware.block (f : Firmware) (core : Bool) (ofs : Nat) : BitVec 512 := assocGet ofs 0 (f.part core)

/-- LEN0, LEN1, ENTRY0 and ENTRY1 of the header that a core has read. -/
def Firmware.len0 (f : Firmware) (core : Bool) : Nat := (field (f.block core 0) 12 32 : BitVec 32).toNat
def Firmware.len1 (f : Firmware) (core : Bool) : Nat := (field (f.block core 0) 16 32 : BitVec 32).toNat
def Firmware.entry0 (f : Firmware) (core : Bool) : Nat := (field (f.block core 0) 20 32 : BitVec 32).toNat
def Firmware.entry1 (f : Firmware) (core : Bool) : Nat := (field (f.block core 0) 24 32 : BitVec 32).toNat

/-- Offset and bytes of a core's own segment. -/
def Firmware.segStart (f : Firmware) (core : Bool) : Nat := if core then 128 + f.len0 true else 128
def Firmware.segLen (f : Firmware) (core : Bool) : Nat := if core then f.len1 true else f.len0 false

/-- FW_REV of the header. -/
def Firmware.hdrRev (f : Firmware) : BitVec 16 := field (f.block false 0) 8 16

/-- Limits of the two segments in bytes (R390). -/
def Profile.segLimits : Profile → Nat × Nat
  | .leaf => (160 * 1024, 128 * 1024)
  | .hub => (2048 * 1024, 2560 * 1024)

/-- Bytes of a bank, and the first bank of CORE0 and of CORE1 (R352, R355, R390). -/
def Profile.bankBytes : Profile → Nat
  | .leaf => 65536
  | .hub => 524288
def Profile.coreBanks : Profile → Nat × Nat
  | .leaf => (11, 14)
  | .hub => (21, 26)

/-- Domain of a bank (R342). -/
def bankDom (b : Nat) : Nat := 9 + b / 4

/-- Does a core that is to run have its entry inside its segment? -/
def entryOk (len entry : Nat) : Bool := len = 0 || entry < len

/-- CAUSE of a core's header checks, 0 when they pass (R391). -/
def State.headerCause (s : State) (core : Bool) : Nat :=
  let f := s.fw
  let h := f.block core 0
  let lim := s.profile.segLimits
  if (field h 0 32 : BitVec 32) != 0x57465947 then 1
  else if (field h 6 16 : BitVec 16) != gyVersion.extractLsb' 16 16 then 2
  else if !h.getLsbD (if s.isLeaf then 80 else 81) then 3
  else if f.len.toNat != 128 + f.len0 core + f.len1 core || f.len0 core % 64 != 0 || f.len1 core % 64 != 0 ||
      f.len0 core > lim.1 || f.len1 core > lim.2 || !entryOk (f.len0 core) (f.entry0 core) || !entryOk (f.len1 core) (f.entry1 core) then 4
  else 0

/-- The first bank of a core's segment. -/
def State.segBank (s : State) (core : Bool) : Nat := if core then s.profile.coreBanks.2 else s.profile.coreBanks.1

/-- Where the byte at offset `ofs` of the image goes: a core's segment fills its banks in order. -/
def State.imageByte (s : State) (core : Bool) (ofs : Nat) : Nat :=
  let o := ofs - s.fw.segStart core
  (s.segBank core + o / s.profile.bankBytes) * 2 ^ 19 + o % s.profile.bankBytes

/-- A core writes the 64 bytes of its segment at `ofs` into its banks (R353, R391). A bank whose owner has changed since LOAD
takes nothing, and "bank access by non-owner" is raised: log entry 41. -/
def State.imageWrite (s : State) (core : Bool) (ofs : Nat) (data : BitVec 512) : State :=
  let b := s.imageByte core ofs / 2 ^ 19
  let writer : BitVec 4 := if core then 2 else 1
  let own := s.pw.owners.getD b 0
  if own == writer then
    (List.range 64).foldl (fun s k => s.modPw fun p => p.write (s.imageByte core (ofs + k)) (data.extractLsb' (8 * k) 8)) s
  else s.raiseNow (uc 0x0F 0x01) 0 none (detail [(24, 1, b), (25, 1, own.toNat), (26, 1, writer.toNat)])

-- The load (R391 to R393).

/-- Image reads under way. -/
def Engine.imageReads (e : Engine) : Nat := (e.reqs.filter fun r => match r.kind with | .image _ _ => true | _ => false).length

/-- The image reads that are under way stop: those held go, and the responses still owed are discarded. -/
def State.dropImageReads (s : State) : State :=
  let isImage (r : HmReq) : Bool := match r.kind with | .image _ _ => true | _ => false
  s.modEng fun e => { e with
    hm := e.hm.filter fun x => !isImage x.2.1
    hmQ := e.hmQ.filter fun r => !isImage r
    dead := e.dead ++ (e.hm.filter fun x => isImage x.2.1).map (·.1) }

/-- Both blocks of the header have reached a core. -/
def Firmware.headerIn (f : Firmware) (core : Bool) : Bool := (f.part core).any (fun b => b.1 = 0) && (f.part core).any fun b => b.1 = 64

/-- The offset that a core reads next: the header, and its own segment once the header has passed. -/
def Firmware.nextRead (f : Firmware) (core : Bool) : Option Nat :=
  let asked := if core then f.asked1 else f.asked
  if asked < 128 then some asked
  else if !f.headerIn core then none
  else
    let ofs := max asked (f.segStart core)
    if ofs < f.segStart core + f.segLen core then some ofs else none

/-- One 64-byte read of a core goes out, with at most 64 outstanding. -/
def State.imageAsk (s : State) (core : Bool) : State :=
  if s.fw.st == .loading && s.eng.imageReads < 64 then
    (s.fw.nextRead core).elim s fun ofs =>
      (s.modFw fun f => if core then { f with asked1 := ofs + 64 } else { f with asked := ofs + 64 }).hmIssue
        { kind := .image core ofs, write := false, addr := s.fw.base + BitVec.ofNat 64 ofs, beats := 4 }
  else s

/-- Both cores go on reading. -/
def State.imageFetch (s : State) : Nat → State
  | 0 => s
  | k + 1 => ((s.imageAsk false).imageAsk true).imageFetch k

/-- R391: the load fails. Zero is written over every byte that was written to the core banks. -/
def State.fwFail (s : State) (cause : BitVec 4) : State :=
  let wipe (s : State) (core : Bool) : State := ((s.fw.part core).filter fun b => b.1 ≥ 128).foldl (fun s b => s.imageWrite core b.1 0) s
  let s := wipe (wipe s false) true
  (s.modFw fun f => { f with st := .failed, cause := cause, rev := 0, blocks := [], blocks1 := [], asked := 0, asked1 := 0 }).dropImageReads

/-- "firmware image invalid" (R394). -/
def State.fwInvalid (s : State) (cause : Nat) : State :=
  (s.fwFail (BitVec.ofNat 4 cause)).raiseNow (uc 0x13 0x02) 0 none (detail [(24, 1, cause)])

/-- "firmware read error" (R394): 1 hm_rsp_err, 2 timeout. -/
def State.fwReadError (s : State) (why ofs : Nat) : State :=
  if s.fw.st == .loading then (s.fwFail 5).raiseNow (uc 0x13 0x04) 0 none (detail [(24, 1, why), (28, 4, ofs)]) else s

/-- A core holds the header and its whole segment. -/
def Firmware.allIn (f : Firmware) (core : Bool) : Bool := f.headerIn core && 64 * (f.part core).length = 128 + f.segLen core

/-- A 64-byte read of the image is answered (R391). Each core checks the header before it reads its segment. -/
def State.imageRead (s : State) (core : Bool) (ofs : Nat) (data : BitVec 512) : State :=
  if s.fw.st != .loading then s
  else
    let s := s.modFw fun f => if core then { f with blocks1 := assocSet ofs data f.blocks1 } else { f with blocks := assocSet ofs data f.blocks }
    let s := if ofs ≥ 128 then s.imageWrite core ofs data else s
    let cause := if ofs < 128 && s.fw.headerIn core then s.headerCause core else 0
    if cause != 0 then s.fwInvalid cause
    else if s.fw.allIn false && s.fw.allIn true then s.modFw fun f => { f with st := .verifying }
    else s.imageFetch 64

/-- R391: banks and owners as the load needs them. -/
def State.loadAllowed (s : State) : Bool :=
  let banks : List (Nat × BitVec 4) := match s.profile with
    | .leaf => [(11, 1), (12, 1), (13, 1), (14, 2), (15, 2)]
    | .hub => [(21, 1), (22, 1), (23, 1), (24, 1), (25, 1), (26, 2), (27, 2), (28, 2), (29, 2), (30, 2)]
  (s.fw.st == .none || s.fw.st == .failed) && s.pdOn 3 && s.pdOn 4 &&
    banks.all fun x => s.pdOn (bankDom x.1) && s.pw.owners.getD x.1 0 == x.2

/-- FW_STAT with LOAD 1. In the power-fail state the load fails at once (R391, cause 7). -/
def State.startLoad (s : State) : State :=
  if !s.loadAllowed then s.rpErr
  else
    let s := s.modFw fun f => { f with st := .loading, cause := 0, rev := 0, blocks := [], blocks1 := [], asked := 0, asked1 := 0 }
    (if s.pw.pfail then s.fwFail 7 else s.imageFetch 2).rpOk

/-- FW_STAT (R403). -/
def State.writeFwStat (s : State) (w : Word) : State := if w.getLsbD 0 then s.startLoad else s.rpOk

/-- LOAD (R391). -/
def execLoad (s : State) : Result := onReg 0 s State.startLoad

/-- FW_BASE_LO, FW_BASE_HI, FW_LEN (R393, R403). -/
def State.writeFw (s : State) (f : Firmware → Firmware) : State :=
  if s.fw.st == .loading || s.fw.st == .verifying then s.rpErr else (s.modFw f).rpOk

/-- The bytes the hash covers, in order: header 0 to 63, segment 0, segment 1 (R391). -/
def Firmware.hashed (f : Firmware) : List Byte :=
  let seg (l : List (Nat × BitVec 512)) : List Byte :=
    (sortBy (fun a b => decide (a.1 ≤ b.1)) (l.filter fun b => b.1 ≥ 128)).flatMap fun b => bytesOf 64 b.2.toNat
  bytesOf 64 (f.block false 0).toNat ++ seg f.blocks ++ seg f.blocks1

/-- The signature verifies (R392). -/
def Firmware.signed (f : Firmware) : Bool :=
  Config.fwSignatureOk (BitVec.ofNat 256 (ofBytes (sha256 f.hashed))) (field (f.block false 64) 0 256) (field (f.block false 64) 32 256)

/-- FW_VERIFY_DONE (R391, R392). -/
def execFwVerifyDone (s : State) : Result :=
  whenAlive s fun s =>
    if s.fw.st != .verifying then s
    else if s.fw.signed then
      s.modFw fun f => { f with st := .running, rev := f.hdrRev, idle0 := f.len0 false = 0, idle1 := f.len1 false = 0, asked := 0, asked1 := 0, blocks := [], blocks1 := [] }
    else
      (s.fwFail 6).raiseNow (uc 0x13 0x03) 0 none (detail [(24, 2, s.fw.hdrRev.toNat)])

/-- The control cores hold their reset state: no image (R393). -/
def State.fwReset (s : State) : State :=
  (s.modFw fun f => { f with st := .none, cause := 0, rev := 0, blocks := [], blocks1 := [], asked := 0, asked1 := 0, idle0 := false, idle1 := false }).dropImageReads

-- Converters (R395).

/-- Is `n` a converter of the block: 0 to 7 a capture input, 8 + p a port, 0xFF the Trellis root? -/
def State.hasTdc (s : State) (n : Byte) : Bool := n.toNat < 8 + s.ports.length || (n = 0xFF && s.isLeaf)

/-- A calibration ends. New tables are drawn, whose bins the manual leaves to the hardware. -/
def State.calibrated (s : State) (failed : Option Byte) : State :=
  let s := (s.modFw fun f => { f with calibrating := false, tdcOk := failed.isNone, tdcDraw := s.freeIx, tdcAt := s.tick, tdcFailed := failed }).drew
  match failed with
  | some n => s.raiseNow (uc 0x13 0x05) 0 none (detail [(24, 1, n.toNat)])
  | none => s

/-- TDC_CALIBRATION_DONE (R395): after PD2 has woken. -/
def execTdcCalibrationDone (failed : Option Byte) (s : State) : Result :=
  if failed.elim true s.hasTdc then whenAlive s fun s => if s.pdOn 2 && s.fw.calibrating then s.calibrated failed else s
  else .fault .absentUnit

/-- TDC_RECAL (R395): every 10 s while PD2 stays on. TDC_OK of a failed calibration stays 0 until PD2 wakes
again. -/
def execTdcRecal (failed : Option Byte) (s : State) : Result :=
  if failed.elim true s.hasTdc then
    whenAlive s fun s =>
      if s.pdOn 2 && !s.fw.calibrating && s.isDue (s.fw.tdcAt + 10000000000) then
        let ok := s.fw.tdcOk
        (s.calibrated failed).modFw fun f => { f with tdcOk := ok && f.tdcOk }
      else s
  else .fault .absentUnit

/-- BIN_MIN, BIN_MAX and PASS of a converter's current table, made to agree with the verdict of the latest
calibration: it names the first converter that failed, so that those before it passed and of those after
it nothing is known (R395, R416). -/
def Firmware.tdcStat (f : Firmware) (n : Byte) : BitVec 17 :=
  if f.calibrating then 0 else
  let raw := Config.tdcBins n f.tdcDraw
  let lo : Nat := (raw.extractLsb' 0 8).toNat
  let hi : Nat := (raw.extractLsb' 8 8).toNat
  let pack (lo hi : Nat) : BitVec 17 := bit (decide (16 ≤ lo) && decide (hi ≤ 128)) ++ BitVec.ofNat 8 hi ++ BitVec.ofNat 8 lo
  let inside := let a := max 16 (min lo 128); pack a (max a (min hi 128))
  match f.tdcFailed with
  | none => inside
  | some k =>
    if n.toNat < k.toNat then inside
    else if n = k then (if raw.getLsbD 0 then pack (min lo 15) (max hi (min lo 15)) else pack (min lo hi) (max hi 129))
    else pack (min lo hi) (max lo hi)

-- BU_STAT (R399, R403).

/-- TIME_OK. -/
def State.timeOk (s : State) : Bool := s.sun.st == .locked || (s.sun.isRoot && s.sun.st != .untrusted)

/-- SEATED: 1 on a Hub. -/
def State.seatedOk (s : State) : Bool := !s.isLeaf || (s.pdOn 7 && s.tr.seat == .seated)

/-- JOINED. -/
def State.joined (s : State) : Bool :=
  s.fw.st == .running && s.timeOk && s.elect.node != noNode && s.lg.ready && s.seatedOk

/-- FW_STAT.STATE. -/
def FwSt.code : FwSt → BitVec 3
  | .none => 0 | .loading => 1 | .verifying => 2 | .running => 3 | .failed => 4

/-- FW_STAT. -/
def Firmware.stat (f : Firmware) : Word := f.rev ++ (0 : BitVec 8) ++ f.cause ++ f.st.code ++ (0 : BitVec 1)

/-- BU_STAT. -/
def State.buStat (s : State) : Word :=
  (0 : BitVec 4) ++ s.elect.node ++ (0 : BitVec 1) ++ bit s.joined ++ bit s.lg.ready ++ bit s.seatedOk ++
    bit (s.elect.node != noNode) ++ bit s.timeOk ++ bit (s.fw.st == .running) ++ bit s.fw.tdcOk

end Sys2Proof.Machine
end

