-- ==== Sys2Proof/Machine/Power.lean ====
section
/-!
DEFINITION. Power domains and their handshake, power failure and the owners of the banks (02, R57 to R60;
13, R342 to R356).
-/

namespace Sys2Proof.Machine

-- What a domain holds (R342, R345, R346).

/-- Apply `f` to domain `d`. -/
def State.modDom (s : State) (d : Nat) (f : Domain → Domain) : State :=
  s.modPw fun p => { p with doms := p.doms.modify d f }

/-- Banks of a bank-group domain (R342). -/
def State.domBanks (s : State) (d : Nat) : List Nat :=
  if 9 ≤ d && d < 9 + s.profile.banks / 4 then (List.range 4).map fun k => 4 * (d - 9) + k else []

/-- Ports whose lanes lie in a domain (R40, R342). -/
def State.domPorts (s : State) (d : Nat) : List PortNo := s.portNos.filter fun p => laneDom s.profile p.toNat = d

/-- Domains that hold no function (R342). -/
def State.emptyDom (s : State) (d : Nat) : Bool := !s.isLeaf && (d = 5 || d = 7)

/-- The Orangery returns to its reset state; the Sundial has no source. -/
def State.orgOff (s : State) : State :=
  let s := if s.sun.st == .locked then s.enterHoldover else s
  s.modOrg fun o => { ins := List.replicate 4 {}, prio := s.profile.prio, osc := o.osc, rate := o.rate, everLocked := o.everLocked }

/-- The health unit returns to its reset state; HARD comes from the ledger and stays (R382). -/
def State.healthOff (s : State) : State :=
  s.modHs fun h => { scores := (h.scores.filter fun x => x.2.hard).map fun x => (x.1, { hard := true }), window := s.tick }

/-- The ring engine returns to its reset state. Responses still owed are discarded (R49, R51). -/
def State.engineOff (s : State) : State :=
  let s := s.fwReadError 1 s.fw.asked
  s.modEng fun e => { rings := resetRings, dead := e.dead ++ e.hm.map (·.1), takenNum := e.takenNum, quiet := e.quiet }

/-- The sync engine returns to its reset state. -/
def State.syncOff (s : State) : State := ((s.modCtx0 fun _ => {}).modCtx1 fun _ => {}).modSync fun _ => {}

/-- The barrier slots return to their reset state. -/
def State.combineOff (s : State) : State :=
  s.modFab fun f => { f with parts := f.parts.map fun p => { p with slots := p.slots.map fun b => { bid := b.bid } } }

/-- The Bandstand returns to its reset state; the registers of the Power page are in PD0 and stay. Its
outputs go low (R40, R343). -/
def State.bandOff (s : State) : State :=
  let s := s.modBand fun b => {
    schedA := List.replicate 16 {}, schedS := List.replicate 16 {}, opened := List.replicate 16 0, force := b.force,
    forceLevel := b.forceLevel, lendEn := b.lendEn, lendIdle := b.lendIdle, lendMin := b.lendMin, lendGuard := b.lendGuard,
    lendEpisodes := b.lendEpisodes, lendShort := b.lendShort, seq := b.seq }
  (s.modTr fun r => { hcc := r.hcc, actIx := r.actIx }).modPins fun p => { p with mcWin := 0, loadTarget := 0, lend := false }

/-- Belvedere returns to its reset state. A dump being written ends there. -/
def State.belvedereOff (s : State) : State :=
  let s := s.modBv fun _ => {}
  let s := s.modEng fun e => { e with dumpQ := [] }
  let s := (s.endDump stIncomplete).modCtx0 fun c => { c with dumpBusy := false }
  s.modCtx1 fun c => { c with dumpBusy := false }

/-- Every function in domain `d` goes to its reset state. A lost lane domain disables its ports without
NODE_DOWN (R345). -/
def State.domOff (s : State) (d : Nat) : State :=
  match d with
  | 1 => s.orgOff
  | 2 => ((s.modCap fun _ => List.replicate 8 {}).modFw fun f => { f with tdcOk := false, calibrating := false }).modTst fun x => { x with tdc := 0 }
  | 3 => s.fwReset.healthOff.modTst fun x => { x with halt0 := false, halt1 := false, pc0 := 0, pc1 := 0 }
  | 4 => s.engineOff
  | 5 => s.syncOff
  | 6 => s.combineOff
  | 7 => s.bandOff
  | 8 => s.belvedereOff
  | _ => (s.domPorts d).foldl (fun s p => (s.portExit p).modPort p fun q => { q.clearPartner with st := .disabled }) s

-- The handshake (R60, R344, R345).

/-- req rises. -/
def State.startWake (s : State) (d : Nat) : State :=
  s.modDom d fun x => { x with st := .waking, req := true, since := some s.tick }

/-- The domain is isolated and req falls. -/
def State.startShut (s : State) (d : Nat) : State :=
  (s.domOff d).modDom d fun x => { x with st := .shutting, req := false, since := some s.tick }

/-- The wake is complete: ON. PD2's converters calibrate (R395). If EN fell meanwhile, the shut-down starts on the next tick (R344). -/
def State.domOn (s : State) (d : Nat) : State :=
  let s := s.modDom d fun x => { x with st := .on, clearing := false, wakes := satInc x.wakes }
  let s := if d = 2 then s.modFw fun f => { f with calibrating := true, tdcAt := s.tick } else s
  s.driveWin

/-- R344: a domain that has come ON with EN 0 shuts down, STATE having shown ON. -/
def State.settleDoms (s : State) : State :=
  (List.range s.profile.domains).foldl (fun s d => if 0 < d && (s.dom d).st == .on && !(s.dom d).en then s.startShut d else s) s

/-- ack has fallen: OFF, and at once WAKING if EN is 1. -/
def State.domIsOff (s : State) (d : Nat) : State :=
  let s := s.modDom d fun x => { x with st := .off }
  if (s.dom d).en then s.startWake d else s

/-- R345: the domain fails. EN and req clear; STATE is OFF once ack is low. -/
def State.domFail (s : State) (d cause : Nat) : State :=
  let s := (s.domOff d).modDom d fun x => { x with
    en := false, req := false, clearing := false, since := none, st := if x.ack then .shutting else .off,
    errTimeout := x.errTimeout || cause = 1, errLost := x.errLost || cause = 2 }
  s.raiseNow (uc 0x0E (BitVec.ofNat 6 cause).toNat) 0 (soleTag s.standing) (detail [(24, 1, d)])

/-- A command about domain `d` of the block; PD0 has no handshake (R60). -/
def onDom (d : Nat) (s : State) (f : State → State) : Result :=
  if 0 < d && d < s.profile.domains then whenAlive s f else .fault .absentUnit

/-- The same while the block is in reset. -/
def onDomPin (d : Nat) (s : State) (f : State → State) : Result :=
  if 0 < d && d < s.profile.domains then .next (if s.pins.powered then f s else s) else .fault .absentUnit

/-- ack is high while req is low: the domain is SHUTTING until it falls (R60, R345). -/
def Domain.lateAck (x : Domain) : Domain := { x with ack := true, st := if x.st = .off then .shutting else x.st }

/-- PW_PD_ACK_RISE (R60, R344 to R346). An ack that rises while req is low, late or in reset, holds the next wake back. -/
def execPwPdAckRise (d : BitVec 6) (s : State) : Result :=
  if !s.alive then onDomPin d.toNat s fun s => s.modDom d.toNat Domain.lateAck
  else
    onDom d.toNat s fun s =>
      let x := s.dom d.toNat
      if x.ack then s
      else if !x.req then s.modDom d.toNat Domain.lateAck
      else
        let s := s.modDom d.toNat fun x => { x with ack := true, since := none }
        if x.st != .waking then s
        else if (s.domBanks d.toNat).isEmpty then s.domOn d.toNat
        else s.modDom d.toNat fun x => { x with clearing := true }

/-- PW_PD_ACK_FALL (R60, R344, R345). In reset, where req is low, the surroundings complete the fall. -/
def execPwPdAckFall (d : BitVec 6) (s : State) : Result :=
  if !s.alive then
    onDomPin d.toNat s fun s => s.modDom d.toNat fun x => { x with ack := false, st := if x.st = .shutting then .off else x.st }
  else
    onDom d.toNat s fun s =>
      let x := s.dom d.toNat
      if !x.ack then s
      else
        let s := s.modDom d.toNat fun x => { x with ack := false }
        if x.req then s.domFail d.toNat 2
        else if x.st == .shutting then (s.modDom d.toNat fun x => { x with since := none }).domIsOff d.toNat
        else s

/-- POWER_DOMAIN_TIMEOUT (R60, R345): ack has not followed req within 1 ms: more than 1 ms has passed. -/
def execPowerDomainTimeout (d : BitVec 6) (s : State) : Result :=
  onDom d.toNat s fun s =>
    if (s.dom d.toNat).since.elim false fun t => s.isDue (t + 1000001) then s.domFail d.toNat 1 else s

/-- BANK_CLEAR_DONE (R346). -/
def execBankClearDone (d : BitVec 6) (s : State) : Result :=
  onDom d.toNat s fun s =>
    let x := s.dom d.toNat
    if x.st == .waking && x.clearing then
      ((s.domBanks d.toNat).foldl (fun s k => s.modPw fun p => p.clearBank k) s).domOn d.toNat
    else s

-- PD_CTL and PD_STAT (R342, R356, R393).

/-- A port of the node is not DISABLED. -/
def State.portsActive (s : State) : Bool := s.ports.any fun q => q.st != .disabled

/-- A context slot is not FREE. -/
def State.ctxHeld (s : State) : Bool := s.ctx0.st != .free || s.ctx1.st != .free

/-- A partition entry is not FREE. -/
def State.partHeld (s : State) : Bool := s.fab.parts.any fun p => p.st != .free

/-- The image is being loaded or verified (R393). -/
def State.loading (s : State) : Bool := s.fw.st == .loading || s.fw.st == .verifying

/-- "Requires on" of R342. A Hub has no PD5: its PD6 needs PD4, as PD5 would. DEDUCED, log entry 16. -/
def State.domNeeds (s : State) (d : Nat) : List Nat :=
  if d = 5 || d = 8 then [4] else if d = 6 then (if s.isLeaf then [5] else [4])
  else if (s.domPorts d).isEmpty then [1] else [2, 3]

/-- "Off refused while" of R342. -/
def State.domHeld (s : State) (d : Nat) : Bool :=
  if d = 2 then s.portsActive || s.tr.en || s.cap.any (·.en)
  else if d = 3 then s.portsActive || s.loading
  else if d = 4 then s.eng.rings.any (·.en) || s.loading
  else if d = 5 || d = 7 then s.ctxHeld
  else if d = 6 then (if s.isLeaf then s.ctxHeld else s.partHeld)
  else if d = 8 then s.eng.dump.isSome
  else (s.domBanks d).any (fun b => s.pw.owners.getD b 0 != 0) || (s.domPorts d).any fun p => (s.port p).en

/-- PD_CTL[d].EN (R342, R344). -/
def State.writePdEn (s : State) (d : Nat) (en : Bool) : State :=
  let x := s.dom d
  if d ≥ s.profile.domains then s.rpErr
  else if d ≤ 1 || s.emptyDom d || x.en == en then s.rpOk
  else if (if en then !((s.domNeeds d).all s.pdOn) else s.domHeld d) then s.rpErr
  else
    let s := s.modDom d fun x => { x with en := en }
    (if en && x.st == .off then s.startWake d else if !en && x.st == .on then s.startShut d else s).rpOk

/-- PD_EN_WRITE (R342, R344). -/
def execPdEnWrite (d : BitVec 6) (en : Bool) (s : State) : Result := onReg 0 s fun s => s.writePdEn d.toNat en

/-- PD_STAT[d]: ERR_TIMEOUT and ERR_LOST are cleared by a 1 (R356). -/
def State.writePdStat (s : State) (d : Nat) (w : Word) : State :=
  if d ≥ s.profile.domains then s.rpErr
  else (s.modDom d fun x => { x with errTimeout := x.errTimeout && !w.getLsbD 4, errLost := x.errLost && !w.getLsbD 5 }).rpOk

/-- PD_STAT.STATE. -/
def DomSt.code : DomSt → BitVec 2
  | .off => 0 | .waking => 1 | .on => 2 | .shutting => 3

/-- PD_STAT[d]. PEND is a latched opposite request; shedding clears it (R344). -/
def State.pdStat (s : State) (d : Nat) : Word :=
  let x := s.dom d
  let pend := !(s.pw.drained && s.pw.shed) && ((x.st == .waking && !x.en) || (x.st == .shutting && x.en))
  x.wakes ++ (0 : BitVec 10) ++ bit x.errLost ++ bit x.errTimeout ++ bit x.clearing ++ bit pend ++ x.st.code

-- Power failure (R57, R349, R350).

/-- F in ns (R57). -/
def Power.filterNs (p : Power) : Nat := 8 * (p.filt.toNat + 1)

/-- PFAIL_FIRST_HIGH (R57): a run of high samples begins, at the earliest on the Sundial's first tick. -/
def execPfailFirstHigh (s : State) : Result :=
  whenAlive s fun s =>
    if !s.sun.counting then s
    else s.modPins fun p => { p with pfail := true, pfailRun := some (p.pfailRun.getD s.tick) }

/-- PW_PFAIL_LOW_SAMPLE (R57): a low sample ends the run. The power-fail state stays (R349). -/
def execPwPfailLowSample (s : State) : Result := whenAlive s fun s => s.modPins fun p => { p with pfail := false, pfailRun := none }

/-- R349: the node enters the power-fail state; `t0` is the first high sample. LAST_GASP goes out on every
UP port that speaks a revision which has it (R101). -/
def State.enterPfail (s : State) (t0 : Tick) : State :=
  let s := s.grottoPfail
  let s := s.modPw fun p => { p with pfail := true, pfailT := htOf t0, pfailAt := s.tick }
  let s := s.raise { code := uc 0x0E 0x03, loc := 0, partV := (soleTag s.standing).isSome, ptag := (soleTag s.standing).getD 0, stamp := htOf t0, detail := 0 }
  let s := ((s.lendFall false).driveWin).silence
  let s := (s.upPorts.filter fun p => (s.port p).rev != 4).foldl (fun s p => s.emit (.lastGasp p s.lastGaspMsg)) s
  (if s.loading then s.fwFail 7 else s).startJob

/-- PFAIL_ASSERT (R57, R349): tick t0 + F. -/
def execPfailAssert (s : State) : Result :=
  whenAlive s fun s =>
    match s.pins.pfailRun with
    | some t0 => if !s.pw.pfail && s.isDue (t0 + BitVec.ofNat 64 s.pw.filterNs) then s.enterPfail t0 else s
    | none => s

/-- R350: req falls for shedding, without the refusals of R342. -/
def State.shedOne (s : State) (d : Nat) : State :=
  let st := (s.dom d).st
  let s := s.modDom d fun x => { x with en := false }
  if st == .on then s.startShut d else s

/-- The domains that are shed (R350). -/
def State.shedList (s : State) : List Nat :=
  let core := if s.isLeaf then (List.range 11).map (· + 2) else (List.range 15).map (· + 2)
  core ++ (List.range s.profile.domains).filter fun d =>
    !(s.domPorts d).isEmpty && (s.domPorts d).all fun p => (s.port p).st != .up

/-- PFAIL_RING_DRAIN_END (R350): 100 µs after the assertion, or once everything has been written. -/
def execPfailRingDrainEnd (s : State) : Result :=
  whenAlive s fun s =>
    if s.pw.pfail && !s.pw.drained && (s.isDue (s.pw.pfailAt + 100000) || (s.fc.inbox.isEmpty && !s.eng.busy)) then
      let s := s.hush.modPw fun p => { p with drained := true }
      if s.pw.shed then s.shedList.foldl State.shedOne s else s
    else s

/-- PW_PFAIL_CTL (R356). -/
def State.writePfailCtl (s : State) (w : Word) : State :=
  let f : BitVec 3 := w.extractLsb' 0 3
  (s.modPw fun p => { p with filt := if f.toNat > 5 then 5 else f, shed := w.getLsbD 3 }).rpOk

/-- PW_ENV_CTL (R223, R356): on a Hub it does not act and keeps its reset value (R409). -/
def State.writeEnvCtl (s : State) (w : Word) : State :=
  if !s.isLeaf then s.rpOk
  else if w.getLsbD 0 && s.activeSlot.isSome then s.rpErr
  else (s.modBand fun b => { b with force := w.getLsbD 0, forceLevel := w.extractLsb' 4 4 }).rpOk

/-- PW_LEND_CTL (R347, R356). -/
def State.writeLendCtl (s : State) (w : Word) : State :=
  if !s.isLeaf then s.rpOk
  else ((s.modBand fun b => { b with
    lendEn := w.getLsbD 0, lendIdle := w.getLsbD 1, lendMin := w.extractLsb' 4 12, lendGuard := w.extractLsb' 16 16 }).lendFall false).rpOk

-- Banks (R353, R355).

/-- A session with scope TEST, or FACTORY (R362, R408). SCOPE bit 1 is TEST. -/
def State.testOpen (s : State) : Bool := s.gate.life == .factory || (s.gate.life == .service && s.gate.scope.getLsbD 1)

/-- BANK_OWNER[b].OWNER (R355). -/
def State.writeOwner (s : State) (b : Nat) (code : BitVec 4) : State :=
  let own := s.pw.owners.getD b 0
  if b ≥ s.profile.banks || own = 8 || (code = 0xF && !s.testOpen) || (code.toNat > 9 && code != 0xF) ||
      (s.isLeaf && (own = 4 || own = 5 || own = 6) && s.ctxHeld) || (!s.isLeaf && (own = 9 || own = 5) && s.partHeld) ||
      (own = 3 && s.eng.rings.any (·.en)) then s.rpErr
  else (s.modPw fun p => { p with owners := p.owners.set b code }).rpOk

/-- BANK_OWNER_WRITE (R355). -/
def execBankOwnerWrite (b : BitVec 5) (code : BitVec 4) (s : State) : Result := onReg 0 s fun s => s.writeOwner b.toNat code

end Sys2Proof.Machine
end

