-- ==== Sys2Proof/Machine/HostMem.lean ====
section
/-!
DEFINITION. The answers of host memory (02, R49 to R51; 11, R298 to R303): what each response does, and
the timeout of a request.
-/

namespace Sys2Proof.Machine

/-- A doorbell block has been read (R298 to R301). Its bytes are those of the response. -/
def State.doorbellRead (s : State) (n : BitVec 3) (data : BitVec 512) : State :=
  let k := n.toNat
  let r := s.ring k
  if !s.ringRuns k then s
  else if hostRing k then
    let prod : BitVec 32 := field data 0 32
    if (prod - r.cons).toNat > r.size then s.haltRing k 2 3
    else (s.modRing k fun r => { r with prod := prod }).fetchMore k 8
  else
    let s := (s.modRing k fun r => { r with cons := field data 8 32, full := false }).drainHeld n
    let s := if (s.ring k).held.isEmpty then s else (s.modRing k fun r => { r with full := true }).loseHeld k
    if k = 6 then s.pumpDump s.dumpLeft else s

/-- An entry of a host-produced ring has been read; the Replay ring feeds its replay at once (R292, R305). -/
def State.entryRead (s : State) (n : BitVec 3) (ix : BitVec 32) (data : BitVec 512) : State :=
  if !s.ringRuns n.toNat then s
  else
    let s := s.modRing n.toNat fun r => { r with fetched := r.fetched ++ [(ix, data)] }
    if n = 5 then s.replayOn else s

/-- A record's write response has come (R300, R312, R314, R336). -/
def State.recordWritten (s : State) (n : BitVec 3) (num : Option Nat) : State :=
  let s := s.modEng fun e => { e with taken := e.taken.filter fun d => !(d.fin && some d.num == num) }
  let s := s.flushProd n
  if n = 3 then s.flushEnds.trySafe
  else if n = 6 && s.eng.dump.elim false (fun j => j.todo.isEmpty) && (s.eng.firstOpen 6).isNone then s.endDump stDone
  else s

/-- What the answer to a request does (R50). -/
def State.answered (s : State) (r : HmReq) (data : BitVec 512) : State :=
  match r.kind with
  | .doorbell n => s.doorbellRead n data
  | .entry n ix => s.entryRead n ix data
  | .record n _ num => s.recordWritten n num
  | .prod n => s.flushProd n
  | .cons n => s.flushCons n.toNat
  | .openBlock _ d half => s.openHalf d half data
  | .members _ d first => s.membersRead d first data
  | .area => s.flushArea
  | .image core ofs => s.imageRead core ofs data

/-- A request fails: its ring halts, and a descriptor's own read completes it (R51, R303, R310, R391). -/
def State.hmFailed (s : State) (r : HmReq) (why : Nat) : State :=
  match r.kind with
  | .image _ ofs => s.fwReadError why ofs
  | k => k.ring.elim s fun n => (s.haltRing n.toNat 1 why).readFailed k

/-- HM_RESPONSE (R50, R51): the last beat of the response to `tag`. A response to a tag that has timed out is
discarded and frees the tag. -/
def execHmResponse (tag : BitVec 6) (err : Bool) (data : BitVec 512) (s : State) : Result :=
  whenAlive s fun s =>
    if !s.pins.hmRunning then s
    else
      match s.eng.hm.find? fun x => x.1 == tag with
      | none => (s.modEng fun e => { e with dead := e.dead.filter fun t => t != tag }).hmNext
      | some x =>
        let s := s.modEng fun e => { e with hm := e.hm.filter fun y => y.1 != tag }
        (if err then s.hmFailed x.2.1 1 else s.answered x.2.1 data).hmNext

/-- HM_TIMEOUT (R51): no response within 100 µs of the request, which have passed. The engine stands still without ck_hm (R43). -/
def execHmTimeout (tag : BitVec 6) (s : State) : Result :=
  whenAlive s fun s =>
    match s.eng.hm.find? fun x => x.1 == tag with
    | none => s
    | some x =>
      if s.pins.hmRunning && s.isDue (x.2.2 + 100001) then
        ((s.modEng fun e => { e with hm := e.hm.filter fun y => y.1 != tag, dead := e.dead ++ [tag] }).hmFailed x.2.1 2).hmNext
      else s

end Sys2Proof.Machine
end

