-- ==== Sys2Proof/Machine/Capture.lean ====
section
/-!
DEFINITION. The capture inputs (02, R63, R64; 16, R411 to R413), the trace (R414) and the Test page (R416).
-/

namespace Sys2Proof.Machine

-- Capture (R64, R282, R291, R293, R411 to R413).

/-- SLOPE takes the edge: bit 0 rising, bit 1 falling. -/
def Capture.takes (c : Capture) (falling : Bool) : Bool := c.en && c.slope.getLsbD (if falling then 1 else 0)

/-- Less than 3 ns have passed since the last stamped edge (R64). -/
def Capture.deadTime (c : Capture) (stamp : HT80) : Bool :=
  c.lastEdge.elim false fun t => htDiff stamp t < 3 * 65536

/-- A stamped edge of an input in CAP_MASK folds into A_E of the interval in which it lies, and is recorded there (R280, R282,
R291). An edge that finds the FIFO full has been stamped too. -/
def State.foldEdge (s : State) (n : BitVec 3) (falling : Bool) (stamp : HT80) : State :=
  match s.activeSlot with
  | some k => if s.sync.capMask.getLsbD n.toNat then s.modCtx k fun c => c.note stamp (.edge n falling) else s
  | none => s

/-- Live edges of the input are ignored: its interval is being replayed (R293). -/
def State.liveIgnored (s : State) (n : BitVec 3) : Bool :=
  s.activeSlot.elim false fun k => s.sync.capMask.getLsbD n.toNat && s.sync.replaying (s.ctx k).ptag (s.ctx k).iStep

/-- CAP_IN_EDGE (R64, R413): EN and SLOPE take the edge as it crosses the pad. What becomes of it is settled as its tick ends. -/
def execCapInEdge (n : BitVec 3) (falling : Bool) (stamp : HT80) (s : State) : Result :=
  whenAlive s fun s =>
    if s.pdOn 2 && (s.capIn n.toNat).takes falling then s.modCapIn n.toNat fun c => { c with edges := c.edges ++ [(falling, stamp)] } else s

/-- One edge that the input has taken (R64, R293, R412, R413). -/
def State.takeEdge (s : State) (n : BitVec 3) (falling : Bool) (stamp : HT80) : State :=
  let c := s.capIn n.toNat
  if c.winMode && !c.winOpen then s
  else if s.liveIgnored n then s.modSync fun y => { y with liveIgn := satInc y.liveIgn }
  else if c.deadTime stamp then s.modCapIn n.toNat fun c => { c with dead := satInc c.dead }
  else (s.modCapIn n.toNat fun c => { (c.push { t := stamp, falling := falling, injected := false }) with lastEdge := some stamp }).foldEdge n falling stamp

/-- R407, R412, R413: the edges of a tick, in the order of their stamps, after everything that has opened or closed the stop window
at that tick, and after the reads and writes of the registers. -/
def State.settleEdges (s : State) : State :=
  (List.range 8).foldl (fun s n =>
    (sortBy (fun a b => htLe a.2 b.2) (s.capIn n).edges).foldl (fun s e => s.takeEdge (BitVec.ofNat 3 n) e.1 e.2)
      (s.modCapIn n fun c => { c with edges := [] })) s

/-- CAP_CTL as it reads. -/
def Capture.ctl (c : Capture) : Word := (0 : BitVec 25) ++ bit c.winOpen ++ (0 : BitVec 2) ++ bit c.winMode ++ c.slope ++ bit c.en

/-- CAP_CTL (R411, R412, R413). -/
def State.writeCapCtl (s : State) (n : Nat) (w : Word) : State :=
  if (w.getLsbD 0 && !s.fw.tdcOk) || (w.getLsbD 4 && w.getLsbD 5) then s.rpErr
  else
    let slope : BitVec 2 := w.extractLsb' 1 2
    let s := s.modCapIn n fun c => { c with en := w.getLsbD 0, slope := if slope = 0 then 1 else slope, winMode := w.getLsbD 3 }
    let s := if w.getLsbD 4 then s.stopWindow n true else if w.getLsbD 5 then s.stopWindow n false else s
    (if w.getLsbD 7 then s.modCapIn n fun c => { c with fifo := [], dead := 0, ovf := 0 } else s).rpOk

/-- WIN_OPEN_NOW (R412): CAP_CTL with the RW fields as they stand. -/
def execWinOpenNow (n : BitVec 3) (s : State) : Result := onReg 2 s fun s => s.writeCapCtl n.toNat (setBit ((s.capIn n.toNat).ctl) 4)

/-- WIN_CLOSE_NOW (R412). -/
def execWinCloseNow (n : BitVec 3) (s : State) : Result := onReg 2 s fun s => s.writeCapCtl n.toNat (setBit ((s.capIn n.toNat).ctl) 5)

/-- CAP_CLR (R411, R413). -/
def execCapClr (n : BitVec 3) (s : State) : Result := onReg 2 s fun s => s.writeCapCtl n.toNat (setBit ((s.capIn n.toNat).ctl) 7)

/-- CAP_THRESH (R63). -/
def State.writeCapThresh (s : State) (n : Nat) (w : Word) : State :=
  (s.modCapIn n fun c => { c with thresh := if (w.extractLsb' 0 8 : Byte).toNat > 240 then 240 else w.extractLsb' 0 8 }).rpOk

/-- CAP_STAT. -/
def Capture.stat (c : Capture) : Word := (0 : BitVec 8) ++ c.ovf ++ c.dead ++ BitVec.ofNat 8 c.fifo.length

/-- The words CAP_TS_LO, MID and HI of an entry taken, or of none (R411). -/
def tsWord (e : Option CapEnt) (k : Nat) : Word :=
  match e with
  | none => 0
  | some e =>
    if k = 0 then e.t.extractLsb' 0 32 else if k = 1 then e.t.extractLsb' 32 32
    else (0 : BitVec 13) ++ bit e.injected ++ (1 : BitVec 1) ++ bit e.falling ++ e.t.extractLsb' 64 16

/-- A read of CAP_TS_LO takes the oldest entry (R413). -/
def State.readCapTs (s : State) (n : Nat) : State :=
  let e := (s.capIn n).fifo.head?
  (s.modCapIn n fun c => { c with fifo := c.fifo.tail, snap := e }).rpOk (tsWord e 0)

-- The trace (R408, R414).

/-- BV_CTL as it reads. -/
def Trace.ctl (b : Trace) : Word := (0 : BitVec 22) ++ b.port ++ bit b.stopOnFault ++ b.src ++ bit b.en

/-- The Belvedere registers are open (R408). -/
def State.traceOpen (s : State) : Bool :=
  s.gate.life == .blank || s.gate.life == .factory || (s.gate.life == .service && s.gate.scope.getLsbD 0)

/-- BV_CTL (R414). -/
def State.writeBvCtl (s : State) (w : Word) : State :=
  let src : BitVec 2 := w.extractLsb' 1 2
  let port : PortNo := w.extractLsb' 4 6
  if !s.traceOpen || (s.bv.en && (src != s.bv.src || port != s.bv.port)) || (src = 2 && !s.isLeaf) || port.toNat ≥ s.ports.length then s.rpErr
  else
    let s := s.modBv fun b => { b with en := w.getLsbD 0, src := src, stopOnFault := w.getLsbD 3, port := port }
    (if w.getLsbD 10 then s.modBv fun b => { b with buf := [], wrapped := false, stopped := false } else s).rpOk

/-- BV_CLR (R414): BV_CTL with the RW fields as they stand. -/
def execBvClr (s : State) : Result := onReg 8 s fun s => s.writeBvCtl (setBit s.bv.ctl 10)

/-- BV_STAT. -/
def Trace.stat (b : Trace) : Word := (0 : BitVec 20) ++ bit b.stopped ++ bit b.wrapped ++ BitVec.ofNat 10 b.buf.length

/-- BV_DATA, word `k` of the entry that BV_SEL shows. -/
def Trace.data (b : Trace) (k : Nat) : Word := (b.buf.getD b.index.toNat 0).extractLsb' (32 * k) 32

-- The Test page (R408, R416).

/-- The Test page is open (R408). -/
def State.testPageOpen (s : State) : Bool := s.gate.life == .blank || s.testOpen

/-- The lane domain of port `p` is ON. -/
def State.laneOn (s : State) (p : PortNo) : Bool := p.toNat < s.ports.length && s.pdOn (laneDom s.profile p.toNat)

/-- TST_LANE_CTL (R416). -/
def State.writeLaneCtl (s : State) (w : Word) : State :=
  let p : PortNo := w.extractLsb' 0 6
  let loop : BitVec 2 := w.extractLsb' 8 2
  let pat : BitVec 2 := w.extractLsb' 10 2
  let check := w.getLsbD 12
  if !s.testPageOpen || ((loop != 0 || pat != 0 || check) && !s.laneOn p) || ((loop != 0 || pat != 0) && (s.port p).st != .disabled) then s.rpErr
  else
    (s.modTst fun x => { x with
      port := p, loop := loop, pattern := pat, check := check, plock := check && x.check && x.plock && p == x.port && pat == x.pattern,
      errors := if check then 0 else x.errors }).rpOk

/-- CHECKER_PATTERN_LOCK (R416). -/
def execCheckerPatternLock (s : State) : Result :=
  whenAlive s fun s => if s.tst.check && s.tst.pattern != 0 && s.laneOn s.tst.port then s.modTst fun x => { x with plock := true } else s

/-- TST_LANE_ERR as it reads: what the checker has counted is the lane's to say. A free value while the
checker is locked. -/
def State.readLaneErr (s : State) : State :=
  if s.tst.plock then
    let e := Config.anyWord s.freeIx
    (s.drew.modTst fun x => { x with errors := e }).rpOk e
  else s.rpOk s.tst.errors

/-- TST_BIST_CTL (R416). -/
def State.writeBistCtl (s : State) (w : Word) : State :=
  let b : BitVec 5 := w.extractLsb' 0 5
  let go := w.getLsbD 8
  if !s.testPageOpen || (go && (b.toNat ≥ s.profile.banks || !s.pdOn (bankDom b.toNat) || s.pw.owners.getD b.toNat 0 != 0xF || s.tst.busy)) then s.rpErr
  else
    let s := s.modTst fun x => { x with bank := b, alg := w.getLsbD 9 }
    if go then
      let k := s.freeIx
      ((s.drew.modPw fun p => p.scrambleBank b.toNat k).modTst fun x => { x with busy := true, pass := false, fail := false, firstFail := 0 }).rpOk
    else s.rpOk

/-- BIST_GO (R416): TST_BIST_CTL with GO. -/
def execBistGo (w : Word) (s : State) : Result := onReg 0 s fun s => s.writeBistCtl (setBit w 8)

/-- BIST_DONE (R416): the first failing word, if any. -/
def execBistDone (firstFail : Option (BitVec 16)) (s : State) : Result :=
  whenAlive s fun s =>
    if s.tst.busy then s.modTst fun x => { x with busy := false, pass := firstFail.isNone, fail := firstFail.isSome, firstFail := firstFail.getD 0 }
    else s

/-- TST_BIST_STAT. -/
def TestPage.bistStat (x : TestPage) : Word := x.firstFail ++ (0 : BitVec 13) ++ bit x.fail ++ bit x.pass ++ bit x.busy

/-- A core that is halted, or stepped, stands at an instruction of a firmware the manual does not give. -/
def State.corePc (s : State) (core : Bool) : State :=
  let pc := Config.corePc s.freeIx
  s.drew.modTst fun x => if core then { x with pc1 := pc } else { x with pc0 := pc }

/-- Does core `core` execute its image when it is not halted (R390)? -/
def State.coreHasCode (s : State) (core : Bool) : Bool := s.fw.st == .running && !(if core then s.fw.idle1 else s.fw.idle0)

/-- TST_CORE_CTL (R416): the HALT bits, then the STEP bits. -/
def State.writeCoreCtl (s : State) (w : Word) : State :=
  if !s.testPageOpen || s.loading then s.rpErr
  else
    let moved0 := s.coreHasCode false && w.getLsbD 0 && (!s.tst.halt0 || w.getLsbD 2)
    let moved1 := s.coreHasCode true && w.getLsbD 1 && (!s.tst.halt1 || w.getLsbD 3)
    let s := s.modTst fun x => { x with halt0 := w.getLsbD 0, halt1 := w.getLsbD 1 }
    let s := if moved0 then s.corePc false else s
    (if moved1 then s.corePc true else s).rpOk

/-- CORE_HALT (R416): TST_CORE_CTL without a STEP. -/
def execCoreHalt (w : Word) (s : State) : Result := onReg 3 s fun s => s.writeCoreCtl (w &&& 3)

/-- CORE_STEP (R416). -/
def execCoreStep (w : Word) (s : State) : Result := onReg 3 s fun s => s.writeCoreCtl w

/-- TST_CORE_PC0 and PC1: valid while the core is halted; the counter of a running core is free. -/
def State.readCorePc (s : State) (core : Bool) : State :=
  let halted := if core then s.tst.halt1 else s.tst.halt0
  let s := if s.coreHasCode core && !halted then s.corePc core else s
  s.rpOk (if core then s.tst.pc1 else s.tst.pc0)

end Sys2Proof.Machine
end

