-- ==== Sys2Proof/Machine/SyncRegs.lean ====
section
/-!
DEFINITION. The sync window (R48, R267, R268) and the writes of the Trellis page that belong to the
Bandstand (R230), the object engine (R278) and the digests (R295).
-/

namespace Sys2Proof.Machine

/-- The slot that the window addresses: SEL 0 the ACTIVE slot, SEL 1 the PARKED one (R267). -/
def State.winSlot (s : State) : Option Bool :=
  if s.sync.sel then (if s.ctx0.st = .parked then some false else if s.ctx1.st = .parked then some true else none)
  else s.activeSlot

/-- R267: a window write that no slot is addressed by completes with rp_err and is counted. -/
def State.winNone (s : State) : State := (s.modSync fun y => { y with noctx := satInc y.noctx }).rpErr

/-- R267: a post through the window, by POST or OP. It is applied, and wakes, after rp_ has accepted it (R268). -/
def State.winPost (s : State) (o : BitVec 12) (op : Byte) (operand : BitVec 32) : State :=
  match s.winSlot with
  | none => s.winNone
  | some k => if s.sync.sel then s.rpErr else (s.rpOk).post { slot := k, obj := o.toNat, op := op, operand := operand, src := 1, rank := 0 }

/-- The first `BIDS_M1 + 1` objects of a slot belong to its barriers (R231, R267). -/
def State.barrierObj (s : State) (k : Bool) (o : Nat) : Bool :=
  match s.part (s.ctx k).ptag with
  | some p => o ≤ p.bidsM1.toNat
  | none => false

/-- R267: a write of the CFG word, which re-creates the object. Posts accepted before it are applied before it (R268). -/
def State.winCfg (s : State) (o : BitVec 12) (w : Word) : State :=
  let s := s.applyPosts
  match s.winSlot with
  | none => s.winNone
  | some k =>
    let t := (w.extractLsb' 0 3).toNat
    if s.barrierObj k o.toNat || t = 3 || t ≥ 5 || (t = 1 && w.extractLsb' 16 16 = 0) then s.rpErr
    else ((if (s.ctx k).st = .active then s.dropTimerWake o.toNat else s).setObj k o.toNat (cfgObj w)).rpOk

/-- R267: a write of the TIMEOUT word. An object of no type holds none (R259). -/
def State.winTimeout (s : State) (o : BitVec 12) (w : Word) : State :=
  let s := s.applyPosts
  match s.winSlot with
  | none => s.winNone
  | some k =>
    let x := s.obj k o.toNat
    if s.barrierObj k o.toNat then s.rpErr
    else (s.setObj k o.toNat { x with timeout := if x.type = .none then 0 else w }).rpOk

/-- The word of the sync window at word `i` of object `o`, when a slot is addressed (R267). It shows what was posted before. -/
def State.winRead (s : State) (o i : Nat) : Option Word :=
  let s := s.applyPosts
  s.winSlot.map fun k =>
    let x := s.obj k o
    if i = 0 then x.value else if i = 1 then x.head else if i = 2 then x.cfgWord else x.timeout

/-- R278: SO_WIN. -/
def State.writeSoWin (s : State) (w : Word) : State :=
  (s.modSync fun y =>
    let y := { y with sel := w.getLsbD 0, autoDump := w.getLsbD 1 }
    if w.getLsbD 2 then { y with stale := 0, remote := 0, ops := 0, noctx := 0 } else y).rpOk

/-- R230: BS_CTL. HWM restarts from the entries in use. -/
def State.writeBsCtl (s : State) (w : Word) : State :=
  (if w.getLsbD 0 then s.modBand fun b => { b with hwm := BitVec.ofNat 13 b.table.length, lateSteps := 0, forced := 0 } else s).rpOk

/-- R230: BS_LOAD, whose COMPRESSED clears when 1 is written. -/
def State.writeBsLoad (s : State) (w : Word) : State :=
  (if w.getLsbD 10 then s.modBand fun b => { b with compressed := false } else s).rpOk

/-- R295: DG_CTL. -/
def State.writeDgCtl (s : State) (w : Word) : State :=
  let mask : Byte := w.extractLsb' 8 8
  if s.activeSlot.isSome && (mask != s.sync.capMask || w.getLsbD 2 != s.sync.recRegion) then s.rpErr
  else (s.modSync fun y => { y with rec_ := w.getLsbD 0, recCap := w.getLsbD 1, recRegion := w.getLsbD 2, capMask := mask }).rpOk

/-- R295: DG_STAT2, whose PROV_MM clears when 1 is written. -/
def State.writeDgStat2 (s : State) (w : Word) : State :=
  (if w.getLsbD 25 then s.modSync fun y => { y with provMm := false } else s).rpOk

/-- R282, R295: a write of DG_LAYER_HI folds the 64-bit layer digest into A_H. -/
def State.writeLayerHi (s : State) (w : Word) : State :=
  match s.activeSlot with
  | none => (s.modSync fun y => { y with layerNoctx := satInc y.layerNoctx }).rpErr
  | some k => (s.modCtx k fun c => c.note s.stamp (.item secH (bytesOf 4 s.sync.layerLo.toNat ++ bytesOf 4 w.toNat))).rpOk

/-- BS_CLR (R230). -/
def execBsClr (s : State) : Result := onLeafReg 7 s fun s => s.writeBsCtl 1

/-- SO_CLR (R278): CLR with SEL and AUTO_DUMP as they stand. -/
def execSoClr (s : State) : Result :=
  onLeafReg 5 s fun s => s.writeSoWin (setBit (setBit (4 : Word) 0 s.sync.sel) 1 s.sync.autoDump)

/-- SYNC_WIN_POST (R267, R268). -/
def execSyncWinPost (o : BitVec 12) (w : Word) (s : State) : Result := onLeafReg 5 s fun s => s.winPost o 1 w

/-- SYNC_WIN_OP (R267): [7:0] OP, [31:8] operand. -/
def execSyncWinOp (o : BitVec 12) (w : Word) (s : State) : Result :=
  onLeafReg 5 s fun s => s.winPost o (w.extractLsb' 0 8) ((w.extractLsb' 8 24).setWidth 32)

/-- SYNC_WIN_CFG (R267). -/
def execSyncWinCfg (o : BitVec 12) (w : Word) (s : State) : Result := onLeafReg 5 s fun s => s.winCfg o w

/-- DG_LAYER_HI_WRITE (R282, R295). -/
def execDgLayerHiWrite (w : Word) (s : State) : Result := onLeafReg 5 s fun s => s.writeLayerHi w

end Sys2Proof.Machine
end

