-- ==== Sys2Proof/Machine/Readback.lean ====
section
/-!
DEFINITION. What every register reads (16, R404 to R416, with the field tables of the chapters). A byte
offset reads as a word, or not at all: `none` is an access that completes with rp_err.
-/

namespace Sys2Proof.Machine

/-- A word from its fields, lowest bits first: (width, value). -/
def pack : List (Nat × Nat) → Nat
  | [] => 0
  | (w, v) :: r => v % 2 ^ w + 2 ^ w * pack r

/-- The same, as a register word. -/
def packWord (l : List (Nat × Nat)) : Word := BitVec.ofNat 32 (pack l)

/-- Word `k` of a wide value. -/
def wordOf {n : Nat} (x : BitVec n) (k : Nat) : Word := x.extractLsb' (32 * k) 32

/-- A Boolean as a field of one bit. -/
def fl (b : Bool) : Nat × Nat := (1, b.toNat)

/-- A register of domain `d` (R405). -/
def State.inDom (s : State) (d : Nat) (w : Word) : Option Word := if s.pdOn d then some w else none

-- Identity (R1, R4, R410).

/-- GY_PROFILE. -/
def State.profileWord (s : State) : Word := packWord [(2, if s.isLeaf then 1 else 2), (6, 0), (8, s.ports.length)]

/-- GY_CAPS. -/
def State.capsWord (s : State) : Word :=
  packWord [(4, 5), (4, 4), (1, 1), (1, 1), (1, 1), fl s.isLeaf, fl s.isLeaf, fl (!s.isLeaf), (2, 0), (3, if s.isLeaf then 2 else 4), (1, 0),
    (4, 8), (6, s.profile.banks)]

/-- The Identity page, which answers whatever the strap says (R42). -/
def State.readIdentity (s : State) (a : Nat) : Word :=
  if a = 0x00 then wordOf s.gate.hwid 0 else if a = 0x04 then gyVersion else if a = 0x08 then s.profileWord
  else if a = 0x0C then s.capsWord else if a = 0x10 then wordOf s.gate.hwid 1 else 0

-- Gatehouse (R387).

/-- GH_STATE. -/
def Gate.stateWord (g : Gate) : Word :=
  packWord [(3, g.life.code.toNat), (1, 0), (3, g.scope.toNat), fl g.chal.isSome, (5, g.eOwn.toNat), fl g.keyOk, fl g.locked, fl g.staged.isSome,
    (4, g.fails.toNat), (4, g.result.toNat)]

/-- The Gatehouse page. -/
def State.readGate (s : State) (a : Nat) : Word :=
  if a = 0x100 then s.gate.stateWord
  else if 0x110 ≤ a ∧ a < 0x120 then (s.gate.chal.elim 0 fun c => wordOf c ((a - 0x110) / 4)) else 0

-- Rings, doorbells, firmware (R318, R319, R403).

/-- RING_STAT.STATE. -/
def RingSt.code : RingSt → Nat
  | .stopped => 0 | .running => 1 | .halted => 2 | .stopping => 3

/-- RING_STAT of ring `n`. -/
def State.ringStat (s : State) (n : Nat) : Word :=
  let r := s.ring n
  packWord [(2, r.st.code), (2, r.err.toNat), fl (!hostRing n && r.en && r.noRoom 1), (3, 0), (8, min r.heldCount 255), (16, r.drop.toNat)]

/-- Register `k` (byte offset) of ring `n`. -/
def State.readRing (s : State) (n k : Nat) : Word :=
  let r := s.ring n
  if k = 0x00 then wordOf r.base 0 else if k = 0x04 then wordOf r.base 1 else if k = 0x08 then r.log2.setWidth 32
  else if k = 0x0C then wordOf r.db 0 else if k = 0x10 then wordOf r.db 1
  else if k = 0x14 then packWord [fl r.en, fl r.poll, fl r.cls, (5, 0), (4, entryLog2 n)]
  else if k = 0x18 then s.ringStat n else r.cons

/-- The Doorbell and firmware page. -/
def State.readFw (s : State) (a : Nat) : Option Word :=
  if a = 0x400 then s.inDom 4 (s.eng.pollRemote ++ s.eng.pollHost) else if a = 0x404 then s.inDom 4 0
  else some (if a = 0x408 then wordOf s.fw.base 0 else if a = 0x40C then wordOf s.fw.base 1 else if a = 0x410 then s.fw.len.setWidth 32
    else if a = 0x414 then s.fw.stat else if a = 0x418 then s.buStat else 0)

-- Sundial and Orangery (01, R132).

/-- SUN_STATE. -/
def State.sunState (s : State) : Word :=
  packWord [(2, s.sun.st.code.toNat), (2, (if s.sun.isRoot then s.sun.st.code else s.sun.rootSt).toNat), fl s.sun.isRoot, fl s.sun.isStandby,
    fl (s.sun.isRoot || s.sun.utcValid), (1, 0), (8, s.sun.stepCnt.toNat)]

/-- ORG_REFSEL. -/
def Org.refsel (o : Org) : Word :=
  let i (n : Nat) : List (Nat × Nat) := let x := o.ins.getD n {}; [(2, x.ntype.toNat), (2, x.nrank.toNat)]
  packWord (i 0 ++ i 1 ++ i 2 ++ i 3 ++ [(3, o.sel.toNat), fl o.switching, (3, o.target.toNat), fl o.ppsAlign, (3, o.force.toNat)])

/-- ORG_REFQUAL. -/
def Org.refqual (o : Org) : Word :=
  packWord (o.ins.flatMap fun i => [fl i.act, fl i.qual, fl i.wtr, fl i.suspect, fl i.phaseHit, (3, 0)])

/-- The Orangery's registers. -/
def Org.word (o : Org) (a : Nat) : Word :=
  if a = 0x820 then o.refsel else if a = 0x824 then o.refqual
  else if a = 0x828 then packWord [(3, o.stage.toNat), (5, 0), (3, o.srcType.toNat), (5, 0), (16, o.perr.toNat)]
  else if a = 0x82C then packWord [(10, o.limit.toNat), (6, 0), (16, o.diff.toNat)]
  else if a = 0x830 then packWord [(8, o.win.toNat), (8, o.gap.toNat)]
  else if a = 0x834 then packWord [(24, o.age.toNat), (6, 0), fl o.short, fl o.frozen]
  else if a = 0x838 then o.utcOfs
  else packWord [(8, o.prio.toNat), fl o.osc, (7, 0), (8, o.qual.toNat)]

/-- The Sundial and Orangery page. SUN_NOW_MID and HI read the snapshot of R25. -/
def State.readSun (s : State) (a : Nat) : Option Word :=
  if 0x820 ≤ a ∧ a ≤ 0x83C then s.inDom 1 (s.org.word a)
  else some (if a = 0x804 then wordOf s.stamp 0 else if a = 0x808 then wordOf s.sun.snap 1 else if a = 0x80C then wordOf s.sun.snap 2
    else if a = 0x810 then s.sunState else 0)

-- Capture and trace (R411, R414).

/-- Register `k` of capture input `n`. -/
def Capture.word (c : Capture) (k : Nat) : Word :=
  if k = 0x00 then c.ctl else if k = 0x04 then c.thresh.setWidth 32 else if k = 0x08 then c.tOpen else if k = 0x0C then c.tClose
  else if k = 0x10 then c.stat else if k = 0x14 then tsWord c.fifo.head? 0 else if k = 0x18 then tsWord c.snap 1 else tsWord c.snap 2

/-- The Capture page. -/
def State.readCapture (s : State) (a : Nat) : Option Word :=
  if a < 0xD00 then s.inDom 2 ((s.capIn ((a - 0xC00) / 0x20)).word (a % 0x20))
  else if a < 0xE00 || (0xE0C ≤ a && a < 0xE20) || 0xE40 ≤ a then some 0
  else if !s.traceOpen then none
  else s.inDom 8 (if a = 0xE00 then s.bv.ctl else if a = 0xE04 then s.bv.stat else if a = 0xE08 then s.bv.index.setWidth 32
    else s.bv.data ((a - 0xE20) / 4))

-- Links (03, link registers; R405).

/-- TL_STAT.STATE. -/
def LinkSt.code : LinkSt → Nat
  | .disabled => 0 | .train => 1 | .align => 2 | .negotiate => 3 | .calibrate => 4 | .up => 5 | .lost => 6 | .downHeld => 7 | .revFail => 8

/-- R405: a port as the Links page shows it. What its lanes supply reads its reset value while their domain is not ON. -/
def State.portShown (s : State) (p : PortNo) : Port :=
  if s.laneOn p then s.port p else { (s.port p).clearPartner with st := .disabled, calDone := false, delay := 0 }

/-- TL_STAT. -/
def State.tlStat (s : State) (p : PortNo) : Word :=
  let q := s.portShown p
  packWord [(4, q.st.code), fl (s.elect.parent == some p && s.laneOn p), fl q.partnerTp, fl q.calDone, (1, 0), fl q.loss, fl q.gasp, fl q.ndown, fl q.asymMm,
    fl q.xcheck, (3, 0), (6, q.partnerPort.toNat), (2, q.partnerSt.toNat), (4, q.stomp.toNat), (4, q.unknown.toNat)]

/-- Register `k` of port `p`. -/
def State.readLink (s : State) (p : PortNo) (k : Nat) : Word :=
  let q := s.portShown p
  if k = 0x00 then packWord [fl q.en, fl q.noTime, (2, q.revCap.toNat), (4, q.swing.toNat)]
  else if k = 0x04 then s.tlStat p else if k = 0x08 then q.partnerAsym ++ q.asym else if k = 0x0C then q.delay
  else if k = 0x10 then q.crcErr ++ q.replays else if k = 0x14 then q.losses ++ q.retrain
  else if k = 0x18 then packWord [(4, if q.st == .calibrate || q.st == .up then q.rev.toNat else 0), (4, 0), (4, q.partnerMax.toNat),
    (4, q.partnerMin.toNat), (4, 5), (4, 4)]
  else 0

-- Fault collector (R341).

/-- The Fault collector page. -/
def State.readFaults (s : State) (a : Nat) : Option Word :=
  let f := s.fc
  if 0x2060 ≤ a ∧ a ≤ 0x2068 then
    if s.gate.life != .factory then none
    else some (if a = 0x2060 then packWord [(16, f.injCode.toNat), (3, f.injMode.toNat), (1, 0), (8, f.injCount.toNat), (3, f.injDone.toNat)]
      else if a = 0x2064 then f.injLoc.setWidth 32 else packWord [(16, f.injPtag.toNat), fl f.injPartV])
  else some (
    if a < 0x2008 then wordOf f.first.v ((a - 0x2000) / 4) else if a < 0x2010 then wordOf f.first.c ((a - 0x2008) / 4)
    else if a < 0x201C then wordOf f.firstT.v ((a - 0x2010) / 4)
    else if a = 0x2020 then f.ovf.v else if a = 0x2024 then f.mask.v else if a = 0x2028 then f.promote.v
    else if a = 0x202C then packWord [fl f.safe, fl f.self, (1, 0), fl f.recLost, fl f.wasSafe, (11, 0), (16, f.safeFault.toNat)]
    else if a = 0x2030 then f.ceCnt.v
    else if a = 0x2034 then packWord [(5, f.histSel.toNat), (3, 0), (6, f.hist.length), (2, 0), (16, f.ceLost.toNat)]
    else if 0x2040 ≤ a ∧ a < 0x2060 then ((f.hist[f.histSel.toNat]?).elim 0 fun r => wordOf r.v ((a - 0x2040) / 4))
    else 0)

-- Power and banks (R356).

/-- The Power page. The registers of a domain that the profile lacks complete with rp_err (R404). -/
def State.readPower (s : State) (a : Nat) : Option Word :=
  if a < 0x2400 + 8 * 33 then
    let d := (a - 0x2400) / 8
    if d ≥ s.profile.domains then none else some (if a % 8 = 0 then packWord [fl (s.dom d).en] else s.pdStat d)
  else some (
    if a = 0x2700 then (if s.isLeaf then packWord [fl s.band.force, (3, 0), (4, s.band.forceLevel.toNat), fl s.band.envA.en] else 0)
    else if a = 0x2704 then packWord [(3, s.pw.filt.toNat), fl s.pw.shed, fl s.pw.pfail, fl s.pw.committed, fl s.pins.pfail]
    else if a = 0x2708 then (if s.isLeaf then
      packWord [fl s.band.lendEn, fl s.band.lendIdle, fl s.pins.lend, (1, 0), (12, s.band.lendMin.toNat), (16, s.band.lendGuard.toNat)] else 0)
    else if a = 0x270C then (if s.isLeaf then s.band.lendShort ++ s.band.lendEpisodes else 0)
    else 0)

/-- The Banks page. -/
def State.readBanks (s : State) (a : Nat) : Option Word :=
  let b := (a - 0x2800) / 4
  if b < s.profile.banks then some (packWord [(4, (s.pw.owners.getD b 0).toNat), (12, 0), (16, (s.pw.conflicts.getD b 0).toNat)])
  else if b < 32 then none else some 0

-- Health and ledger (R387).

/-- The Health page. -/
def State.readHealth (s : State) (a : Nat) : Word :=
  let h := s.hs
  if a = 0x2C00 then h.ctl ||| (s.capped.toNat * 2 ^ 24 : Nat) else if a = 0x2C04 then h.halflife.setWidth 32 else if a = 0x2C08 then h.floor.setWidth 32
  else if a = 0x2C0C then s.sparesAge ++ h.spares else if a = 0x2C10 then h.base.setWidth 32
  else if 0x2C40 ≤ a ∧ a < 0x2C80 then
    let x := h.score (h.base.toNat + (a - 0x2C40) / 4)
    packWord [(24, x.s.toNat), (2, x.verdict.toNat), fl x.hard, fl x.capped]
  else 0

/-- LG_STAT. -/
def Ledger.stat (l : Ledger) : Word :=
  packWord [fl l.ready, fl l.absent, fl l.rollback, fl l.rdBusy, fl l.rdValid, fl l.rdErased, fl l.svcFull, (1, 0), (8, l.bad.toNat)]

/-- The Ledger page. LG_RD_SEL is closed in BLANK (R408). -/
def State.readLedger (s : State) (a : Nat) : Option Word :=
  let l := s.lg
  if a = 0x3818 && s.gate.life == .blank then none
  else some (
    if a = 0x3800 then packWord [(8, l.tHi.toNat), (8, l.tLo.toNat)] else if a = 0x3804 then l.cfg.setWidth 32
    else if a = 0x3808 then wordOf l.seq 0 else if a = 0x380C then wordOf l.seq 1
    else if a = 0x3810 then packWord [(7, s.gate.eLgFuse.toNat), fl l.unanchored] else if a = 0x3814 then l.stat
    else if a = 0x3818 then packWord [(2, l.rdArea.toNat), (6, 0), (22, l.rdIndex.toNat)]
    else if 0x3880 ≤ a ∧ a < 0x3900 then wordOf l.rdData ((a - 0x3880) / 4) else 0)

-- Trellis, Bandstand, objects, digests (R199, R230, R278, R295).

/-- TR_SEAT_STAT.STATE. -/
def SeatSt.code : SeatSt → Nat
  | .unseated => 0 | .seating => 1 | .seated => 2 | .failed => 3

/-- The set that TR_CTL.VIEW selects. -/
def Trellis.viewed (r : Trellis) : TrellisSet := if r.view then r.setS else r.setA

/-- TR_TRIM_SEL names an Arbor of TR_GEOM (R199). -/
def Trellis.trimOk (r : Trellis) : Bool := r.trimRegion.toNat < r.regions.toNat && r.trimBlock.toNat < r.blocks.toNat

/-- TR_SAT: residues of slots in units of 1,024 slots. -/
def Trellis.satWord (r : Trellis) : Word :=
  let f (k : Nat) : Nat × Nat := (8, min (r.sat.getD k 0 / 1024) 255)
  packWord [f 3, f 2, f 1, f 0]

/-- TR_ registers. -/
def State.readTr (s : State) (a : Nat) : Option Word :=
  let r := s.tr
  if a = 0x3084 && !r.trimOk then none
  else s.inDom 7 (
    if a = 0x3000 then r.ctl else if a = 0x3004 then packWord [(8, r.regions.toNat), (8, r.blocks.toNat), (8, r.cells.toNat)]
    else if a = 0x3008 then packWord [(2, r.seat.code), (4, r.cause.toNat), (7, r.failRegion.toNat), (3, 0), (4, r.hPa.toNat), (4, r.hAs.toNat), (8, r.lSeat.toNat)]
    else if a = 0x300C then packWord [(12, r.ltr.toNat), (12, r.k.toNat), (8, r.kMin.toNat)]
    else if a = 0x3010 then packWord [(8, r.holdLat.toNat), (8, r.hCell.toNat), (8, r.hTrellis.toNat)]
    else if a = 0x3014 then r.maxErr ++ r.lastErr
    else if a = 0x3018 then packWord [(16, r.episodes.toNat), (7, r.lastRegion.toNat), fl s.holdNow, (8, r.defer.toNat)]
    else if a = 0x301C then r.satWord else if a = 0x3020 then r.cyc1024.setWidth 32
    else if a = 0x3040 then r.viewed.mapDn else if a = 0x3044 then r.viewed.mapUp
    else if a = 0x3080 then packWord [(7, r.trimRegion.toNat), (1, 0), (6, r.trimBlock.toNat)]
    else assocGet (r.trimRegion.toNat * 64 + r.trimBlock.toNat) 0 r.viewed.trims)

/-- BS_SIG_BLOCK: formed at seating, so that it reads 0 before the first one (R208, R230). -/
def State.sigShown (s : State) : BitVec 64 := if s.tr.kMin = 0 then 0 else s.sigBlock s.tr.viewed

/-- BS_LOAD: TARGET, RAMP and DESCENT as R221 and R223 give them now. -/
def State.bsLoad (s : State) : Word :=
  let ramp := if s.band.envA.en then s.envTimes.any fun t => (s.band.envA.ramp s.tick t).isSome else !s.band.ramps.isEmpty
  packWord [(4, s.band.level.toNat), (4, s.loadTarget), fl ramp, fl s.descentLevel.isSome, fl s.band.compressed]

/-- BS_ registers. -/
def State.readBs (s : State) (a : Nat) : Word :=
  let b := s.band
  if a = 0x3100 then packWord [(13, b.table.length), (3, 0), (13, b.hwm.toNat)]
  else if a = 0x3104 then wordOf b.sigHost 0 else if a = 0x3108 then wordOf b.sigHost 1
  else if a = 0x310C then wordOf s.sigShown 0 else if a = 0x3110 then wordOf s.sigShown 1
  else if a = 0x3114 then b.lateSteps.setWidth 32 else if a = 0x3118 then b.slack
  else if a = 0x311C then packWord [(16, b.forced.toNat), (4, b.lastMc.toNat), fl b.lastInside]
  else if a = 0x3120 then s.bsLoad else if a = 0x3124 then s.pins.mcWin ++ b.openW else 0

/-- SO_CTX of a slot. A FREE slot shows the tag of the ended partition while IMAGE is 1. -/
def State.soCtx (s : State) (k : Bool) : Word :=
  let c := s.ctx k
  packWord [(16, if c.st == .free && !c.image then 0 else c.ptag.toNat), (3, c.st.code.toNat), fl c.image, fl c.dumpBusy, (3, 0), (8, c.disarmed.toNat)]

/-- SO_ registers. -/
def State.readSo (s : State) (a : Nat) : Word :=
  let y := s.sync
  if a = 0x3200 then s.soCtx false else if a = 0x3204 then s.soCtx true
  else if a = 0x3208 then packWord [fl y.sel, fl y.autoDump] else if a = 0x320C then y.remote ++ y.stale
  else if a = 0x3210 then y.noctx ++ y.ops else y.rises.setWidth 32

/-- The digest fields show the active context (R295). -/
def State.activeCtx (s : State) : Ctx := s.activeSlot.elim {} s.ctx

/-- DG_ registers. -/
def State.readDg (s : State) (a : Nat) : Word :=
  let y := s.sync
  let c := s.activeCtx
  if a = 0x3300 then packWord [fl y.rec_, fl y.recCap, fl y.recRegion, (5, 0), (8, y.capMask.toNat)]
  else if a = 0x330C then y.liveIgn ++ y.recDrop
  else if a = 0x3310 then packWord [(8, y.clamp.toNat), (8, y.cellDrop.toNat), (8, y.layerNoctx.toNat), fl y.replay.isSome, fl y.provMm]
  else if a = 0x3314 then wordOf c.p 0 else if a = 0x3318 then wordOf c.p 1 else if a = 0x331C then wordOf c.d0 0 else if a = 0x3320 then wordOf c.d0 1
  else if a = 0x3324 then wordOf c.g0 0 else if a = 0x3328 then wordOf c.g0 1 else if a = 0x332C then y.divStep.getD 0 else 0

/-- The Trellis page of a Leaf. Offsets that hold no register are reserved. -/
def State.readTrellisPage (s : State) (a : Nat) : Option Word :=
  if !s.isLeaf then none
  else if a ≤ 0x3020 || a = 0x3040 || a = 0x3044 || a = 0x3080 || a = 0x3084 then s.readTr a
  else if 0x3100 ≤ a && a ≤ 0x3128 then s.inDom 7 (s.readBs a)
  else if 0x3200 ≤ a && a ≤ 0x3214 then s.inDom 5 (s.readSo a)
  else if 0x3300 ≤ a && a ≤ 0x332C then s.inDom 5 (s.readDg a)
  else some 0

-- Configuration sets and partitions (R162, R415).

/-- The partition the page shows: on a Leaf that of the ACTIVE context, on a Hub that of PT_SELECT. Its
domain must be ON. -/
def State.csPart (s : State) : Option Part :=
  if s.isLeaf then (if s.pdOn 7 then s.activeTag.bind s.part else none)
  else if s.pdOn 9 && s.pdOn 10 then s.partNo s.fab.ptPart else none

/-- The C-pair of the armed swap tick (R9, R415). -/
def csPair (t : HT80) : BitVec 160 := (~~~t) ++ t

/-- The Configuration sets page. -/
def State.readCs (s : State) (a : Nat) : Word :=
  let p := s.csPart
  let arm := p.bind (·.swap)
  if a = 0x3C00 then (p.elim 0 fun p => packWord [fl p.copy, (1, 1), (14, 0), (16, p.ptag.toNat)])
  else if a < 0x3C18 then wordOf (csPair (arm.elim 0 (·.t))) ((a - 0x3C04) / 4)
  else if a = 0x3C18 then arm.elim 0 (·.id)
  else if a = 0x3C1C then
    let r := s.tr
    let leaf := s.isLeaf && s.pdOn 7
    packWord [fl arm.isSome, fl (leaf && r.pending), fl (leaf && r.switchAt.elim false fun x => !x.2), (5, 0), (8, p.elim 0 fun p => p.swaps.toNat)]
  else 0

/-- Word 0 of the entry that PT_SELECT names, 0 while FREE. On a root with a standby a change takes effect once the standby has
acknowledged it (R128). -/
def State.ptWord (s : State) : BitVec 160 :=
  let n := s.fab.ptPart
  if s.sun.isRoot && s.elect.standbyPort.isSome then assocGet (s.fab.ptSet, n) 0 s.fab.shown
  else (s.partNo n).elim 0 fun p => p.word s.fab.ptSet false

/-- The Partitions page of a Hub. -/
def State.readPt (s : State) (a : Nat) : Word :=
  let n := s.fab.ptPart
  let e := s.ptWord
  let st := (e.extractLsb' 16 3).toNat
  if a = 0x8000 then packWord [(10, n.toNat), (6, 0), fl s.fab.ptSet]
  else if a = 0x8004 then
    packWord [(3, st), fl (e.getLsbD 24), fl (e.getLsbD 25), fl (e.getLsbD 26), (2, 0),
      (5, if s.sun.isRoot then s.fab.defer.length else 0), (3, 0), (16, (assocGet n.toNat 0 s.fab.stales).toNat)]
  else if a = 0x8008 then
    packWord [(6, if st = 0 then (assocGet n.toNat s.fab.genBase s.fab.gens).toNat else (ptGen (e.extractLsb' 0 16)).toNat), (10, 0),
      (16, (e.extractLsb' 96 16).toNat)]
  else if a = 0x800C then e.extractLsb' 112 32 else 0

-- The Test page (R416).

/-- The Test page; `none` too where R408 or R409 closes it. -/
def State.readTest (s : State) (a : Nat) : Option Word :=
  let x := s.tst
  if !s.testPageOpen then none
  else if a = 0x4000 then some (packWord [(6, x.port.toNat), (2, 0), (2, x.loop.toNat), (2, x.pattern.toNat), fl x.check])
  else if a = 0x4004 then (if s.laneOn x.port then some (packWord [fl x.plock]) else none)
  else if a = 0x4008 then (if s.laneOn x.port then some x.errors else none)
  else if a = 0x4100 then some (packWord [(5, x.bank.toNat), (4, 0), fl x.alg])
  else if a = 0x4104 then some x.bistStat
  else if a = 0x4200 then s.inDom 2 (x.tdc.setWidth 32)
  else if a = 0x4204 then s.inDom 2 ((s.fw.tdcStat x.tdc).setWidth 32)
  else if a = 0x4300 then s.inDom 3 (packWord [fl x.halt0, fl x.halt1])
  else if a = 0x4304 then s.inDom 3 x.pc0
  else if a = 0x4308 then s.inDom 3 x.pc1
  else some 0

-- The test access port (R67). No row of the table moves its pins: log entry 50.

/-- Instructions of the test access port: BYPASS, IDCODE, access to the Test page, and every other. -/
inductive TapOp where
  | bypass | idcode | testPage | other
  deriving DecidableEq, Repr

/-- The instruction that runs for one that is loaded: one that the lifecycle state does not make available acts as BYPASS. -/
def State.tapRuns (s : State) (op : TapOp) : TapOp :=
  if s.gate.life == .blank || s.gate.life == .factory then op
  else if s.gate.life == .service && s.gate.scope.getLsbD 1 then (if op = .testPage then .testPage else .bypass)
  else if op = .idcode then .idcode else .bypass

/-- What IDCODE returns: the low 32 bits of GY_ID. -/
def State.tapId (s : State) : Word := wordOf s.gate.hwid 0

/-- What a read of the Test page through the port returns. -/
def State.tapRead (s : State) (op : TapOp) (a : Nat) : Option Word := if s.tapRuns op = .testPage then s.readTest a else none

/-- tst_tdo: high impedance when the port is not shifting, in reset, and while the block is unpowered. -/
def State.tstTdo (s : State) (shifting b : Bool) : Option Bool := if s.alive && shifting then some b else none

-- The window (R48, R404).

/-- The word at byte offset `a`, or none for rp_err. -/
def State.readWord (s : State) (a : Nat) : Option Word :=
  if a < 0x100 then some (s.readIdentity a)
  else if !s.xoOk then none
  else if a < 0x200 then some (s.readGate a)
  else if a < 0x300 then s.inDom 4 (s.readRing ((a - 0x200) / 0x20) (a % 0x20))
  else if a < 0x400 then some 0
  else if a < 0x800 then s.readFw a
  else if a < 0xC00 then s.readSun a
  else if a < 0x1000 then s.readCapture a
  else if a < 0x2000 then
    let p := (a - 0x1000) / 0x40
    if p < s.ports.length then some (s.readLink (BitVec.ofNat 6 p) (a % 0x40)) else none
  else if a < 0x2400 then s.readFaults a
  else if a < 0x2800 then s.readPower a
  else if a < 0x2C00 then s.readBanks a
  else if a < 0x3000 then
    (if a ≤ 0x2C10 || (0x2C40 ≤ a && a < 0x2C80) then s.inDom 3 (s.readHealth a) else some 0)
  else if a < 0x3800 then s.readTrellisPage a
  else if a < 0x3C00 then s.readLedger a
  else if a < 0x4000 then some (s.readCs a)
  else if a < 0x8000 then s.readTest a
  else if a < 0x8100 then
    (if s.isLeaf then none else if 0x800C < a then some 0 else if s.pdOn 9 && s.pdOn 10 then some (s.readPt a) else none)
  else if a < 0x10000 then none
  else if a < 0x20000 then
    (if s.isLeaf && s.pdOn 5 then s.winRead ((a - 0x10000) / 16) ((a % 16) / 4) else none)
  else none

end Sys2Proof.Machine
end

