-- ==== Sys2Proof/Machine/Registers.lean ====
section
/-!
DEFINITION. Register reads, and the general register write, by offset (R46 to R48, R404 to R409); the
register writes that have a row of their own and no other file.
-/

namespace Sys2Proof.Machine

-- Reads (R25, R47, R406, R413).

/-- A read. Reads behave normally in the safe state (R337). -/
def onRead (s : State) (f : State → State) : Result :=
  .next (if s.pins.powered && s.pins.hmRunning then (if s.alive then f s else s.rpErr) else s)

/-- Wide values that a read of their lowest word captures: the lowest offset, and all (R406). -/
def snapTable : List (Nat × List Nat) :=
  [(0x0000, [0x0000, 0x0010]), (0x2000, [0x2000, 0x2004, 0x2008, 0x200C, 0x2010, 0x2014, 0x2018]),
   (0x3104, [0x3104, 0x3108]), (0x310C, [0x310C, 0x3110]), (0x3314, [0x3314, 0x3318]), (0x331C, [0x331C, 0x3320]), (0x3324, [0x3324, 0x3328]),
   (0x3808, [0x3808, 0x380C]), (0x3C04, [0x3C04, 0x3C08, 0x3C0C, 0x3C10, 0x3C14])]

/-- The word at `a` as the latest snapshot holds it, when `a` is a word of a wide value and one was taken. -/
def RegPort.snapped (r : RegPort) (a : Nat) : Option Word :=
  snapTable.findSome? fun x =>
    match x.2.zipIdx.find? fun y => y.1 = a, r.snaps.find? fun y => y.1 = x.1 with
    | some (_, k), some (_, l) => l[k]?
    | _, _ => none

/-- A read of SUN_NOW_LO (R25). -/
def State.readNow (s : State) : State := (s.modSun fun u => { u with snap := s.stamp }).rpOk (wordOf s.stamp 0)

/-- BANK_OWNER[b] as it reads (R354). CONFLICT counts cycles lost since the last read, whose number is the
timing's to say: a free value is added to it. Log entry 12. -/
def State.readOwner (s : State) (a : Nat) : State :=
  let n := (Config.anyWord s.freeIx).toNat % 2 ^ 16
  let b := (a - 0x2800) / 4
  let s := s.drew.modPw fun p => { p with conflicts := p.conflicts.set b (satInc (p.conflicts.getD b 0) n) }
  s.rpOk ((s.readBanks a).getD 0)

/-- A read at byte offset `a`. Reads with a side effect first; then a snapshot; then the register. -/
def State.readReg (s : State) (a : Nat) : State :=
  match s.readWord a with
  | none => s.rpErr
  | some w =>
    if a = 0x804 then s.readNow
    else if 0xC00 ≤ a ∧ a < 0xD00 ∧ a % 0x20 = 0x14 then s.readCapTs ((a - 0xC00) / 0x20)
    else if 0x2800 ≤ a ∧ a < 0x2800 + 4 * s.profile.banks then s.readOwner a
    else if a = 0x4008 then s.readLaneErr
    else if a = 0x4304 then s.readCorePc false
    else if a = 0x4308 then s.readCorePc true
    else match snapTable.find? fun x => x.1 = a with
      | some x =>
        let l := x.2.map fun b => (s.readWord b).getD 0
        (s.modRp fun r => { r with snaps := assocSet a l r.snaps }).rpOk w
      | none => s.rpOk ((s.rp.snapped a).getD w)

/-- The word offset that rp_addr carries. -/
def wordAlign (a : BitVec 18) : Nat := a.toNat / 4 * 4

/-- SUN_NOW_READ (R25). -/
def execSunNowRead (s : State) : Result := onRead s fun s => s.readReg 0x804

/-- SNAPSHOT_READ (R406). At an offset that is no lowest word of a wide value it is the plain read of the
register: the table has no other row for reads. -/
def execSnapshotRead (addr : BitVec 18) (s : State) : Result := onRead s fun s => s.readReg (wordAlign addr)

/-- CAP_TS_READ (R413). -/
def execCapTsRead (n : BitVec 3) (s : State) : Result := onRead s fun s => s.readReg (0xC14 + 0x20 * n.toNat)

-- Sundial and Orangery (R22, R23, R104, R110, R123, R132).

/-- SUN_CTL (R22): PRESET. A Sundial never steps while a partition is open on its node, so that there it is refused too (R15):
log entry 55. -/
def State.writeSunCtl (s : State) (w : Word) : State :=
  if !w.getLsbD 0 then s.rpOk
  else if s.sun.counting && s.sun.st == .freerun && s.upPorts.isEmpty && !s.holdsPartition then
    ((s.loadSun s.sun.staged).modSun fun u => { u with stepCnt := satInc u.stepCnt }).rpOk
  else s.rpErr

/-- PRESET (R22). -/
def execPreset (s : State) : Result := onReg 0 s fun s => s.writeSunCtl 1

/-- SUN_NOW words stage a preset (R22, R406). -/
def State.stageNow (s : State) (k : Nat) (w : Word) : State :=
  (s.modSun fun u => { u with staged :=
    if k = 0 then u.staged.extractLsb' 32 48 ++ w
    else if k = 1 then (u.staged.extractLsb' 64 16 : BitVec 16) ++ w ++ (u.staged.extractLsb' 0 32 : BitVec 32)
    else (w.extractLsb' 0 16 : BitVec 16) ++ (u.staged.extractLsb' 0 64 : BitVec 64) }).rpOk

/-- ORG_REFSEL (R104, R110, R122, R132). Inputs that a Leaf lacks stay off. -/
def State.writeRefsel (s : State) (w : Word) : State :=
  let s := s.modOrg fun o => { o with
    ins := o.ins.zipIdx.map fun (i, n) =>
      if n < 2 || !s.isLeaf then { i with ntype := w.extractLsb' (4 * n) 2, nrank := w.extractLsb' (4 * n + 2) 2 } else i
    ppsAlign := w.getLsbD 23, force := w.extractLsb' 24 3 }
  s.runSelection.requalify.rpOk

/-- ORG_REFQUAL: the PHASE_HIT bits clear by a 1. -/
def State.writeRefqual (s : State) (w : Word) : State :=
  (s.modOrg fun o => { o with ins := o.ins.zipIdx.map fun (i, n) => { i with phaseHit := i.phaseHit && !w.getLsbD (8 * n + 4) } }).rpOk

/-- ORG_AGREE.LIMIT (R132). -/
def State.writeAgree (s : State) (w : Word) : State :=
  let l : BitVec 10 := w.extractLsb' 0 10
  (s.modOrg fun o => { o with limit := if l = 0 then 1 else if l.toNat > 1000 then 1000 else l }).rpOk

/-- ORG_HOLD_WIN (R132). -/
def State.writeHoldWin (s : State) (w : Word) : State :=
  (s.modOrg fun o => { o with win := if w.extractLsb' 0 8 = 0 then 1 else w.extractLsb' 0 8, gap := w.extractLsb' 8 8 }).rpOk

/-- ORG_UTC_OFS (R23): on the root it is written and sent at once; elsewhere it is read-only. -/
def State.writeUtcOfs (s : State) (w : Word) : State :=
  if s.sun.isRoot then (s.modOrg fun o => { o with utcOfs := w }).sendOffers.rpOk else s.rpOk

/-- ORG_PRIO (R123, R125, R126). -/
def State.writePrio (s : State) (w : Word) : State :=
  let p : Byte := w.extractLsb' 0 8
  let was := s.org.prio
  let s := s.modOrg fun o => { o with prio := p, osc := w.getLsbD 8 }
  let s := if p = was then s else s.sendClaim
  let s := s.requalify
  (if w.getLsbD 9 then s.reelect else s).rpOk

/-- ACCEL (R112, R132). -/
def execAccel (s : State) : Result := onReg 1 s State.writeAccel

/-- REELECT (R126): ORG_PRIO with REELECT 1. -/
def execReelect (w : Word) (s : State) : Result := onReg 1 s fun s => s.writePrio (setBit w 9)

/-- ORG_UTC_OFS_WRITE (R23). -/
def execOrgUtcOfsWrite (w : Word) (s : State) : Result := onReg 1 s fun s => s.writeUtcOfs w

/-- The Orangery's registers. -/
def State.writeOrg (s : State) (a : Nat) (w : Word) : State :=
  if a = 0x820 then s.writeRefsel w else if a = 0x824 then s.writeRefqual w
  else if a = 0x828 then (if w.getLsbD 3 then s.writeAccel else s.rpOk)
  else if a = 0x82C then s.writeAgree w else if a = 0x830 then s.writeHoldWin w else if a = 0x838 then s.writeUtcOfs w
  else if a = 0x83C then s.writePrio w else s.rpOk

-- Links (R82, R83, R85, R89, R99, R396, R405, R416).

/-- May EN of the port be written 1? -/
def State.tlEnOk (s : State) (p : PortNo) : Bool :=
  s.fwReady && s.laneOn p && !(p == s.tst.port && (s.tst.loop != 0 || s.tst.pattern != 0))

/-- EN of the port as written: a port in UP first sends NODE_DOWN three times (R83). In the power-fail state a port in UP stays
there (R101). -/
def State.setTlEn (s : State) (p : PortNo) (en : Bool) : State :=
  let q := s.port p
  let s := s.modPort p fun q => { q with en := en }
  if en then (if q.st == .disabled && !s.pins.linkLow.getLsbD p.toNat && !s.mute then s.enterSt p .train else s)
  else if q.st == .up then (if q.exiting = 0 && !s.mute then s.modPort p fun q => { q with exiting := 3 } else s)
  else if q.st == .disabled then s
  else s.portExit p

/-- TL_CTL: the RW fields, then RETRAIN, then CAL_NOW. -/
def State.writeTlCtl (s : State) (p : PortNo) (w : Word) : State :=
  if p.toNat ≥ s.ports.length || (w.getLsbD 0 && !s.tlEnOk p) then s.rpErr
  else
    let sw : BitVec 4 := w.extractLsb' 4 4
    let s := s.modPort p fun q => { q with noTime := w.getLsbD 1, revCap := w.extractLsb' 2 2, swing := if sw.toNat > 10 then 10 else sw }
    let s := s.setTlEn p (w.getLsbD 0)
    let s := if w.getLsbD 8 then s.portLost p 5 .lost else s
    -- R107, R134: NO_TIME may take the parent away
    (if w.getLsbD 9 then s.recalibrate p else s).keepParent.rpOk

/-- TL_CTL as its RW fields stand. -/
def Port.ctl (q : Port) : Word := packWord [fl q.en, fl q.noTime, (2, q.revCap.toNat), (4, q.swing.toNat)]

/-- TL_EN_SET (R82): TL_CTL written with EN 1. -/
def execTlEnSet (p : PortNo) (w : Word) (s : State) : Result := onReg 0 s fun s => s.writeTlCtl p (setBit w 0)

/-- TL_EN_CLEAR (R83): TL_CTL written with EN 0. -/
def execTlEnClear (p : PortNo) (w : Word) (s : State) : Result := onReg 0 s fun s => s.writeTlCtl p (setBit w 0 false)

/-- RETRAIN (R99): TL_CTL with the RW fields as they stand. -/
def execRetrain (p : PortNo) (s : State) : Result :=
  onReg 0 s fun s => if p.toNat ≥ s.ports.length then s.rpErr else (s.portLost p 5 .lost).rpOk

/-- CAL_NOW (R89). -/
def execCalNow (p : PortNo) (s : State) : Result :=
  onReg 0 s fun s => if p.toNat ≥ s.ports.length then s.rpErr else (s.recalibrate p).rpOk

/-- Register `k` of port `p`. -/
def State.writeLink (s : State) (p : PortNo) (k : Nat) (w : Word) : State :=
  if p.toNat ≥ s.ports.length then s.rpErr
  else if k = 0x00 then s.writeTlCtl p w
  else if k = 0x04 then
    (s.modPort p fun q => { q with loss := q.loss && !w.getLsbD 8, gasp := q.gasp && !w.getLsbD 9, ndown := q.ndown && !w.getLsbD 10,
                                   asymMm := q.asymMm && !w.getLsbD 11, xcheck := q.xcheck && !w.getLsbD 12 }).rpOk
  else if k = 0x08 then (s.modPort p fun q => { q with asym := w.extractLsb' 0 16 }).rpOk
  else s.rpOk

-- Rings and doorbells (R302, R318, R319).

/-- Register `k` of ring `n`. -/
def State.writeRing (s : State) (n k : Nat) (w : Word) : State :=
  let fixed := (s.ring n).en
  let set (f : Ring → Ring) : State := if fixed then s.rpErr else (s.modRing n f).rpOk
  if k = 0x00 then set fun r => { r with base := wordOf r.base 1 ++ (w &&& ~~~(63 : Word)) }
  else if k = 0x04 then set fun r => { r with base := w ++ wordOf r.base 0 }
  else if k = 0x08 then
    (let l : BitVec 5 := w.extractLsb' 0 5
     if l.toNat < 4 || l.toNat > 16 then s.rpErr else set fun r => { r with log2 := l })
  else if k = 0x0C then set fun r => { r with db := wordOf r.db 1 ++ (w &&& ~~~(15 : Word)) }
  else if k = 0x10 then set fun r => { r with db := w ++ wordOf r.db 0 }
  else if k = 0x14 then s.writeRingCtl n w
  else if k = 0x18 then (s.modRing n fun r => { r with err := r.err &&& ~~~(w.extractLsb' 2 2) }).rpOk
  else if fixed then s.rpOk
  else (s.modRing n fun r => { r with cons := w }).rpOk

/-- DB_POLL_NS (R319). -/
def State.writePoll (s : State) (w : Word) : State :=
  let low (x : BitVec 16) : BitVec 16 := if x.toNat < 16 then 16 else x
  (s.modEng fun e => { e with pollHost := low (w.extractLsb' 0 16), pollRemote := low (w.extractLsb' 16 16) }).rpOk

/-- A register of domain `d` is written only while it is ON (R405). -/
def State.ifOn (s : State) (d : Nat) (f : State → State) : State := if s.pdOn d then f s else s.rpErr

/-- The Doorbell and firmware page. -/
def State.writeFwPage (s : State) (a : Nat) (w : Word) : State :=
  if a = 0x400 then s.ifOn 4 fun s => s.writePoll w
  else if a = 0x404 then s.ifOn 4 fun s => s.nudge w
  else if a = 0x408 then s.writeFw fun f => { f with base := wordOf f.base 1 ++ (w &&& ~~~(63 : Word)) }
  else if a = 0x40C then s.writeFw fun f => { f with base := w ++ wordOf f.base 0 }
  else if a = 0x410 then s.writeFw fun f => { f with len := w.extractLsb' 0 24 }
  else if a = 0x414 then s.writeFwStat w
  else s.rpOk

-- Faults (R341).

/-- The Fault collector page. FC_CLR and FC_HIST_SEL are written in the safe state too (R337). -/
def State.writeFaults (s : State) (a : Nat) (w : Word) : State :=
  if a = 0x201C then s.writeFcClr w
  else if a = 0x2034 then (s.modFc fun f => { f with histSel := w.extractLsb' 0 5 }).rpOk
  else if s.fc.safe then s.rpErr
  else if a = 0x2024 then (s.modFc fun f => { f with mask := cpair w }).rpOk
  else if a = 0x2028 then (s.modFc fun f => { f with promote := cpair w }).rpOk
  else if a = 0x202C then s.writeFcSafe w
  else if a = 0x2030 then (s.modFc fun f => { f with ceCnt := cpair w }).rpOk
  else if a = 0x2060 then s.writeFcInj w
  else if a = 0x2064 || a = 0x2068 then
    if s.gate.life != .factory then s.rpErr
    else if a = 0x2064 then (s.modFc fun f => { f with injLoc := w.extractLsb' 0 24 }).rpOk
    else (s.modFc fun f => { f with injPtag := w.extractLsb' 0 16, injPartV := w.getLsbD 16 }).rpOk
  else s.rpOk

-- Power, banks, health, ledger (R356, R387).

/-- The Power page. -/
def State.writePower (s : State) (a : Nat) (w : Word) : State :=
  if a < 0x2400 + 8 * 33 then
    (if a % 8 = 0 then s.writePdEn ((a - 0x2400) / 8) (w.getLsbD 0) else s.writePdStat ((a - 0x2400) / 8) w)
  else if a = 0x2700 then s.writeEnvCtl w else if a = 0x2704 then s.writePfailCtl w else if a = 0x2708 then s.writeLendCtl w else s.rpOk

/-- The Health page. -/
def State.writeHealth (s : State) (a : Nat) (w : Word) : State :=
  if a = 0x2C00 then s.writeHsCtl w else if a = 0x2C04 then s.writeHalflife w else if a = 0x2C08 then s.writeFloor w
  else if a = 0x2C0C then s.writeSpares w else if a = 0x2C10 then (s.modHs fun h => { h with base := w.extractLsb' 0 9 }).rpOk
  else s.rpOk

/-- The Ledger page. -/
def State.writeLedger (s : State) (a : Nat) (w : Word) : State :=
  if a = 0x3800 then s.writeLgCtl w else if a = 0x3804 then s.writeLgCfg w else if a = 0x3814 then s.writeLgStat w
  else if a = 0x3818 then s.writeRdSel w else s.rpOk

-- Trellis page (R165, R170, R181, R199, R230, R278, R295).

/-- TR_GEOM, TR_LTR and TR_HOLD_LAT: not while a context is active; otherwise the Trellis is left unseated. -/
def State.writeGeom (s : State) (bad : Bool) (f : Trellis → Trellis) : State :=
  if bad || s.activeSlot.isSome then s.rpErr else (((s.modTr f).unseat).modTr fun r => { r with seated := 0 }).rpOk

/-- TR_GEOM is out of range. -/
def geomBad (w : Word) : Bool :=
  let r := (w.extractLsb' 0 8 : Byte).toNat
  let b := (w.extractLsb' 8 8 : Byte).toNat
  let c := (w.extractLsb' 16 8 : Byte).toNat
  r < 1 || r > 128 || b < 1 || b > 64 || c < 1 || c > 64

/-- Set bits of a map. -/
def popcount (w : Word) : Nat := ((List.range 32).filter w.getLsbD).length

/-- A slot map into the shadow set; the write goes to every unit (R170, R181). -/
def State.writeMap (s : State) (down : Bool) (w : Word) : State :=
  if popcount w < 4 || popcount w > 28 || s.swapArmed then s.rpErr
  else
    let s := s.modTr fun r => { r with setS := if down then { r.setS with mapDn := w } else { r.setS with mapUp := w } }
    let a : CellAddr := { region := 0, block := 0, cell := 0 }
    let ix := if down then ixMapDn else ixMapUp
    ((((s.access true 2 a ix w (some 3)).access true 1 a ix w (some 3)).access true 0 a ix w (some 3))).rpOk

/-- TR_TRIM: the Arbor's TRIM word in the shadow set (R181). -/
def State.writeTrim (s : State) (w : Word) : State :=
  if !s.tr.trimOk || s.swapArmed then s.rpErr
  else
    let a : CellAddr := { region := s.tr.trimRegion, block := s.tr.trimBlock, cell := 0 }
    ((s.cfgTrellis 1 a none 0 w).access true 1 a 0 w).rpOk

/-- TR_ registers. -/
def State.writeTr (s : State) (a : Nat) (w : Word) : State :=
  if a = 0x3000 then s.writeTrCtl w
  else if a = 0x3004 then s.writeGeom (geomBad w) fun r => { r with regions := w.extractLsb' 0 8, blocks := w.extractLsb' 8 8, cells := w.extractLsb' 16 8 }
  else if a = 0x300C then
    let k : BitVec 12 := w.extractLsb' 12 12
    s.writeGeom false fun r => { r with ltr := w.extractLsb' 0 12, k := if k.toNat > 2047 then 2047 else k }
  else if a = 0x3010 then s.writeGeom false fun r => { r with holdLat := w.extractLsb' 0 8, hCell := w.extractLsb' 8 8 }
  else if a = 0x3040 then s.writeMap true w else if a = 0x3044 then s.writeMap false w
  else if a = 0x3080 then (s.modTr fun r => { r with trimRegion := w.extractLsb' 0 7, trimBlock := w.extractLsb' 8 6 }).rpOk
  else if a = 0x3084 then s.writeTrim w else s.rpOk

/-- The Trellis page of a Leaf. -/
def State.writeTrellisPage (s : State) (a : Nat) (w : Word) : State :=
  if !s.isLeaf then s.rpErr
  else if a ≤ 0x3020 || a = 0x3040 || a = 0x3044 || a = 0x3080 || a = 0x3084 then s.ifOn 7 fun s => s.writeTr a w
  else if 0x3100 ≤ a && a ≤ 0x3128 then s.ifOn 7 fun s =>
    (if a = 0x3120 then s.writeBsLoad w else if a = 0x3128 then s.writeBsCtl w else s.rpOk)
  else if 0x3200 ≤ a && a ≤ 0x3214 then s.ifOn 5 fun s => (if a = 0x3208 then s.writeSoWin w else s.rpOk)
  else if 0x3300 ≤ a && a ≤ 0x332C then s.ifOn 5 fun s =>
    (if a = 0x3300 then s.writeDgCtl w else if a = 0x3304 then (s.modSync fun y => { y with layerLo := w }).rpOk
     else if a = 0x3308 then s.writeLayerHi w else if a = 0x3310 then s.writeDgStat2 w else s.rpOk)
  else s.rpOk

-- Test page, capture page, partitions, sync window.

/-- The Test page (R416). -/
def State.writeTest (s : State) (a : Nat) (w : Word) : State :=
  if !s.testPageOpen then s.rpErr
  else if a = 0x4000 then s.writeLaneCtl w
  else if a = 0x4004 || a = 0x4008 then (if s.laneOn s.tst.port then s.rpOk else s.rpErr)
  else if a = 0x4100 then s.writeBistCtl w
  else if a = 0x4200 then s.ifOn 2 fun s =>
    (let n : Byte := w.extractLsb' 0 8
     if s.hasTdc n then (s.modTst fun x => { x with tdc := n }).rpOk else s.rpErr)
  else if a = 0x4204 then s.ifOn 2 fun s => s.rpOk
  else if a = 0x4300 then s.ifOn 3 fun s => s.writeCoreCtl w
  else if a = 0x4304 || a = 0x4308 then s.ifOn 3 fun s => s.rpOk
  else s.rpOk

/-- The Capture page (R411, R414). -/
def State.writeCapture (s : State) (a : Nat) (w : Word) : State :=
  let n := (a - 0xC00) / 0x20
  if a < 0xD00 then s.ifOn 2 fun s =>
    (if a % 0x20 = 0x00 then s.writeCapCtl n w else if a % 0x20 = 0x04 then s.writeCapThresh n w else s.rpOk)
  else if a < 0xE00 || (0xE0C ≤ a && a < 0xE20) || 0xE40 ≤ a then s.rpOk
  else if !s.traceOpen then s.rpErr
  else s.ifOn 8 fun s =>
    (if a = 0xE00 then s.writeBvCtl w else if a = 0xE08 then (s.modBv fun b => { b with index := w.extractLsb' 0 9 }).rpOk else s.rpOk)

/-- A word of the sync window (R267). -/
def State.writeWindow (s : State) (o : BitVec 12) (k : Nat) (w : Word) : State :=
  if k = 0 then s.winPost o 1 w else if k = 1 then s.winPost o (w.extractLsb' 0 8) ((w.extractLsb' 8 24).setWidth 32)
  else if k = 2 then s.winCfg o w else s.winTimeout o w

-- The window (R47, R48, R404).

/-- A register write at byte offset `a`. Writes to RO fields and to reserved offsets have no effect (R47,
R404). -/
def State.writeReg (s : State) (a : Nat) (w : Word) : State :=
  if a < 0x100 then (if s.fc.safe then s.rpErr else s.rpOk)
  else if 0x2000 ≤ a ∧ a < 0x2400 then s.writeFaults a w
  else if s.fc.safe then s.rpErr
  else if a < 0x200 then
    (if a = 0x104 then s.writeGhCmd w else if 0x120 ≤ a ∧ a < 0x140 then s.writeResp ((a - 0x120) / 4) w else s.rpOk)
  else if a < 0x300 then s.ifOn 4 fun s => s.writeRing ((a - 0x200) / 0x20) (a % 0x20) w
  else if a < 0x400 then s.rpOk
  else if a < 0x800 then s.writeFwPage a w
  else if a < 0xC00 then
    (if a = 0x800 then s.writeSunCtl w else if a = 0x804 then s.stageNow 0 w else if a = 0x808 then s.stageNow 1 w else if a = 0x80C then s.stageNow 2 w
     else if 0x820 ≤ a ∧ a ≤ 0x83C then s.ifOn 1 fun s => s.writeOrg a w else s.rpOk)
  else if a < 0x1000 then s.writeCapture a w
  else if a < 0x2000 then
    let p := (a - 0x1000) / 0x40
    if p < s.ports.length then s.writeLink (BitVec.ofNat 6 p) (a % 0x40) w else s.rpErr
  else if a < 0x2800 then s.writePower a w
  else if a < 0x2C00 then
    (if (a - 0x2800) / 4 < 32 then s.writeOwner ((a - 0x2800) / 4) (w.extractLsb' 0 4) else s.rpOk)
  else if a < 0x3000 then
    (if a ≤ 0x2C10 || (0x2C40 ≤ a && a < 0x2C80) then s.ifOn 3 fun s => s.writeHealth a w else s.rpOk)
  else if a < 0x3800 then s.writeTrellisPage a w
  else if a < 0x3C00 then s.writeLedger a w
  else if a < 0x4000 then s.rpOk
  else if a < 0x8000 then s.writeTest a w
  else if a < 0x8100 then
    (if s.isLeaf then s.rpErr else if 0x800C < a then s.rpOk
     else if !(s.pdOn 9 && s.pdOn 10) then s.rpErr
     else if a = 0x8000 then (s.modFab fun b => { b with ptPart := w.extractLsb' 0 10, ptSet := w.getLsbD 16 }).rpOk
     else s.rpOk)
  else if a < 0x10000 then s.rpErr
  else if a < 0x20000 then
    (if s.isLeaf then s.ifOn 5 fun s => s.writeWindow (BitVec.ofNat 12 ((a - 0x10000) / 16)) ((a % 16) / 4) w else s.rpErr)
  else s.rpErr

/-- REGISTER_WRITE (R46, R47): without ck_hm or VDD_GY nothing is answered; in reset, and with a strap that
names no frequency, the write completes with rp_err. -/
def execRegisterWrite (addr : BitVec 18) (w : Word) (s : State) : Result := onSafeReg s fun s => s.writeReg (wordAlign addr) w

end Sys2Proof.Machine
end

