-- ==== Sys2Proof/Machine/Reset.lean ====
section
/-!
DEFINITION. The resets, the clocks and the supply (02, R39 to R45; 12, R334, R338; 15, R388; 16, R407): what
each reset clears and keeps, and what the block does by itself when it leaves one.
-/

namespace Sys2Proof.Machine

-- What a reset clears and keeps (R44, R407).

/-- Pins in a reset of kind `k`: inputs stay as the surroundings drive them, outputs take their reset values. -/
def Pins.inReset (p : Pins) (k : RstSt) : Pins :=
  { powered := p.powered, rst := k, coldLow := p.coldLow, warmLow := p.warmLow, linkLow := p.linkLow, xoRunning := p.xoRunning, xoSel := p.xoSel, hmRunning := p.hmRunning
    latSig := p.latSig, mcPresent := p.mcPresent, mcTrefi := p.mcTrefi, mcPpmax := p.mcPpmax, flHalt := true }

/-- R344: every req falls, EN and PEND clear, and the surroundings complete the fall of ack. -/
def Power.domsInReset (p : Power) : List Domain :=
  match p.doms with
  | [] => []
  | _ :: r => Domain.isOn :: r.map fun x => { ack := x.ack, st := if x.ack then .shutting else .off }

/-- R45: a write of the flash that a cold reset or the loss of the supply interrupts. The page may hold the
record, may be invalid or may still be erased; an interrupted erase leaves its sector as it was, erased, or
invalid. -/
def State.cutFlash (s : State) : State :=
  let w := Config.anyWord s.freeIx
  let s := match s.lg.job with
    | none => s
    | some j => s.drew.modLg fun l =>
        if w.getLsbD 0 then l.program j (if w.getLsbD 1 then .valid l.rec_ else .invalid) else l
  let v := Config.anyWord s.freeIx
  match s.lg.erasing with
  | none => s
  | some k => s.drew.modLg fun l => { l with
      journal := if v.getLsbD 0 then l.journal
        else if v.getLsbD 1 then l.journal.filter fun x => x.1 / 16 != k
        else l.journal.map fun x => if x.1 / 16 = k then (x.1, .invalid) else x }

/-- The fuses alone. -/
def Gate.fuses (g : Gate) : Gate :=
  { lc := g.lc, hwidFuse := g.hwidFuse, devKey := g.devKey, lgcfgFuse := g.lgcfgFuse, thermFuse := g.thermFuse, eOwnFuse := g.eOwnFuse, eLgFuse := g.eLgFuse }

/-- The lg_ flash alone. -/
def Ledger.flash (l : Ledger) : Ledger :=
  { journal := l.journal, jPos := l.jPos, log := l.log, hdrA := l.hdrA, hdrB := l.hdrB }

/-- R44, R351: what is left after rst_cold_n or a loss of the supply: the fuses, the flash, the pins. -/
def State.coldClear (s : State) (pins : Pins) : State :=
  let s := s.cutFlash
  let z := State.resetOf s.profile
  { z with pins := pins, gate := s.gate.fuses, lg := s.lg.flash, pw := { z.pw with doms := s.pw.domsInReset }
           out := s.out, freeIx := s.freeIx, pending := s.pending }

/-- The collector after a warm reset: the RWS and "(cold)" fields and the SEQ count stay (R316, R326, R338). -/
def Collector.warm (f : Collector) : Collector :=
  { first := f.first, firstT := f.firstT, ovf := f.ovf, mask := f.mask, promote := f.promote, ceCnt := cpair 0
    hist := f.hist, ceLost := f.ceLost, seq := f.seq, self := f.self, recLost := f.recLost, wasSafe := f.safe, safeFault := f.safeFault }

/-- The Gatehouse after a warm reset: fuses as read, session and key state stay; a challenge and a staged
key do not (R44, R359, R361, R365). -/
def Gate.warm (g : Gate) (d : Tick) : Gate :=
  { g.rebase d with chal := none, drawing := false, staged := none, resp := 0, result := 0 }

/-- The ledger after a warm reset: it stays, without a new scan (R44, R388). Its thresholds are registers
until the THERM fuse holds them; descriptors that wait on it are gone. -/
def Ledger.warm (l : Ledger) (life : Life) (d : Tick) : Ledger :=
  let l := if life = .blank || life = .factory then { l with tHi := 0x55, tLo := 0x2D } else l
  let j := l.job.map fun j => match j with
    | .odo pf => .odo pf
    | .svc r => .svc { r with desc := none }
  { l.rebase d with
    queue := l.queue.map (fun r => { r with desc := none }), job := j, rdBusy := false, rdValid := false, rdErased := false
    rdArea := 0, rdIndex := 0, rdData := 0 }

/-- The health unit after a warm reset: soft scores and HARD stay (R382). -/
def Health.warm (h : Health) : Health :=
  { en := h.en, tAdv := h.tAdv, tExp := h.tExp, halflife := h.halflife, floor := h.floor
    scores := h.scores.map fun x => (x.1, { s := x.2.s, hard := x.2.hard }) }

/-- The node table, which the root keeps until it is cold reset (05, node IDs). -/
def Fabric.warm (f : Fabric) (d : Tick) : Fabric := { ({} : Fabric) with nodes := (f.rebase d).nodes }

/-- R44, R407: what rst_warm_n leaves. The Sundial goes back to 0, and the marks of what stays go with it. -/
def State.warmClear (s : State) (pins : Pins) : State :=
  let z := State.resetOf s.profile
  let d := 0 - s.tick
  { z with
    pins := pins, org := { z.org with prio := s.org.prio, osc := s.org.osc }
    ports := s.ports.map fun q => { asym := q.asym }, fab := s.fab.warm d, fc := s.fc.warm
    pw := { z.pw with doms := s.pw.domsInReset, shed := s.pw.shed }
    gate := s.gate.warm d, lg := s.lg.warm s.gate.life d, hs := s.hs.warm, fw := { base := s.fw.base, len := s.fw.len }
    out := s.out, freeIx := s.freeIx, pending := s.pending }

/-- RST_ASSERT (R44, R45): rst_cold_n overrides rst_warm_n, whose level counts all the same. An unpowered block has nothing
to clear. -/
def execRstAssert (k : RstKind) (s : State) : Result :=
  .next <| match k with
    | .cold =>
      let s := s.modPins fun p => { p with coldLow := true }
      if s.pins.powered then s.coldClear (s.pins.inReset .cold) else s.modPins fun p => { p with rst := .cold }
    | .warm =>
      let s := s.modPins fun p => { p with warmLow := true }
      if s.pins.rst = .cold then s
      else if s.pins.powered then s.warmClear (s.pins.inReset .warm)
      else s.modPins fun p => { p with rst := .warm }

-- Leaving a reset (R45, R334, R388).

/-- PD1 is brought on (R342); where its ack has not yet fallen, as soon as it has (R60). -/
def State.bringPd1 (s : State) : State := s.modDom 1 fun x => if x.ack then { x with en := true } else Domain.pd1

/-- The resets are over: fl_halt falls, and the fault pair shows FC_FIRST (R61, R62). -/
def State.outOfReset (s : State) : State :=
  (s.modPins fun p => { p with rst := .none, edgesOwed := false, hmRunning := true, flHalt := false }).bringPd1.driveErr

/-- R66, R357, R359, R388: the fuses are read and the start-up scan begins with the identification of the flash. -/
def State.coldStart (s : State) : State :=
  let g := s.gate
  let life := lifeOf g.lc
  let s := s.modGate fun g => { g with life := life, hwid := g.hwidFuse, eOwn := g.eOwnFuse }
  let s := s.modLg fun l => { l with
    scanning := true, cfg := g.lgcfgFuse.setWidth 7
    tHi := if life = .blank || life = .factory then 0x55 else g.thermFuse.extractLsb' 0 8
    tLo := if life = .blank || life = .factory then 0x2D else g.thermFuse.extractLsb' 8 8 }
  s.outOfReset.lgSend 0x9F

/-- The two halves of a C-pair disagree. -/
def CPair.bad {n : Nat} (c : CPair n) : Bool := c.c != ~~~c.v

/-- R334: the record that survived the reset has a pair that disagrees. -/
def Collector.torn (f : Collector) : Bool := f.first.bad || f.firstT.bad || f.ovf.bad || f.hist.any (·.bad)

/-- R334: the record is checked; R388 without the fuses and the scan. -/
def State.warmStart (s : State) : State :=
  let s := if s.fc.torn then s.modFc fun f => { f with first := cpair 0, firstT := cpair 0, ovf := cpair 0, hist := [], recLost := true } else s
  s.outOfReset

/-- A cold reset ends, once neither reset input is low (R45). -/
def State.endCold (s : State) : State :=
  if s.pins.coldLow || s.pins.warmLow then s
  else if s.pins.xoRunning then s.coldStart
  else s.modPins fun p => { p with edgesOwed := true }

/-- RST_COLD_RELEASE (R41, R45, R388): the strap is sampled. The supply is on before this release (R71). With rst_warm_n still
low the block stays in reset, its fault pins as in any (R61, R62). -/
def execRstColdRelease (xoSel : BitVec 3) (s : State) : Result :=
  .next <|
    if s.pins.rst = .cold || !s.pins.powered then
      (s.modPins fun p => { p with
        powered := true, rst := .cold, coldLow := false, xoSel := xoSel, flErrP := false, flErrN := true, flHalt := true }).endCold
    else s

/-- RST_WARM_RELEASE (R45, R388). It may end the cold reset that it has outlasted. -/
def execRstWarmRelease (s : State) : Result :=
  .next <|
    let was := s.pins.warmLow
    let s := s.modPins fun p => { p with warmLow := false }
    if s.pins.rst = .cold && s.pins.powered && was then s.endCold
    else if s.pins.rst != .warm then s
    else if !s.pins.powered then s.modPins fun p => { p with rst := .none }
    else if s.pins.xoRunning then s.warmStart
    else s.modPins fun p => { p with edgesOwed := true }

/-- CK_XO_EDGES_COUNTED (R45): 64 edges after a release without ck_xo. -/
def execCkXoEdgesCounted (s : State) : Result :=
  .next <|
    if s.pins.powered && s.pins.edgesOwed then
      let s := s.modPins fun p => { p with xoRunning := true }
      match s.pins.rst with
      | .cold => s.coldStart
      | .warm => s.warmStart
      | .none => s.modPins fun p => { p with edgesOwed := false }
    else s

/-- OSC_LOCK (R42, R388): the oscillator has locked to ck_xo, and the Sundial counts from 0. -/
def execOscLock (s : State) : Result :=
  whenAlive s fun s =>
    if s.sun.counting || !s.xoOk || !s.pdOn 1 then s else s.modSun fun u => { u with counting := true, now := 0 }

-- Clocks and the supply.

/-- CK_HM_STOP (R43). -/
def execCkHmStop (s : State) : Result := .next (s.modPins fun p => { p with hmRunning := false })

/-- Pins of an unpowered block (R39, R61, R62): every output at its isolation value. Whether ck_xo will run when
the supply returns is the surroundings' matter. -/
def Pins.unpowered (p : Pins) (xo : Bool) : Pins :=
  { p.inReset .none with powered := false, xoRunning := xo, flErrN := false, flHalt := false }

/-- VDD_GY_OFF (R39, R351). -/
def execVddGyOff (s : State) : Result :=
  .next <|
    if s.pins.powered then
      let xo := (Config.anyWord s.freeIx).getLsbD 0
      let s := s.drew.modPw fun p => { p with doms := p.doms.map fun x => { x with ack := false } }
      s.coldClear (s.pins.unpowered xo)
    else s

end Sys2Proof.Machine
end

