-- ==== Sys2Proof/Machine/Tick.lean ====
section
/-!
DEFINITION. What the passing of one Sundial tick does by itself, whatever is commanded: hall time and the host
cycle count advance, words whose cycle has come act, ramps begin, and each lane goes on.
-/

namespace Sys2Proof.Machine

/-- A held host cycle counts in HELD of the step and of the digest interval that run in a slot (R214, R284). -/
def Ctx.hold (c : Ctx) (t : HT80) : Ctx :=
  if c.st == .active && c.tStart.isSome then ({ c with held := satInc c.held } : Ctx).note t .held else c

/-- One host cycle begins (R163): HCC and every count advance; HOLD and the slots of the lanes go on (R167, R172, R178, R193),
and a cycle with tr_cell_stall high is a held one (R214). -/
def State.hostCycle (s : State) : State :=
  let s := s.modTr fun r => { r with hcc := r.hcc + 1 }
  let c := s.tr.hcc
  let s := s.holdCycle c
  let s := if s.tr.holdAtStakes c then (s.modCtx0 fun x => x.hold s.stamp).modCtx1 fun x => x.hold s.stamp else s
  if s.tr.en then (s.rootCycle c).lanesCycle c else s

/-- The host clock's edges of one tick (R163), after which the words sent whose effective cycle has come act (R190, R194). How many
there are is free: log entry 4. A Trellis root that is off samples no clock (R40). Windows of 1,024 ticks are counted (R186). -/
def State.hostEdges (s : State) : State :=
  if !s.pdOn 7 then s
  else
    let s := ((List.range (Config.hostCycles s.freeIx).toNat).foldl (fun s _ => s.hostCycle) s.drew).wordEdges
    if s.tick.toNat % 1024 = 0 then s.modTr fun r => { r with winCount := (r.hcc - r.winHcc).toNat, winHcc := r.hcc } else s

/-- One tick passes (R13, R14). While the Sundial does not count, the block idles (R388). The posts of the tick that ends are
applied, the digest takes its events, and its completion records go out (R263, R280, R314). The oscillator's rate goes on toward
the one asked for, an acceleration that is no longer allowed stops, and the root hands over once it may (R114, R126). Edges at the
capture inputs are settled, the verdicts are evaluated and an ODO record starts as the tick ends (R372, R383). -/
def State.passTick (s : State) : State :=
  let s := if s.alive then s.settleDoms.settleEdges.settleVerdicts.startOdo else s
  if !(s.alive && s.sun.counting) then s
  else
    let s := if s.isLeaf then s.applyPosts.takeTick else s
    let s := (s.modSun fun u => { u with now := u.now + htOf 1 }).rampRate.stopAccel.handOver
    let s := if s.isLeaf then s.hostEdges.bandTick else s
    s.lanesTick.flushAnswers.trySafe

end Sys2Proof.Machine
end

