-- ==== Sys2Proof/Machine/Dispatch.lean ====
section
/-! DEFINITION. The effect of each command on everything but the queue: one direct call of its meaning. -/

namespace Sys2Proof.Machine

def exec (i : Instr) (s : State) : Host.Outcome State Fault Refusal :=
  match i with
  | .rstAssert k => Sys2Proof.Machine.execRstAssert k s
  | .rstColdRelease xoSel => Sys2Proof.Machine.execRstColdRelease xoSel s
  | .rstWarmRelease => Sys2Proof.Machine.execRstWarmRelease s
  | .oscLock => Sys2Proof.Machine.execOscLock s
  | .rstLinkAssert p => Sys2Proof.Machine.execRstLinkAssert p s
  | .rstLinkRelease p => Sys2Proof.Machine.execRstLinkRelease p s
  | .pfailFirstHigh => Sys2Proof.Machine.execPfailFirstHigh s
  | .pfailAssert => Sys2Proof.Machine.execPfailAssert s
  | .pfailRingDrainEnd => Sys2Proof.Machine.execPfailRingDrainEnd s
  | .pfailCommitDone => Sys2Proof.Machine.execPfailCommitDone s
  | .mcForcedEdge m stamp => Sys2Proof.Machine.execMcForcedEdge m stamp s
  | .capInEdge n falling stamp => Sys2Proof.Machine.execCapInEdge n falling stamp s
  | .refInEdge n stamp widthNs => Sys2Proof.Machine.execRefInEdge n stamp widthNs s
  | .refEdgeMissing n => Sys2Proof.Machine.execRefEdgeMissing n s
  | .refFreqCheck n ppb => Sys2Proof.Machine.execRefFreqCheck n ppb s
  | .waitToRestoreEnd n => Sys2Proof.Machine.execWaitToRestoreEnd n s
  | .refAgreeCompare => Sys2Proof.Machine.execRefAgreeCompare s
  | .referenceConflictRepeat => Sys2Proof.Machine.execReferenceConflictRepeat s
  | .measureEnd => Sys2Proof.Machine.execMeasureEnd s
  | .holdHistoryStore => Sys2Proof.Machine.execHoldHistoryStore s
  | .accelStageEnd => Sys2Proof.Machine.execAccelStageEnd s
  | .electSettle => Sys2Proof.Machine.execElectSettle s
  | .standbyTakeoverTimer => Sys2Proof.Machine.execStandbyTakeoverTimer s
  | .noStandbyRootRepeat => Sys2Proof.Machine.execNoStandbyRootRepeat s
  | .claimHoldEnd => Sys2Proof.Machine.execClaimHoldEnd s
  | .pwPdAckRise d => Sys2Proof.Machine.execPwPdAckRise d s
  | .pwPdAckFall d => Sys2Proof.Machine.execPwPdAckFall d s
  | .powerDomainTimeout d => Sys2Proof.Machine.execPowerDomainTimeout d s
  | .bankClearDone d => Sys2Proof.Machine.execBankClearDone d s
  | .trCellHoldReq a level => Sys2Proof.Machine.execTrCellHoldReq a level s
  | .trRgnHoldReq region level => Sys2Proof.Machine.execTrRgnHoldReq region level s
  | .holdBitRx region level => Sys2Proof.Machine.execHoldBitRx region level s
  | .cellArrive a chan => Sys2Proof.Machine.execCellArrive a chan s
  | .cellContrib a ctl data => Sys2Proof.Machine.execCellContrib a ctl data s
  | .cellPost a obj op val => Sys2Proof.Machine.execCellPost a obj op val s
  | .hmResponse tag err data => Sys2Proof.Machine.execHmResponse tag err data s
  | .hmTimeout tag => Sys2Proof.Machine.execHmTimeout tag s
  | .registerWrite addr w => Sys2Proof.Machine.execRegisterWrite addr w s
  | .sunNowRead => Sys2Proof.Machine.execSunNowRead s
  | .snapshotRead addr => Sys2Proof.Machine.execSnapshotRead addr s
  | .capTsRead n => Sys2Proof.Machine.execCapTsRead n s
  | .preset => Sys2Proof.Machine.execPreset s
  | .tlEnSet p w => Sys2Proof.Machine.execTlEnSet p w s
  | .tlEnClear p w => Sys2Proof.Machine.execTlEnClear p w s
  | .retrain p => Sys2Proof.Machine.execRetrain p s
  | .calNow p => Sys2Proof.Machine.execCalNow p s
  | .accel => Sys2Proof.Machine.execAccel s
  | .reelect w => Sys2Proof.Machine.execReelect w s
  | .orgUtcOfsWrite w => Sys2Proof.Machine.execOrgUtcOfsWrite w s
  | .trEnWrite w => Sys2Proof.Machine.execTrEnWrite w s
  | .seat => Sys2Proof.Machine.execSeat s
  | .reseat region => Sys2Proof.Machine.execReseat region s
  | .seatingEnd m => Sys2Proof.Machine.execSeatingEnd m s
  | .copy => Sys2Proof.Machine.execCopy s
  | .trellisSetSwitch => Sys2Proof.Machine.execTrellisSetSwitch s
  | .clrStretch => Sys2Proof.Machine.execClrStretch s
  | .clrSat => Sys2Proof.Machine.execClrSat s
  | .bsClr => Sys2Proof.Machine.execBsClr s
  | .soClr => Sys2Proof.Machine.execSoClr s
  | .syncWinPost obj w => Sys2Proof.Machine.execSyncWinPost obj w s
  | .syncWinOp obj w => Sys2Proof.Machine.execSyncWinOp obj w s
  | .syncWinCfg obj w => Sys2Proof.Machine.execSyncWinCfg obj w s
  | .dgLayerHiWrite w => Sys2Proof.Machine.execDgLayerHiWrite w s
  | .ringEnSet n w => Sys2Proof.Machine.execRingEnSet n w s
  | .ringEnClear n w => Sys2Proof.Machine.execRingEnClear n w s
  | .ringStopped n => Sys2Proof.Machine.execRingStopped n s
  | .dbNudge w => Sys2Proof.Machine.execDbNudge w s
  | .doorbellPoll n => Sys2Proof.Machine.execDoorbellPoll n s
  | .load => Sys2Proof.Machine.execLoad s
  | .fwVerifyDone => Sys2Proof.Machine.execFwVerifyDone s
  | .chal => Sys2Proof.Machine.execChal s
  | .chalDrawn => Sys2Proof.Machine.execChalDrawn s
  | .chalExpire => Sys2Proof.Machine.execChalExpire s
  | .gateOpen scope => Sys2Proof.Machine.execGateOpen scope s
  | .gateExit => Sys2Proof.Machine.execGateExit s
  | .sessionTimeLimit => Sys2Proof.Machine.execSessionTimeLimit s
  | .rekey => Sys2Proof.Machine.execRekey s
  | .confirm => Sys2Proof.Machine.execConfirm s
  | .retire => Sys2Proof.Machine.execRetire s
  | .ship => Sys2Proof.Machine.execShip s
  | .fuseId => Sys2Proof.Machine.execFuseId s
  | .fuseKey => Sys2Proof.Machine.execFuseKey s
  | .lockoutEnd => Sys2Proof.Machine.execLockoutEnd s
  | .fcClr w => Sys2Proof.Machine.execFcClr w s
  | .force => Sys2Proof.Machine.execForce s
  | .fcInjReport w => Sys2Proof.Machine.execFcInjReport w s
  | .fcInjUnit w => Sys2Proof.Machine.execFcInjUnit w s
  | .fcInjCrc w => Sys2Proof.Machine.execFcInjCrc w s
  | .fcInjWire w => Sys2Proof.Machine.execFcInjWire w s
  | .fcInjSelf w => Sys2Proof.Machine.execFcInjSelf w s
  | .pdEnWrite d en => Sys2Proof.Machine.execPdEnWrite d en s
  | .bankOwnerWrite b code => Sys2Proof.Machine.execBankOwnerWrite b code s
  | .flush => Sys2Proof.Machine.execFlush s
  | .lgRdSelWrite w => Sys2Proof.Machine.execLgRdSelWrite w s
  | .ledgerReadDone => Sys2Proof.Machine.execLedgerReadDone s
  | .clrHard => Sys2Proof.Machine.execClrHard s
  | .hsClr => Sys2Proof.Machine.execHsClr s
  | .hsSparesWrite w => Sys2Proof.Machine.execHsSparesWrite w s
  | .hsFloorWrite w => Sys2Proof.Machine.execHsFloorWrite w s
  | .sparesStale => Sys2Proof.Machine.execSparesStale s
  | .winOpenNow n => Sys2Proof.Machine.execWinOpenNow n s
  | .winCloseNow n => Sys2Proof.Machine.execWinCloseNow n s
  | .capClr n => Sys2Proof.Machine.execCapClr n s
  | .bvClr => Sys2Proof.Machine.execBvClr s
  | .bistGo w => Sys2Proof.Machine.execBistGo w s
  | .bistDone firstFail => Sys2Proof.Machine.execBistDone firstFail s
  | .coreHalt w => Sys2Proof.Machine.execCoreHalt w s
  | .coreStep w => Sys2Proof.Machine.execCoreStep w s
  | .unsupportedOpcode u d => Sys2Proof.Machine.execUnsupportedOpcode u d s
  | .launchAt u d => Sys2Proof.Machine.execLaunchAt u d s
  | .barrierArm u d => Sys2Proof.Machine.execBarrierArm u d s
  | .signal u d => Sys2Proof.Machine.execSignal u d s
  | .swapAt u d => Sys2Proof.Machine.execSwapAt u d s
  | .cfgWrite u d => Sys2Proof.Machine.execCfgWrite u d s
  | .partitionOpen u d => Sys2Proof.Machine.execPartitionOpen u d s
  | .partitionClose u d => Sys2Proof.Machine.execPartitionClose u d s
  | .parkAt u d => Sys2Proof.Machine.execParkAt u d s
  | .windowSet u d => Sys2Proof.Machine.execWindowSet u d s
  | .dump u d => Sys2Proof.Machine.execDump u d s
  | .ledgerNote u d => Sys2Proof.Machine.execLedgerNote u d s
  | .captureArm u d => Sys2Proof.Machine.execCaptureArm u d s
  | .loadEnv u d => Sys2Proof.Machine.execLoadEnv u d s
  | .fence u d => Sys2Proof.Machine.execFence u d s
  | .fenceDone u => Sys2Proof.Machine.execFenceDone u s
  | .replayStart u d => Sys2Proof.Machine.execReplayStart u d s
  | .openNotReceived part => Sys2Proof.Machine.execOpenNotReceived part s
  | .launchCheck seq => Sys2Proof.Machine.execLaunchCheck seq s
  | .windowOpen sched => Sys2Proof.Machine.execWindowOpen sched s
  | .windowClose sched => Sys2Proof.Machine.execWindowClose sched s
  | .loadStep seq => Sys2Proof.Machine.execLoadStep seq s
  | .signalEntry seq => Sys2Proof.Machine.execSignalEntry seq s
  | .swap ptag => Sys2Proof.Machine.execSwap ptag s
  | .park seq => Sys2Proof.Machine.execPark seq s
  | .captureOpen seq => Sys2Proof.Machine.execCaptureOpen seq s
  | .captureClose seq => Sys2Proof.Machine.execCaptureClose seq s
  | .eventPresent a => Sys2Proof.Machine.execEventPresent a s
  | .beatSend p stamp => Sys2Proof.Machine.execBeatSend p stamp s
  | .beatRx p m stamp => Sys2Proof.Machine.execBeatRx p m stamp s
  | .beatTimeout p => Sys2Proof.Machine.execBeatTimeout p s
  | .acknakRx p seq nak => Sys2Proof.Machine.execAcknakRx p seq nak s
  | .trainRx p m => Sys2Proof.Machine.execTrainRx p m s
  | .nodeDownRx p m => Sys2Proof.Machine.execNodeDownRx p m s
  | .lastGaspRx p m => Sys2Proof.Machine.execLastGaspRx p m s
  | .flitErrorRx p f => Sys2Proof.Machine.execFlitErrorRx p f s
  | .stompedFlitRx f => Sys2Proof.Machine.execStompedFlitRx f s
  | .unknownFlitRx p type sequenced => Sys2Proof.Machine.execUnknownFlitRx p type sequenced s
  | .blockLock headers => Sys2Proof.Machine.execBlockLock headers s
  | .flitLock blocks => Sys2Proof.Machine.execFlitLock blocks s
  | .flitLockLost failed => Sys2Proof.Machine.execFlitLockLost failed s
  | .calibrateDone p => Sys2Proof.Machine.execCalibrateDone p s
  | .linkStateTimeout p => Sys2Proof.Machine.execLinkStateTimeout p s
  | .lostHoldEnd p => Sys2Proof.Machine.execLostHoldEnd p s
  | .downHeldEnd p => Sys2Proof.Machine.execDownHeldEnd p s
  | .replayTimeout p => Sys2Proof.Machine.execReplayTimeout p s
  | .forcedRetrain p => Sys2Proof.Machine.execForcedRetrain p s
  | .flitAging p => Sys2Proof.Machine.execFlitAging p s
  | .phyRecal p => Sys2Proof.Machine.execPhyRecal p s
  | .launchRx p m => Sys2Proof.Machine.execLaunchRx p m s
  | .swapRx p m => Sys2Proof.Machine.execSwapRx p m s
  | .parkRx p m => Sys2Proof.Machine.execParkRx p m s
  | .arriveRx p m tc => Sys2Proof.Machine.execArriveRx p m tc s
  | .arriveRedRx p m tc => Sys2Proof.Machine.execArriveRedRx p m tc s
  | .releaseRx p m => Sys2Proof.Machine.execReleaseRx p m s
  | .releaseRedRx p m => Sys2Proof.Machine.execReleaseRedRx p m s
  | .releaseDue ptag bid => Sys2Proof.Machine.execReleaseDue ptag bid s
  | .signalRx p m => Sys2Proof.Machine.execSignalRx p m s
  | .announceRx p m => Sys2Proof.Machine.execAnnounceRx p m s
  | .assignRx p m => Sys2Proof.Machine.execAssignRx p m s
  | .treeRx p m => Sys2Proof.Machine.execTreeRx p m s
  | .treeOfferRepeat => Sys2Proof.Machine.execTreeOfferRepeat s
  | .parentWaitEnd p => Sys2Proof.Machine.execParentWaitEnd p s
  | .electRx p m => Sys2Proof.Machine.execElectRx p m s
  | .mirrorRx p m => Sys2Proof.Machine.execMirrorRx p m s
  | .reportRepeat p => Sys2Proof.Machine.execReportRepeat p s
  | .delayRx p m => Sys2Proof.Machine.execDelayRx p m s
  | .delayPeriodic => Sys2Proof.Machine.execDelayPeriodic s
  | .locationExpire hwid => Sys2Proof.Machine.execLocationExpire hwid s
  | .partOpenRx p m => Sys2Proof.Machine.execPartOpenRx p m s
  | .partOpenAckRx p m => Sys2Proof.Machine.execPartOpenAckRx p m s
  | .partDeferredRx p m => Sys2Proof.Machine.execPartDeferredRx p m s
  | .partRefusedRx p m => Sys2Proof.Machine.execPartRefusedRx p m s
  | .partCloseRx p m => Sys2Proof.Machine.execPartCloseRx p m s
  | .partCloseAckRx p m => Sys2Proof.Machine.execPartCloseAckRx p m s
  | .partFaultRx p m => Sys2Proof.Machine.execPartFaultRx p m s
  | .healthRx p m => Sys2Proof.Machine.execHealthRx p m s
  | .openAckTimeout part => Sys2Proof.Machine.execOpenAckTimeout part s
  | .openTick part => Sys2Proof.Machine.execOpenTick part s
  | .closeTick part => Sys2Proof.Machine.execCloseTick part s
  | .quiescePoint part => Sys2Proof.Machine.execQuiescePoint part s
  | .deferTimeout part => Sys2Proof.Machine.execDeferTimeout part s
  | .reopenHoldEnd => Sys2Proof.Machine.execReopenHoldEnd s
  | .trellisWordRx level a w => Sys2Proof.Machine.execTrellisWordRx level a w s
  | .trellisPacketRx level a src words => Sys2Proof.Machine.execTrellisPacketRx level a src words s
  | .unitErrorReport a code cnt => Sys2Proof.Machine.execUnitErrorReport a code cnt s
  | .resultRx level a ctl data => Sys2Proof.Machine.execResultRx level a ctl data s
  | .checkSend => Sys2Proof.Machine.execCheckSend s
  | .regionClockSlip region => Sys2Proof.Machine.execRegionClockSlip region s
  | .laneClockLost level a child => Sys2Proof.Machine.execLaneClockLost level a child s
  | .hostClockWindow ends => Sys2Proof.Machine.execHostClockWindow ends s
  | .trellisAccessRetry write level a => Sys2Proof.Machine.execTrellisAccessRetry write level a s
  | .telemReport level a due => Sys2Proof.Machine.execTelemReport level a due s
  | .errorWireFault level a child => Sys2Proof.Machine.execErrorWireFault level a child s
  | .islandWireFault island => Sys2Proof.Machine.execIslandWireFault island s
  | .stepOverrun ptag => Sys2Proof.Machine.execStepOverrun ptag s
  | .overrunReadDone ptag region => Sys2Proof.Machine.execOverrunReadDone ptag region s
  | .loadLevelChange => Sys2Proof.Machine.execLoadLevelChange s
  | .pwLendRise => Sys2Proof.Machine.execPwLendRise s
  | .pwLendFall => Sys2Proof.Machine.execPwLendFall s
  | .resumeTick part => Sys2Proof.Machine.execResumeTick part s
  | .waitTimeout obj => Sys2Proof.Machine.execWaitTimeout obj s
  | .timerFire obj => Sys2Proof.Machine.execTimerFire obj s
  | .barrierTimeout bid => Sys2Proof.Machine.execBarrierTimeout bid s
  | .replayInject n => Sys2Proof.Machine.execReplayInject n s
  | .dumpAbandon => Sys2Proof.Machine.execDumpAbandon s
  | .faultReport src => Sys2Proof.Machine.execFaultReport src s
  | .collectorSelfFault => Sys2Proof.Machine.execCollectorSelfFault s
  | .sundialCheck => Sys2Proof.Machine.execSundialCheck s
  | .controlCoreWatchdog core => Sys2Proof.Machine.execControlCoreWatchdog core s
  | .safeDrainEnd => Sys2Proof.Machine.execSafeDrainEnd s
  | .odoInterval => Sys2Proof.Machine.execOdoInterval s
  | .pageProgramDone readBackOk => Sys2Proof.Machine.execPageProgramDone readBackOk s
  | .sectorEraseDone => Sys2Proof.Machine.execSectorEraseDone s
  | .ledgerScanDone answers idBytes => Sys2Proof.Machine.execLedgerScanDone answers idBytes s
  | .tempSample => Sys2Proof.Machine.execTempSample s
  | .healthWindowEnd => Sys2Proof.Machine.execHealthWindowEnd s
  | .healthCharge => Sys2Proof.Machine.execHealthCharge s
  | .tdcCalibrationDone failed => Sys2Proof.Machine.execTdcCalibrationDone failed s
  | .tdcRecal failed => Sys2Proof.Machine.execTdcRecal failed s
  | .trellisActionSample ix => Sys2Proof.Machine.execTrellisActionSample ix s
  | .contextSlotClearDone slot => Sys2Proof.Machine.execContextSlotClearDone slot s
  | .pwPfailLowSample => Sys2Proof.Machine.execPwPfailLowSample s
  | .trainSend p => Sys2Proof.Machine.execTrainSend p s
  | .ckXoEdgesCounted => Sys2Proof.Machine.execCkXoEdgesCounted s
  | .ckHmStop => Sys2Proof.Machine.execCkHmStop s
  | .vddGyOff => Sys2Proof.Machine.execVddGyOff s
  | .checkerPatternLock => Sys2Proof.Machine.execCheckerPatternLock s

end Sys2Proof.Machine
end

