-- ==== Sys2Proof/Safety.lean ====
section
/-!
DEFINITION. What the claims speak of: the units that a profile has, and the invariant of the block.
-/

namespace Sys2Proof.Machine

/-- The domain that a domain command names is one of the profile's switched domains (R60). -/
def State.hasDom (s : State) (d : BitVec 6) : Bool := 0 < d.toNat && d.toNat < s.profile.domains

/-- The port is one of the node's (R1). -/
def State.hasPort (s : State) (p : PortNo) : Bool := p.toNat < s.ports.length

/-- A unit that TR_GEOM holds, on a Leaf whose Trellis is powered and enabled (R163, R195). -/
def State.unitUp (s : State) (level : Level) (a : CellAddr) : Bool := s.isLeaf && s.pdOn 7 && s.tr.en && s.hasUnit level a

/-- The port has a partner and the node may use it: UP, not in the safe or the power-fail state (R82, R100, R101). -/
def State.portUp (s : State) (p : PortNo) : Bool := s.alive && s.hasPort p && (s.port p).st == .up && !s.mute

/-- A register write in domain `d` is answered and serviced (R39, R43, R47, R337). -/
def State.writable (s : State) (d : Nat) : Bool := s.pins.powered && s.pins.hmRunning && s.regOk d

/-- The supply is on and no reset is asserted or being left (R44, R45). -/
def State.isUp (s : State) : Bool := s.pins.powered && s.pins.rst == .none

/-- The second half of the pair holds the bit-wise complement of the first (R9). -/
def CPair.whole {n : Nat} (c : CPair n) : Bool := c.c == ~~~c.v

/-- R9, R333: every C-pair of the collector is whole. -/
def Collector.whole (f : Collector) : Bool :=
  f.first.whole && f.firstT.whole && f.ovf.whole && f.mask.whole && f.promote.whole && f.ceCnt.whole && f.hist.all CPair.whole

/-- R61, R62: outside a reset the pair fl_err_p, fl_err_n shows FC_FIRST.VALID; in a reset it shows no fault;
without the supply both are low. fl_halt is high in a reset and in the safe state. -/
def State.pinsTrue (s : State) : Bool :=
  s.pins.flErrP == (s.isUp && s.fc.valid) && s.pins.flErrN == (s.pins.powered && !s.pins.flErrP) &&
    s.pins.flHalt == (s.pins.powered && (s.pins.rst != .none || s.fc.safe))

/-- The invariant of the block: the memory of the banks has its canonical form, the collector's pairs are whole,
its pins show what it holds, a node in the safe state is up, and the tables of ports and domains have the
sizes of the profile. -/
def State.Inv (s : State) : Prop :=
  s.pw.wf = true ∧ s.fc.whole = true ∧ s.pinsTrue = true ∧ (s.fc.safe = true → s.isUp = true) ∧
    s.ports.length = s.profile.ports ∧ s.pw.doms.length = s.profile.domains

/-- Supply, reset and the fault pins. -/
@[reducible] def Pins.core (p : Pins) : Bool × RstSt × Bool × Bool × Bool × Bool := (p.powered, p.rst, p.edgesOwed, p.flErrP, p.flErrN, p.flHalt)

/-- The C-pairs of the collector, its history and the safe state. -/
@[reducible] def Collector.core (f : Collector) : CPair 64 × CPair 96 × CPair 32 × CPair 32 × CPair 32 × CPair 32 × List (CPair 256) × Bool :=
  (f.first, f.firstT, f.ovf, f.mask, f.promote, f.ceCnt, f.hist, f.safe)

/-- What the banks hold. -/
@[reducible] def Power.core (p : Power) : List Host.Cell × List (Nat × Nat) × Nat := (p.mem, p.scrambled, p.doms.length)

/-- The part of the state that most commands leave alone: the profile, the queue, supply, reset and fault pins, the
collector's record and the safe state, the bytes of the banks, and the sizes of the fixed tables. -/
def State.key (s : State) := (s.profile, s.pending, s.pins.core, s.fc.core, s.pw.core, s.ports.length)

/-- The commands that may change more of the key than the others: the resets and the supply, the reports to the
collector and its clear, and what writes, clears or scrambles banks. -/
def reachesKey (c : Instr) : Bool :=
  match c with
  | .rstAssert _ | .rstColdRelease _ | .rstWarmRelease | .ckXoEdgesCounted | .vddGyOff | .faultReport _ | .collectorSelfFault | .fcClr _ | .fcInjSelf _
  | .registerWrite _ _ | .hmResponse _ _ _ | .hmTimeout _ | .load | .fwVerifyDone | .pwPdAckRise _ | .pwPdAckFall _ | .powerDomainTimeout _ | .bankClearDone _
  | .pdEnWrite _ _ | .pfailAssert | .pfailRingDrainEnd | .bistGo _ => true
  | _ => false

end Sys2Proof.Machine
end

