-- ==== Sys2Proof/Certificates/Slice0/Obligations.lean ====
section
/-!
DEFINITION. The statements about the block, for the provers. Each names what it says; OBLIGATIONS.json gives its rule.
-/

open Sys2Proof Sys2Proof.Machine


/-- A step with a command waiting is that command on the state with the queue's rest: one step is one command. The form of the step is the model's (log
entry 1). -/
def Obligations.StepTakesFront : Prop :=  ∀ (s : State) (c : Instr) (rest : List Instr), s.pending = c :: rest → step s = exec c { s with pending := rest }

/-- With an empty queue a step lets one Sundial tick pass: the integer part of the Sundial advances by exactly 1 ns while it counts (R12, R13). While it
does not count hall time stands, and a block in reset or without supply is unchanged. Where no domain is ON with its EN at 0 (R344), the fault pins,
the record of the collector and every byte of the banks stay. That a step without a command is one tick is the model's choice (log entry 1). -/
def Obligations.EmptyQueueIsOneTick : Prop :=
  ∀ s : State, s.pending = [] →
    (s.alive = false → step s = .next s) ∧
    (s.alive = true → ∃ t, step s = .next t ∧ t.sun.now = s.sun.now + (if s.sun.counting then 65536 else 0) ∧ t.pending = [] ∧ t.profile = s.profile ∧
      (s.Inv → t.Inv) ∧
      ((∀ d < s.profile.domains, (s.dom d).st = .on → (s.dom d).en = true) →
        t.pins.core = s.pins.core ∧ t.fc.core = s.fc.core ∧ t.ports.length = s.ports.length ∧ ∀ a, t.pw.read a = s.pw.read a))

/-- What reset leaves (R44, R61, R62, R82, R297, R352, R359): the Sundial stopped at 0 in FREERUN, every port DISABLED, no partition, both context slots
FREE, the Trellis UNSEATED, rings off, no fault held, no fault on the pins, banks zero throughout, nothing sent, nothing waiting. -/
def Obligations.ResetLeavesNothingRunning : Prop :=
  State.reset.sun.counting = false ∧ State.reset.sun.now = 0 ∧ State.reset.sun.st = .freerun ∧ State.reset.ports.length = 8 ∧
    (∀ q ∈ State.reset.ports, q.st = .disabled ∧ q.en = false) ∧ State.reset.fab.parts = [] ∧
    State.reset.ctx0.st = .free ∧ State.reset.ctx1.st = .free ∧ State.reset.tr.seat = .unseated ∧ State.reset.tr.en = false ∧
    (∀ r ∈ State.reset.eng.rings, r.en = false) ∧ State.reset.eng.rings.length = 8 ∧
    State.reset.fc.valid = false ∧ State.reset.fc.safe = false ∧ State.reset.fc.hist = [] ∧
    State.reset.pins.flErrP = false ∧ State.reset.pins.flErrN = true ∧ State.reset.pins.flHalt = false ∧
    (∀ a, State.reset.pw.read a = 0) ∧ State.reset.out = [] ∧ State.reset.pending = []

/-- The invariant holds at reset. -/
def Obligations.InvariantAtReset : Prop := State.reset.Inv

/-- Every step keeps the invariant (R9, R61, R62, R333, R335, R338): the memory of the banks stays canonical, every C-pair of the collector stays whole,
the pins fl_err_p, fl_err_n and fl_halt show what the collector and the resets say, a node in the safe state is powered and out of reset, and the
port and domain tables keep the sizes of the profile. -/
def Obligations.InvariantKept : Prop := ∀ s t : State, s.Inv → step s = .next t → t.Inv

/-- Every command of the block answers a next state, or names a unit that the profile lacks; it leaves the queue behind it and the profile alone. -/
def Obligations.EveryCommandAnswers : Prop :=  ∀ (c : Instr) (s : State), (∃ t, exec c s = .next t ∧ t.pending = s.pending ∧ t.profile = s.profile) ∨ exec c s = .fault .absentUnit

/-- The frame of the commands: but for those of `reachesKey`, each leaves supply, reset and the fault pins, the record of the collector, the safe state,
every byte of the banks and the sizes of the port and domain tables as they were. -/
def Obligations.CommandFrame : Prop :=
  ∀ (c : Instr) (s t : State), reachesKey c = false → exec c s = .next t →
    t.pins.core = s.pins.core ∧ t.fc.core = s.fc.core ∧ t.ports.length = s.ports.length ∧ t.pw.doms.length = s.pw.doms.length ∧ ∀ a, t.pw.read a = s.pw.read a

/-- Only a reset leaves the safe state (R338), or the loss of the supply (R39). -/
def Obligations.OnlyResetLeavesSafeState : Prop :=  ∀ (c : Instr) (s t : State), s.Inv → s.fc.safe = true → exec c s = .next t → t.fc.safe = false → (∃ k, c = .rstAssert k) ∨ c = .vddGyOff

/-- Adding a duration (R17): the whole nanoseconds add modulo 2^64 at bits 79 to 16, and the fraction is kept. -/
def Obligations.DurationAddition : Prop :=  ∀ (t : HT80) (d : Nat), (htAdd t d).extractLsb' 16 64 = t.extractLsb' 16 64 + BitVec.ofNat 64 d ∧ (htAdd t d).extractLsb' 0 16 = t.extractLsb' 0 16

/-- The comparison of two times (R18) and the due tick (R19): the order by the difference modulo 2^80, across the wrap too; the due tick is the first
whole tick that is not before the time. -/
def Obligations.TimeComparison : Prop :=
  (∀ a b : HT80, (b - a = 0 → htLt a b = false ∧ htLe a b = true ∧ htLe b a = true) ∧
    (1 ≤ (b - a).toNat → (b - a).toNat ≤ 2 ^ 79 - 1 → htLt a b = true ∧ htLe a b = true ∧ htLe b a = false) ∧
    (2 ^ 79 ≤ (b - a).toNat → htLt a b = false ∧ htLe a b = false)) ∧
  (∀ t : HT80, (t.extractLsb' 0 16 = 0 → dueTick t = t.extractLsb' 16 64) ∧ (t.extractLsb' 0 16 ≠ 0 → dueTick t = t.extractLsb' 16 64 + 1) ∧
    htLe t (htOf (dueTick t)) = true ∧ htLt (htOf (dueTick t)) (htAdd t 1) = true)

/-- GY_VERSION at offset 0x0004 of the Identity page reads 0x0402_0000 (R4), whatever the state. -/
def Obligations.VersionRead : Prop :=
  ∀ s : State, s.pins.powered = true → s.pins.hmRunning = true → s.alive = true → ∃ t, exec (.snapshotRead 0x0004) s = .next t ∧ t.rp.err = false ∧
    t.rp.rdata = 0x04020000 ∧ t.rp.rdata.extractLsb' 24 8 = 4 ∧ t.rp.rdata.extractLsb' 16 8 = 2 ∧ t.rp.rdata.extractLsb' 8 8 = 0 ∧ t.rp.rdata.extractLsb' 0 8 = 0

/-- The election (R123, R125, R161): a node with PRIO 255 or in UNTRUSTED is no candidate; PRIO, then QUAL, then the hardware ID rank the claims, the
lower value first, so that of two claims of different hardware exactly one is better, and better claims chain. PRIO resets to 192 on a Leaf and 64
on a Hub. -/
def Obligations.ElectionOrder : Prop :=
  (∀ s : State, (s.org.prio = 0xFF ∨ s.sun.st = .untrusted) → s.candidate = false) ∧
  (∀ s : State, s.org.prio.toNat < 255 → s.sun.st ≠ .untrusted → s.elect.hold = false → s.coresHalted = false → s.candidate = true) ∧
  (∀ a b : ElectMsg, (a.prio.toNat < b.prio.toNat → claimBetter a b = true) ∧
    (a.prio = b.prio → a.qual.toNat < b.qual.toNat → claimBetter a b = true) ∧
    (a.prio = b.prio → a.qual = b.qual → (claimBetter a b = true ↔ a.hwid.toNat < b.hwid.toNat)) ∧
    (a.hwid ≠ b.hwid → claimBetter a b = !claimBetter b a)) ∧
  (∀ a b c : ElectMsg, claimBetter a b = true → claimBetter b c = true → claimBetter a c = true) ∧
  State.reset.org.prio = 192 ∧ (State.resetOf .hub).org.prio = 64

/-- RST_ASSERT (R44, R407). rst_cold_n leaves the fuses, the flash and what the pins bring; rst_warm_n leaves the collector's record, the mask and the
promotions, HARD, the priority, the asymmetry of each port and the place of the firmware image as well. Either stops the Sundial at 0, shows no
fault and raises fl_halt. In a cold reset a warm one changes nothing but the level of its own input (R45). -/
def Obligations.ResetAssertion : Prop :=
  ∀ s : State, s.pins.powered = true →
    (∃ t, exec (.rstAssert .cold) s = .next t ∧ t.pins.rst = .cold ∧ t.pins.flErrP = false ∧ t.pins.flErrN = true ∧
      t.pins.flHalt = true ∧ t.sun = {} ∧ t.fc = State.reset.fc ∧ t.fab = {} ∧ t.tr = {} ∧ t.hs = {} ∧ t.ctx0 = {} ∧ t.ctx1 = {} ∧
      t.eng.rings = List.replicate 8 {} ∧ t.gate = s.gate.fuses ∧ (∀ a, t.pw.read a = 0) ∧ t.profile = s.profile ∧
      (s.lg.job = none ∧ s.lg.erasing = none → t.lg = s.lg.flash)) ∧
    (s.pins.rst ≠ .cold → ∃ t, exec (.rstAssert .warm) s = .next t ∧ t.pins.rst = .warm ∧ t.pins.flErrP = false ∧ t.pins.flErrN = true ∧
      t.pins.flHalt = true ∧ t.sun = {} ∧ t.fc.first = s.fc.first ∧ t.fc.firstT = s.fc.firstT ∧ t.fc.hist = s.fc.hist ∧
      t.fc.mask = s.fc.mask ∧ t.fc.promote = s.fc.promote ∧ t.fc.ceCnt = cpair 0 ∧ t.fc.seq = s.fc.seq ∧ t.fc.safe = false ∧
      t.fc.wasSafe = s.fc.safe ∧ t.org.prio = s.org.prio ∧ t.org.osc = s.org.osc ∧ t.ports = s.ports.map (fun q => { asym := q.asym }) ∧
      t.fw.base = s.fw.base ∧ t.fw.len = s.fw.len ∧ t.fab.parts = [] ∧ t.tr = {} ∧ t.gate.life = s.gate.life ∧
      t.gate.locked = s.gate.locked ∧ t.gate.chal = none ∧ t.lg.journal = s.lg.journal ∧ t.lg.log = s.lg.log ∧
      (∀ a, t.pw.read a = 0) ∧ t.profile = s.profile) ∧
    (s.pins.rst = .cold → exec (.rstAssert .warm) s = .next (s.modPins fun p => { p with warmLow := true }))

/-- RST_COLD_RELEASE, RST_WARM_RELEASE and CK_XO_EDGES_COUNTED (R41, R45, R61, R62, R334, R388): with ck_xo the block is out of reset at once, without
it once 64 edges have been counted. A cold release samples the strap, reads the fuses and starts the scan of the flash; a warm release keeps the
collector's record if its pairs agree. fl_halt falls, and the fault pair shows FC_FIRST. While the other reset input is low the block stays in its
cold reset, and the release of the last one ends it. -/
def Obligations.ResetRelease : Prop :=
  ∀ (s : State) (k : BitVec 3), s.pins.powered = true →
    (s.pins.rst = .cold ∧ s.pins.warmLow = false ∧ s.pins.xoRunning = true → ∃ t, exec (.rstColdRelease k) s = .next t ∧ t.alive = true ∧ t.pins.xoSel = k ∧
      t.pins.hmRunning = true ∧ t.pins.flHalt = false ∧ t.pins.flErrP = s.fc.valid ∧ t.pins.flErrN = !s.fc.valid ∧ t.fc = s.fc ∧
      t.gate.life = lifeOf s.gate.lc ∧ t.gate.hwid = s.gate.hwidFuse ∧ t.lg.scanning = true ∧ t.ports = s.ports) ∧
    (s.pins.rst = .cold ∧ s.pins.warmLow = false ∧ s.pins.xoRunning = false → ∃ t, exec (.rstColdRelease k) s = .next t ∧ t.alive = false ∧
      t.pins.edgesOwed = true ∧ t.pins.xoSel = k ∧ t.gate = s.gate) ∧
    (s.pins.rst = .cold ∧ s.pins.warmLow = true → ∃ t, exec (.rstColdRelease k) s = .next t ∧ t.pins.rst = .cold ∧ t.pins.coldLow = false ∧
      t.pins.xoSel = k ∧ t.pins.flHalt = true ∧ t.gate = s.gate ∧ t.fc = s.fc) ∧
    (s.pins.rst = .cold ∧ s.pins.coldLow = false ∧ s.pins.warmLow = true ∧ s.pins.xoRunning = true → ∃ t, exec .rstWarmRelease s = .next t ∧
      t.alive = true ∧ t.pins.flHalt = false ∧ t.gate.life = lifeOf s.gate.lc ∧ t.lg.scanning = true) ∧
    (s.pins.rst = .warm ∧ s.pins.xoRunning = true ∧ s.fc.torn = false → ∃ t, exec .rstWarmRelease s = .next t ∧ t.alive = true ∧
      t.pins.xoSel = s.pins.xoSel ∧ t.pins.flHalt = false ∧ t.pins.flErrP = s.fc.valid ∧ t.pins.flErrN = !s.fc.valid ∧ t.fc = s.fc ∧
      t.gate = s.gate ∧ t.lg = s.lg) ∧
    (s.pins.rst = .warm ∧ s.pins.xoRunning = true ∧ s.fc.torn = true → ∃ t, exec .rstWarmRelease s = .next t ∧ t.alive = true ∧
      t.fc.first = cpair 0 ∧ t.fc.firstT = cpair 0 ∧ t.fc.ovf = cpair 0 ∧ t.fc.hist = [] ∧ t.fc.recLost = true ∧ t.pins.flErrP = false) ∧
    (s.pins.rst = .cold ∧ s.pins.edgesOwed = true → ∃ t, exec .ckXoEdgesCounted s = .next t ∧ t.alive = true ∧ t.pins.xoRunning = true ∧
      t.pins.xoSel = s.pins.xoSel ∧ t.gate.life = lifeOf s.gate.lc ∧ t.lg.scanning = true)

/-- OSC_LOCK, CK_HM_STOP and VDD_GY_OFF (R39, R42, R43, R351): the Sundial counts from 0 once the oscillator has locked; without ck_hm the register port
and the ring engine stand still; without VDD_GY every output is low and only the fuses and the flash are left. The five commands of a power failure
(R57, R349, R350, R373): the run of high samples begins and is broken, the node enters the state after F, the rings end, and the odometer's last
record seals the ledger. -/
def Obligations.SupplyAndPowerFailure : Prop :=
  (∀ s : State,
     (s.alive = true ∧ s.sun.counting = false ∧ s.xoOk = true ∧ s.pdOn 1 = true →
       exec .oscLock s = .next { s with sun := { s.sun with counting := true, now := 0 } }) ∧
     exec .ckHmStop s = .next { s with pins := { s.pins with hmRunning := false } } ∧
     (s.pins.powered = true → ∃ t, exec .vddGyOff s = .next t ∧ t.pins.powered = false ∧ t.alive = false ∧ t.pins.flErrP = false ∧
       t.pins.flErrN = false ∧ t.pins.flHalt = false ∧ t.pins.mcWin = 0 ∧ t.pins.loadTarget = 0 ∧ t.pins.lend = false ∧
       t.gate = s.gate.fuses ∧ (∀ d, (t.dom d).ack = false) ∧ t.fc = State.reset.fc ∧ (∀ a, t.pw.read a = 0))) ∧
  (∀ s : State, s.alive = true →
     (s.sun.counting = true → exec .pfailFirstHigh s = .next { s with pins := { s.pins with
       pfail := true, pfailRun := some (s.pins.pfailRun.getD s.tick) } }) ∧
     exec .pwPfailLowSample s = .next { s with pins := { s.pins with pfail := false, pfailRun := none } } ∧
     (∀ t0, s.pins.pfailRun = some t0 → s.pw.pfail = false → tickLe (t0 + BitVec.ofNat 64 (8 * (s.pw.filt.toNat + 1))) s.tick = true →
       exec .pfailAssert s = .next (s.enterPfail t0)) ∧
     (s.pw.pfail = true ∧ s.pw.drained = false ∧ s.pw.shed = false ∧ (tickLe (s.pw.pfailAt + 100000) s.tick = true ∨ s.fc.inbox = [] ∧ s.eng.busy = false) →
       exec .pfailRingDrainEnd s = .next (s.hush.modPw fun p => { p with drained := true })) ∧
     (s.pw.pfail = true ∧ s.lg.job = some (.odo true) → ∃ t, exec .pfailCommitDone s = .next t ∧ t.lg.sealed = true ∧ t.pw.committed = true ∧
       t.pw = { s.pw with committed := true } ∧ t.pins = s.pins ∧ t.fc = s.fc))

/-- The commands of the power domains (R60, R342 to R346, R355): a request and its acknowledgement, the failure of either, the clear of a group of
banks, and the owner of a bank. PD_EN_WRITE and BANK_OWNER_WRITE (R342, R344, R355). With the domains that it requires ON, an OFF domain is asked to
wake; with nothing that holds it, an ON domain is reset and asked to fall. A bank whose owner nothing holds takes a legal owner. -/
def Obligations.PowerDomains : Prop :=
  (∀ (s : State) (d : BitVec 6), s.alive = true → s.hasDom d = true →
     ((s.dom d.toNat).ack = false ∧ (s.dom d.toNat).req = true ∧ (s.dom d.toNat).st = .waking ∧ s.domBanks d.toNat = [] →
       exec (.pwPdAckRise d) s = .next ((s.modDom d.toNat fun x => { x with ack := true, since := none }).domOn d.toNat)) ∧
     ((s.dom d.toNat).ack = false ∧ (s.dom d.toNat).req = true ∧ (s.dom d.toNat).st = .waking ∧ s.domBanks d.toNat ≠ [] →
       exec (.pwPdAckRise d) s = .next (s.modDom d.toNat fun x => { x with ack := true, since := none, clearing := true })) ∧
     ((s.dom d.toNat).ack = true ∧ (s.dom d.toNat).req = false ∧ (s.dom d.toNat).st = .shutting ∧ (s.dom d.toNat).en = false →
       exec (.pwPdAckFall d) s = .next (s.modDom d.toNat fun x => { x with ack := false, since := none, st := .off })) ∧
     ((s.dom d.toNat).ack = true ∧ (s.dom d.toNat).req = true →
       exec (.pwPdAckFall d) s = .next ((s.modDom d.toNat fun x => { x with ack := false }).domFail d.toNat 2)) ∧
     (∀ t, (s.dom d.toNat).since = some t → tickLe (t + 1000001) s.tick = true →
       exec (.powerDomainTimeout d) s = .next (s.domFail d.toNat 1)) ∧
     ((s.dom d.toNat).ack = false ∧ (s.dom d.toNat).req = false → exec (.pwPdAckRise d) s = .next (s.modDom d.toNat Domain.lateAck)) ∧
     ((s.dom d.toNat).st = .waking ∧ (s.dom d.toNat).clearing = true ∧ (s.dom d.toNat).en = true → ∃ t,
       exec (.bankClearDone d) s = .next t ∧ (t.dom d.toNat).st = .on ∧ (t.dom d.toNat).clearing = false ∧
         (∀ a, a / 2 ^ 19 ∈ s.domBanks d.toNat → t.pw.read a = 0) ∧
         ∀ a, a / 2 ^ 19 ∉ s.domBanks d.toNat → t.pw.read a = s.pw.read a)) ∧
  (∀ (s : State) (d : BitVec 6) (b : BitVec 5) (c : BitVec 4), s.writable 0 = true →
     (1 < d.toNat ∧ d.toNat < s.profile.domains ∧ s.emptyDom d.toNat = false ∧ (s.dom d.toNat).en = false ∧ (s.dom d.toNat).st = .off ∧
         (s.domNeeds d.toNat).all s.pdOn = true →
       exec (.pdEnWrite d true) s = .next ((s.modDom d.toNat fun x => { x with
         en := true, st := .waking, req := true, since := some s.tick }).rpOk)) ∧
     (1 < d.toNat ∧ d.toNat < s.profile.domains ∧ s.emptyDom d.toNat = false ∧ (s.dom d.toNat).en = false ∧
         (s.domNeeds d.toNat).all s.pdOn = false → exec (.pdEnWrite d true) s = .next s.rpErr) ∧
     (1 < d.toNat ∧ d.toNat < s.profile.domains ∧ s.emptyDom d.toNat = false ∧ (s.dom d.toNat).en = true ∧ s.domHeld d.toNat = true →
       exec (.pdEnWrite d false) s = .next s.rpErr) ∧
     (1 < d.toNat ∧ d.toNat < s.profile.domains ∧ s.emptyDom d.toNat = false ∧ (s.dom d.toNat).en = true ∧ (s.dom d.toNat).st = .on ∧
         s.domHeld d.toNat = false →
       exec (.pdEnWrite d false) s = .next (((s.modDom d.toNat fun x => { x with en := false }).startShut d.toNat).rpOk)) ∧
     (b.toNat < s.profile.banks ∧ (s.pw.owners.getD b.toNat 0 = 0 ∨ s.pw.owners.getD b.toNat 0 = 1) ∧ c.toNat ≤ 9 →
       exec (.bankOwnerWrite b c) s = .next (({ s with pw := { s.pw with owners := s.pw.owners.set b.toNat c } } : State).rpOk)) ∧
     (s.profile.banks ≤ b.toNat ∨ (9 < c.toNat ∧ c.toNat < 15) ∨ s.pw.owners.getD b.toNat 0 = 8 →
       exec (.bankOwnerWrite b c) s = .next s.rpErr))

/-- REF_IN_EDGE (R105, R106): what an edge does, by the TYPE declared for its input. An undeclared input is deaf. A 1PPS of a wrong width is
disqualified; the criterion's number is a free value (log entry 25). A first 1PPS makes the input good, a later one within 1 µs of its prediction keeps
it so; the first miss is a phase hit and the second disqualifies. A first edge of a frequency only begins the measurement, and a later one within 5 %
of the period makes the input good. What an input that neither leads nor is measured is predicted to do is a whole number of seconds after its
latest edge (the model's reading, log entry 25). -/
def Obligations.ReferenceEdge : Prop :=
  ∀ (s t : State) (n : BitVec 2) (stamp : HT80) (w : BitVec 32), s.alive = true → s.hasRef n.toNat = true →
    t = (s.modIn n.toNat fun i => { i with lastEdge := some stamp, expect := some stamp }) →
    ((s.refIn n.toNat).type = 0 → exec (.refInEdge n stamp w) s = .next s.requalify) ∧
    ((s.refIn n.toNat).type = 1 ∧ (w.toNat < 1000 ∨ 500000000 < w.toNat) → exec (.refInEdge n stamp w) s =
      .next ((t.disqualify n.toNat ((Config.anyWord s.freeIx).setWidth 8)).drew).requalify) ∧
    ((s.refIn n.toNat).type = 1 ∧ 1000 ≤ w.toNat ∧ w.toNat ≤ 500000000 →
      ((s.refIn n.toNat).expect = none → exec (.refInEdge n stamp w) s = .next (t.refGood n.toNat).requalify) ∧
      (∀ e, (s.refIn n.toNat).expect = some e →
        ((s.ppsError n.toNat e stamp).natAbs ≤ 65536000 → exec (.refInEdge n stamp w) s =
          .next ((((t.modIn n.toNat fun i => { i with misses := 0 }).refGood n.toNat).useEdge n.toNat stamp).requalify)) ∧
        (65536000 < (s.ppsError n.toNat e stamp).natAbs ∧ (s.refIn n.toNat).misses = 0 → exec (.refInEdge n stamp w) s =
          .next ((s.modIn n.toNat fun i => { i with misses := 1, phaseHit := true, lastEdge := some stamp }).requalify)) ∧
        (65536000 < (s.ppsError n.toNat e stamp).natAbs ∧ (s.refIn n.toNat).misses ≠ 0 → exec (.refInEdge n stamp w) s =
          .next ((t.disqualify n.toNat 0x04).requalify)))) ∧
    ((s.refIn n.toNat).type = 2 ∨ (s.refIn n.toNat).type = 3 →
      ((s.refIn n.toNat).lastEdge = none → exec (.refInEdge n stamp w) s = .next t.requalify) ∧
      (∀ e, (s.refIn n.toNat).lastEdge = some e →
        ((htDiff stamp e - refPeriod (s.refIn n.toNat).type).natAbs * 20 ≤ refPeriod (s.refIn n.toNat).type → exec (.refInEdge n stamp w) s =
          .next (((t.refGood n.toNat).useEdge n.toNat stamp).requalify)) ∧
        (refPeriod (s.refIn n.toNat).type < (htDiff stamp e - refPeriod (s.refIn n.toNat).type).natAbs * 20 → exec (.refInEdge n stamp w) s =
          .next ((t.disqualify n.toNat 0x02).requalify)))) ∧
    (∀ e, s.sun.isRoot = false → s.ppsError n.toNat e stamp =
      htDiff stamp e - max 1 ((htDiff stamp e + 32768000000000).fdiv 65536000000000) * 65536000000000) ∧
    (refPeriod 1 = 65536000000000 ∧ refPeriod 2 = 6553600 ∧ refPeriod 3 = 2621440)

/-- REF_EDGE_MISSING, REF_FREQ_CHECK and WAIT_TO_RESTORE_END (R105, R108): no edge in time and a frequency beyond 100 ppm disqualify; ten seconds good
restore. REF_AGREE_COMPARE and REFERENCE_CONFLICT_REPEAT (R108, R109): a pair of equal rank that differs by more than LIMIT marks both its inputs, and
the mark of a pair goes after a whole window at or below 80 % of LIMIT; the CE is raised when a pair becomes suspect and again every 60 s while a
mark stands. -/
def Obligations.ReferenceQualification : Prop :=
  (∀ (s : State) (n : BitVec 2), s.alive = true → s.hasRef n.toNat = true →
     (∀ e, (s.refIn n.toNat).lastEdge = some e → (s.refIn n.toNat).type ≠ 0 → htLe (htAdd e (missingLimit (s.refIn n.toNat).type)) s.stamp = true →
       exec (.refEdgeMissing n) s = .next (((s.disqualify n.toNat 0x01).modIn n.toNat fun i => { i with lastEdge := none, expect := none }).requalify)) ∧
     (∀ ppb : BitVec 32, ((s.refIn n.toNat).type = 1 ∨ ((s.refIn n.toNat).type ≠ 0 ∧ ppb.toInt.natAbs ≤ 100000)) →
       exec (.refFreqCheck n ppb) s = .next ((s.modIn n.toNat fun i => { i with freqs := (ppb.toInt :: i.freqs).take 100 }).requalify)) ∧
     (∀ ppb : BitVec 32, ((s.refIn n.toNat).type = 2 ∨ (s.refIn n.toNat).type = 3) → 100000 < ppb.toInt.natAbs →
       exec (.refFreqCheck n ppb) s =
         .next (((s.modIn n.toNat fun i => { i with freqs := (ppb.toInt :: i.freqs).take 100 }).disqualify n.toNat 0x03).requalify)) ∧
     (∀ t, (s.refIn n.toNat).goodSince = some t → (s.refIn n.toNat).act = true → (s.refIn n.toNat).qual = false →
       tickLe (t + 10000000000) s.tick = true →
       exec (.waitToRestoreEnd n) s = .next (((s.modIn n.toNat fun i => { i with qual := true, wtr := false }).runSelection).requalify))) ∧
  ((∀ s : State, s.alive = true → exec .refAgreeCompare s =
     .next (((List.range 6).foldl State.comparePair (s.applyDecl.modOrg fun o => { o with diff := 0 })).modOrg Org.markSuspects).runSelection.requalify) ∧
   (∀ (s : State) (k a b d w : Nat), refPairs[k]? = some (a, b) → s.pairDiff a b = some (d, w) → s.org.limit.toNat < d → s.org.pairs.length = 6 →
     s.org.ins.length = 4 →
     (((s.comparePair k).modOrg Org.markSuspects).refIn a).suspect = true ∧ (((s.comparePair k).modOrg Org.markSuspects).refIn b).suspect = true ∧
       (s.comparePair k).fc.inbox = s.fc.inbox ++ (if (s.org.pairs.getD k {}).conflict then [] else
         [{ code := ce 0x02 0x01, loc := 0, partV := false, ptag := 0, stamp := s.stamp, detail := detail [(24, 1, a), (25, 1, b), (26, 2, min d 65535)] }])) ∧
   (∀ (q : RefPair) (d w lim : Nat), q.conflict = true → d * 5 ≤ lim * 4 →
     q.compare d w lim = if w ≤ q.calm + 1 then {} else { q with calm := q.calm + 1 }) ∧
   (∀ s : State, s.alive = true →
     (∀ k, tickLe (s.org.conflictAt + 60000000000) s.tick = true → (List.range 6).find? (fun k => (s.org.pairs.getD k {}).conflict) = some k →
       exec .referenceConflictRepeat s = .next ((s.raiseNow (ce 0x02 0x01) 0 none (detail [(24, 1, (refPairs.getD k (0, 0)).1),
         (25, 1, (refPairs.getD k (0, 0)).2), (26, 2, min (((s.pairDiff (refPairs.getD k (0, 0)).1 (refPairs.getD k (0, 0)).2).map (·.1)).getD 0) 65535)])).modOrg
           fun o => { o with conflictAt := s.tick })) ∧
     ((∀ k < 6, (s.org.pairs.getD k {}).conflict = false) → exec .referenceConflictRepeat s = .next s)))

/-- MEASURE_END, HOLD_HISTORY_STORE and ACCEL_STAGE_END (R112 to R115, R119, R120): a switch is committed after 4 or 1,024 edges; a second of LOCKED
at stage 4 enters the history of 512, one of HOLDOVER is stored as invalid and counts in AGE; the dwell of a stage ends in the next stage, in LOCKED
or in a repetition, and the fifth failure raises the CE and starts again. While a partition is open in the fabric the root stops accelerating. -/
def Obligations.OrangeryTimers : Prop :=
  ∀ s : State, s.alive = true →
    (∀ m n, s.org.measure = some m → selInput s.org.target = some n → s.org.switching = true →
      (if (s.refIn n).type = 1 then 4 else 1024) ≤ m.edges → exec .measureEnd s = .next (s.commitSwitch n m).runSelection.requalify) ∧
    (tickLe (s.org.histAt + 1000000000) s.tick = true ∧ s.sun.st = .locked ∧ s.org.dirty = false ∧ s.org.stage = 4 ∧ s.org.switching = false ∧ s.org.accel = false →
      exec .holdHistoryStore s = .next (State.requalify { s with org := { s.org with
        hist := (some ((s.org.rateAcc + s.org.rate * (s.tick - s.org.rateSince).toNat).fdiv 1000000000) :: s.org.hist).take 512
        lockedS := s.org.lockedS + 1, rateAcc := 0, rateSince := s.tick, dirty := false, histAt := s.tick } })) ∧
    (tickLe (s.org.histAt + 1000000000) s.tick = true ∧ s.sun.st = .holdover →
      exec .holdHistoryStore s = .next (State.requalify { s with org := { s.org with
        hist := (none :: s.org.hist).take 512, age := satInc s.org.age, rateAcc := 0, rateSince := s.tick, dirty := true, histAt := s.tick } })) ∧
    (s.org.accel = true ∧ s.sun.isRoot = true ∧ s.fabricOpen = true → exec .accelStageEnd s = .next { s with org := { s.org with
      accel := false, stage := 4, reps := 0, belowSince := none } }) ∧
    (s.org.accel = true ∧ s.org.srcType ≠ 0 ∧ ¬(s.sun.isRoot = true ∧ s.fabricOpen = true) ∧
        tickLe (s.org.stageSince + BitVec.ofNat 64 (stageDwell s.org.srcType s.org.stage.toNat)) s.tick = true →
      (s.org.stage.toNat < 3 → exec .accelStageEnd s = .next { s with org := { s.org with stage := s.org.stage + 1, stageSince := s.tick } }) ∧
      (3 ≤ s.org.stage.toNat ∧ s.org.perr.toInt.natAbs < (unitsToPs (lockLimit s.org.srcType)).natAbs ∧ s.sun.st ≠ .untrusted ∧ s.sun.st ≠ .locked →
        ∃ t, exec .accelStageEnd s = .next t ∧ t.sun.st = .locked ∧ t.org.stage = 4 ∧ t.org.accel = false ∧ t.org.age = 0 ∧
          t.org.rateAtLock = s.org.rate ∧ t.org.everLocked = true ∧ t.fc = s.fc ∧ t.ports = s.ports ∧ t.sun.now = s.sun.now) ∧
      (3 ≤ s.org.stage.toNat ∧ s.org.perr.toInt.natAbs < (unitsToPs (lockLimit s.org.srcType)).natAbs ∧ s.sun.st = .locked →
        exec .accelStageEnd s = .next { s with org := { s.org with stage := 4, accel := false, reps := 0, rateAtLock := s.org.rate } }) ∧
      (3 ≤ s.org.stage.toNat ∧ (unitsToPs (lockLimit s.org.srcType)).natAbs ≤ s.org.perr.toInt.natAbs ∧ s.org.reps < 4 →
        exec .accelStageEnd s = .next { s with org := { s.org with reps := s.org.reps + 1, stageSince := s.tick } }) ∧
      (3 ≤ s.org.stage.toNat ∧ (unitsToPs (lockLimit s.org.srcType)).natAbs ≤ s.org.perr.toInt.natAbs ∧ 4 ≤ s.org.reps →
        exec .accelStageEnd s = .next (s.raiseNow (ce 0x02 0x02) 0 none (detail [(24, 1, s.org.srcType.toNat), (26, 2, s.org.perr.toNat)])).startAccel))

/-- ELECT_SETTLE, CLAIM_HOLD_END, STANDBY_TAKEOVER_TIMER and NO_STANDBY_ROOT_REPEAT (R125, R127, R129, R131, R161, R397): when a node takes the root
role: an elected node, and a standby whose copy is complete (log entry 24). What a node that takes the root role is (R130, R133): root and
not standby, hop count 0, without parent or withdrawal, with the node ID that it had, or 0 if it had none. TREE_OFFER_REPEAT, PARENT_WAIT_END,
REPORT_REPEAT, DELAY_PERIODIC and LOCATION_EXPIRE (R107, R133 to R135, R137, R141, R142). -/
def Obligations.TreeRoleAndTimers : Prop :=
  ((∀ s : State, s.alive = true → s.candidate = true → s.sun.isRoot = false → s.elect.parent = none → s.elect.root = noNode ∨ s.elect.handed = true →
     tickLe (s.elect.improvedAt + 200000) s.tick = true → (∃ b, s.elect.best = some b ∧ b.hwid = s.gate.hwid) →
     exec .electSettle s = .next s.takeRoot) ∧
   (∀ s : State, s.alive = true → s.candidate = true → s.sun.isRoot = false → s.elect.parent = none → s.elect.root ≠ noNode → s.elect.handed = false →
     s.elect.withdrawn = true → tickLe (s.elect.improvedAt + 200000) s.tick = true → (∃ b, s.elect.best = some b ∧ b.hwid = s.gate.hwid) →
     exec .electSettle s = .next (State.takeRoot ((if s.standing = [] then s else s.raiseNow (uc 0x04 0x05) 0 (soleTag s.standing)).modFab fun b => { b with
       reopenAt := some (s.tick + 1000000), gens := [], genBase := 63, defer := [], staged := [] }))) ∧
   (∀ (s : State) (t : Tick), s.alive = true → s.elect.rootLostAt = some t → s.sun.isStandby = true → tickLe (t + 2000) s.tick = true →
     (s.elect.mirrorDone = true → exec .standbyTakeoverTimer s = .next s.takeRoot) ∧
     (s.elect.mirrorDone = false → s.elect.parent ≠ none → exec .standbyTakeoverTimer s =
       .next ((s.modSun fun u => { u with isStandby := false }).modElect fun e => { e with rootLostAt := none, rootPort := none }))) ∧
   (∀ s : State, s.alive = true → s.sun.isRoot = true → s.elect.standbyPort = none → tickLe (s.fab.noStandbyAt + 60000000000) s.tick = true →
     exec .noStandbyRootRepeat s = .next s.chooseStandby ∧
       (s.standbyChoice = none → s.chooseStandby = (((s.modElect fun e => { e with mirrorDone := false }).raiseNow (ce 0x02 0x03)).modFab
         fun b => { b with noStandbyAt := s.tick, shown := [] }))) ∧
   (∀ (s : State) (t : Tick), s.alive = true → s.elect.hold = true → s.elect.firstUp = some t → tickLe (t + 2000000) s.tick = true →
     s.upPorts ≠ [] → exec .claimHoldEnd s = .next (s.modElect fun e => { e with hold := false }).sendClaim)) ∧
  (∀ s : State, s.takeRoot.sun.isRoot = true ∧ s.takeRoot.sun.isStandby = false ∧ s.takeRoot.elect.hops = 0 ∧ s.takeRoot.elect.parent = none ∧
     s.takeRoot.elect.withdrawn = false ∧ s.takeRoot.elect.rootLostAt = none ∧
     s.takeRoot.elect.node = (if s.elect.node = noNode then 0 else s.elect.node) ∧ s.takeRoot.elect.root = s.takeRoot.elect.node ∧
     s.takeRoot.sun.now = s.sun.now) ∧
  (∀ (s : State) (p : PortNo), s.alive = true →
     (tickLe (s.elect.offerAt + 1000000) s.tick = true → exec .treeOfferRepeat s = .next (if s.elect.withdrawn then s.withdraw else s.sendOffers)) ∧
     (∀ t c, s.hasPort p = true → s.offers p = some t → s.elect.parent = some c → p ≠ c →
       t.hops.toNat < ((s.port c).tree.map (·.hops.toNat)).getD 255 → s.tenSeconds (s.port p).offeringSince = true →
       s.tenSeconds (s.port p).qualSince = true →
       exec (.parentWaitEnd p) s = .next ((s.modPort p fun q => { q with returned := false }).setParent p)) ∧
     (s.hasPort p = true → (s.port p).partnerNode = noNode → exec (.reportRepeat p) s = .next (s.reportChild p)) ∧
     exec .delayPeriodic s = .next (s.upPorts.foldl State.reportDelay s).reportLtr ∧
     (∀ r, s.nodeRow r.hwid = some r → s.sun.isRoot = true → r.live = true → tickLe (r.seenAt + 20000000000) s.tick = true →
       exec (.locationExpire r.hwid) s = .next (s.modNode r.hwid fun r => { r with live := false })))

/-- The states of a port (R45, R75, R82, R83, R89): locks and timers move it; each move dates the new state. 64 valid sync headers make block lock, 8
flits in a row that pass their CRC on one phase make flit lock. The limits of R82: 10 ms in TRAIN, 100 µs in ALIGN and NEGOTIATE, 1 ms in CALIBRATE,
none elsewhere. -/
def Obligations.LinkStates : Prop :=
  (∀ (s : State) (p : PortNo), s.alive = true → s.hasPort p = true →
     (∀ h, (s.port p).st = .train → headersLock h = true → exec (.blockLock (p, h)) s =
       .next (s.modPort p fun q => { q with st := .align, since := s.tick })) ∧
     (∀ h, (s.port p).st ≠ .train ∨ headersLock h = false → exec (.blockLock (p, h)) s = .next s) ∧
     (∀ l k, (s.port p).st = .align → flitPhase l = some k → exec (.flitLock (p, l)) s = .next ((s.modPort p fun q => { q with
       negDone := false, partnerNeg := false, partnerCal := false, lockPhase := BitVec.ofNat 2 k }).enterSt p .negotiate)) ∧
     (∀ n, (s.port p).st.limit = some n → tickLe ((s.port p).since + BitVec.ofNat 64 n) s.tick = true →
       exec (.linkStateTimeout p) s = .next ((s.modPort p Port.clearLink).enterSt p .train)) ∧
     ((s.port p).st = .lost ∧ tickLe ((s.port p).since + 10000) s.tick = true →
       exec (.lostHoldEnd p) s = .next (s.modPort p fun q => { q with st := .train, since := s.tick })) ∧
     ((s.port p).st = .downHeld ∧ tickLe ((s.port p).lastNodeDown + 512) s.tick = true →
       exec (.downHeldEnd p) s = .next (s.modPort p fun q => { q with st := .train, since := s.tick })) ∧
     ((s.port p).st = .calibrate ∧ (s.port p).partnerCal = false → exec (.calibrateDone p) s =
       .next ((s.measurePath p).modPort p fun q => { q with calDone := true })) ∧
     ((s.port p).st = .up ∧ tickLe ((s.port p).calAt + 1000000000) s.tick = true → exec (.phyRecal p) s = .next (s.measurePath p)) ∧
     (s.measurePath p = s.drew.modPort p fun q => { q with
       latTx := (Config.pathLatency s.freeIx).extractLsb' 0 32, latRx := (Config.pathLatency s.freeIx).extractLsb' 32 32, calAt := s.tick }) ∧
     ((s.port p).st ≠ .up → exec (.rstLinkAssert p) s = .next ((s.modPins fun x => { x with linkLow := setBit x.linkLow p.toNat }).modPort p
       fun q => { q.clearPartner with st := .disabled, since := s.tick })) ∧
     ((s.port p).en = true ∧ (s.port p).st = .disabled ∧ s.mute = false → exec (.rstLinkRelease p) s =
       .next ((s.modPins fun x => { x with linkLow := setBit x.linkLow p.toNat false }).modPort p fun q => { q with st := .train, since := s.tick }))) ∧
  (LinkSt.train.limit = some 10000000 ∧ LinkSt.align.limit = some 100000 ∧ LinkSt.negotiate.limit = some 100000 ∧
     LinkSt.calibrate.limit = some 1000000 ∧ ∀ st : LinkSt, st ∉ [.train, .align, .negotiate, .calibrate] → st.limit = none)

/-- The ways in which a port in UP is lost (R44, R75, R82, R83, R96, R99, R102, R329, R330): reason code, next state, counters and the sticky bits, the
link's own state cleared, and "port lost" raised with the port as its place. A port in its orderly exit goes to DISABLED. -/
def Obligations.PortLoss : Prop :=
  (∀ (s : State) (p : PortNo) (reason : Nat) (dest : LinkSt) (nd : Byte) (f : BitVec 16), (s.port p).st = .up → s.mute = false →
    s.portLost p reason dest nd f = (((s.modPort p fun q => { q.clearLink with
      st := (if (s.port p).exiting = 0 then dest else .disabled), since := s.tick, loss := true, gasp := q.gasp || reason == 2, ndown := q.ndown || reason == 3,
      losses := satInc q.losses, retrain := satInc q.retrain, returned := true, lastNodeDown := s.tick }).raiseNow (uc 0x03 0x03) (portLoc p)
      (s.partOnPort p) (detail [(24, 1, reason), (25, 1, nd.toNat), (26, 3, (s.port p).partnerNode.toNat), (30, 2, f.toNat)])).portGone p
        (reason == 2 || reason == 3) true)) ∧
  (∀ (s : State) (p : PortNo), s.alive = true → s.hasPort p = true → (s.port p).st = .up →
    (∀ t, (s.port p).lastBeat = some t → htLe (htAdd t (if (s.port p).rev = 4 then 1024 else 512)) s.stamp = true →
      exec (.beatTimeout p) s = .next (s.portLost p 1 .lost)) ∧
    (∀ m, (s.port p).rev ≠ 4 → s.mute = false → exec (.lastGaspRx p m) s =
      .next ((s.traced s.arrival 0 p (lastGaspHead m)).drew.portLost p 2 .lost)) ∧
    (∀ m, exec (.nodeDownRx p m) s = .next ((s.traced s.arrival 0 p (nodeDownHead m)).drew.portLost p 3 .downHeld m.reason
      (if m.reason = 2 then m.fault else 0))) ∧
    (∀ w b, lockFails w = true ∨ b = true → exec (.flitLockLost (p, w, b)) s = .next (s.portLost p 4 .lost)) ∧
    (∀ w, lockFails w = false → exec (.flitLockLost (p, w, false)) s = .next s) ∧
    ((s.port p).replay ≠ [] ∧ (8 ≤ (s.port p).sameStart ∨ tickLe ((s.port p).ackAt + 16000) s.tick = true) →
      exec (.forcedRetrain p) s = .next (s.portLost p 5 .lost)) ∧
    (s.mute = false → exec (.rstLinkAssert p) s =
      .next (((s.linkLevel p true).portLost p 6 .disabled).modPort p fun q => { q.clearPartner with st := .disabled, since := s.tick })) ∧
    (s.mute = true → exec (.rstLinkAssert p) s = .next (((s.linkLevel p true).portExit p).modPort p
      fun q => { q.clearPartner with st := .disabled, since := s.tick })))

/-- BEAT_SEND and BEAT_RX (R28, R83, R86, R87, R99 to R101): what a port in UP sends when a beat is due, with the departure stamp at the pins, and the
stamps a good BEAT leaves. One that comes after the limit of R99 finds the port lost. -/
def Obligations.Beats : Prop :=
  ∀ (s : State) (p : PortNo) (stamp : HT80), s.alive = true → s.hasPort p = true → (s.port p).st = .up →
    (∀ t, s.beatDue p = some t →
      (s.mute = false ∧ (s.port p).exiting = 0 → exec (.beatSend p stamp) s = .next (((s.modPort p fun q => { q with beatAt := some t }).modPort p fun q => { q with
        beatIdx := q.beatIdx + 1, txStamps := ((q.beatIdx, stamp + (s.port p).latTx.setWidth 80) :: q.txStamps).take 16, unacked := 0 }).emitAt
          (stamp + (s.port p).latTx.setWidth 80) (.beat p (s.beatMsg p)))) ∧
      (s.pw.pfail = true ∧ (s.port p).rev ≠ 4 → exec (.beatSend p stamp) s =
        .next ((s.modPort p fun q => { q with beatAt := some t }).emit (.lastGasp p s.lastGaspMsg))) ∧
      ((s.pw.pfail = false ∨ (s.port p).rev = 4) ∧ s.fc.safe = true → exec (.beatSend p stamp) s =
        .next ((s.modPort p fun q => { q with beatAt := some t }).emit (.nodeDown p (s.nodeDownMsg 2)))) ∧
      (s.mute = false ∧ (s.port p).exiting = 2 ∨ s.mute = false ∧ (s.port p).exiting = 3 → ∃ u, exec (.beatSend p stamp) s = .next u ∧
        u = ((s.modPort p fun q => { q with beatAt := some t }).emit (.nodeDown p (s.nodeDownMsg 1))).modPort p fun q => { q with exiting := q.exiting - 1 })) ∧
    (s.beatDue p = none → exec (.beatSend p stamp) s = .next s) ∧
    (∀ t, s.beatDue p = some t ↔ t = s.tick - BitVec.ofNat 64 (s.tick.toNat % (s.port p).beatEvery) ∧
      s.tick.toNat % (s.port p).beatEvery ≤ 10 ∧ (s.port p).beatAt ≠ some t) ∧
    (∀ m a, a = stamp - ((s.port p).latRx.setWidth 80) →
      (s.mute = false ∧ (∀ t, (s.port p).lastBeat = some t → htLt ((s.port p).beatLimit t) a = false) → exec (.beatRx p m stamp) s =
        .next (((s.traced a 0 p (beatHead m)).drew.modPort p fun q => { q with
          lastBeat := some a, rxStamps := ((m.idx, a) :: q.rxStamps).take 16, partnerTp := m.tp, partnerSt := m.state,
          partnerRootSt := m.rootState }).afterBeat p m (m.tp && !(s.port p).partnerTp))) ∧
      (∀ t, s.mute = false → (s.port p).lastBeat = some t → htLt ((s.port p).beatLimit t) a = true → exec (.beatRx p m stamp) s =
        .next ((s.traced a 0 p (beatHead m)).drew.portLost p 1 .lost)) ∧
      (s.mute = true → exec (.beatRx p m stamp) s = .next (s.traced a 0 p (beatHead m)).drew))

/-- TRAIN_SEND and TRAIN_RX (R81, R82, R84, R85): TRAIN goes out in NEGOTIATE, CALIBRATE and REV_FAIL; a TRAIN that arrives in NEGOTIATE names the
partner and settles the revision, or the port fails it. The revision of a link (R84): the greatest that lies in both ranges, or none. -/
def Obligations.Training : Prop :=
  (∀ (s : State) (p : PortNo), s.alive = true → s.hasPort p = true →
     (s.mute = false ∧ ((s.port p).st = .negotiate ∨ (s.port p).st = .calibrate ∨ (s.port p).st = .revFail) →
       exec (.trainSend p) s = .next (s.emit (.train p (s.trainMsg p)))) ∧
     (∀ m, (s.port p).st = .negotiate → exec (.trainRx p m) s = .next (((s.traced s.arrival 0 p (trainHead m)).drew.modPort p fun q => { q with
       partnerMax := m.revMax.setWidth 4, partnerMin := m.revMin.setWidth 4, partnerHwid := m.hwid, partnerNode := m.node,
       partnerPort := m.port.setWidth 6, partnerAsym := m.asym, partnerNeg := m.negDone, partnerCal := m.calDone, partnerHub := m.isHub }).negotiate p m)) ∧
     (∀ m, chooseRev (s.port p).ownMax.toNat 4 m.revMax.toNat m.revMin.toNat = none → s.negotiate p m =
       (s.modPort p fun q => { q with negDone := false, rev := 0 }).enterSt p .revFail) ∧
     (∀ m r, chooseRev (s.port p).ownMax.toNat 4 m.revMax.toNat m.revMin.toNat = some r → (s.port p).negDone = true → m.negDone = true →
       m.rev.toNat = r → s.negotiate p m = (s.modPort p fun q => { q with negDone := true, rev := BitVec.ofNat 4 r }).enterSt p .calibrate)) ∧
  (∀ a b c d : Nat,
     (∀ r, chooseRev a b c d = some r → b ≤ r ∧ r ≤ a ∧ d ≤ r ∧ r ≤ c ∧ ∀ x, b ≤ x → x ≤ a → d ≤ x → x ≤ c → x ≤ r) ∧
     (chooseRev a b c d = none → ∀ x, ¬(b ≤ x ∧ x ≤ a ∧ d ≤ x ∧ x ≤ c)))

/-- Acknowledgement, replay and errors on a port in UP (R77, R80, R92, R93, R95 to R97): a flit in error counts, and a sequenced one draws a NAK; one out
of sequence draws a NAK; a stomped message is acknowledged as though received, and the node's copies of a message that fails are stomped. -/
def Obligations.Retry : Prop :=
  ∀ (s : State) (p : PortNo), s.portUp p = true →
    (∀ q : BitVec 5, exec (.acknakRx p q false) s = .next ((s.traced s.arrival 0 p (acknakHead q false)).drew.ackUpTo p q)) ∧
    (∀ q : BitVec 5, exec (.acknakRx p q true) s = .next (((s.traced s.arrival 0 p (acknakHead q true)).drew.ackUpTo p (q - 1)).replayFrom p q)) ∧
    (∀ x rest, (s.port p).replay = x :: rest → tickLe ((s.port p).ackAt + 1000) s.tick = true → tickLe ((s.port p).replayAt + 1000) s.tick = true →
      exec (.replayTimeout p) s = .next (s.replayFrom p x.seq)) ∧
    (∀ f first, crcVerdict f = .bad →
      (flitSeqd f = false → exec (.flitErrorRx p (f, first)) s = .next ((s.modPort p fun q => { q with crcErr := satInc q.crcErr }).linkUnits p 1)) ∧
      (flitSeqd f = true → (s.port p).expects f = false → exec (.flitErrorRx p (f, first)) s =
        .next (((s.modPort p fun q => { q with crcErr := satInc q.crcErr }).linkUnits p 1).nak p)) ∧
      (flitSeqd f = true → (s.port p).expects f = true → exec (.flitErrorRx p (f, first)) s =
        .next ((((s.modPort p fun q => { q with crcErr := satInc q.crcErr }).linkUnits p 1).stompCopies p (first.getD f)).nak p))) ∧
    (∀ f, crcVerdict f ≠ .bad → flitSeqd f = true → (s.port p).expects f = false → exec (.flitErrorRx p (f, none)) s = .next (s.nak p)) ∧
    (∀ f first, crcVerdict f = .stomped →
      ((s.port p).expects f = true → exec (.stompedFlitRx (p, f, first)) s =
        .next (((s.modPort p fun q => { q with stomp := satInc q.stomp }).stompCopies p (first.getD f)).accept p)) ∧
      ((s.port p).expects f = false → flitSeqd f = true → exec (.stompedFlitRx (p, f, first)) s =
        .next ((s.modPort p fun q => { q with stomp := satInc q.stomp }).nak p))) ∧
    (∀ ty, knownType ty = false → exec (.unknownFlitRx p ty false) s = .next (s.unknownFlit p ty)) ∧
    (∀ ty, knownType ty = false → exec (.unknownFlitRx p ty true) s = .next ((s.unknownFlit p ty).accept p)) ∧
    exec (.flitAging p) s = .next (s.modPort p fun q => { q with waiting := ageWaiting s.tick q.waiting })

/-- TRELLIS_ACTION_SAMPLE (R175, R187): a word whose sampling tick has come gets the next S slot and the effective cycle C_now + K if that leaves the
latency of the chain, and is lost with the fault of R175 otherwise. LAUNCH_CHECK (R187, R203, R210, R228): at the sampling tick a launch of an
active context with the right signatures becomes a FIRE word and starts the step; a wrong tr_lat_sig, an unseated Trellis and an absent context
discard it. -/
def Obligations.WordsAndLaunchesSampled : Prop :=
  ((∀ (s : State) (a : Act), s.alive = true → s.bandRuns = true → s.tr.acts.find? (fun x => x.ix == a.ix) = some a →
     s.isDue (s.sampleTick a.t) = true → s.wordTurn (s.sampleTick a.t) a.code = true →
     (s.tr.seat = .seated → exec (.trellisActionSample a.ix) s =
       .next (State.sendWord (s.modTr fun r => { r with acts := r.acts.filter fun b => b.ix != a.ix }) a).1) ∧
     (s.tr.seat ≠ .seated → exec (.trellisActionSample a.ix) s = .next (s.modTr fun r => { r with acts := r.acts.filter fun b => b.ix != a.ix }))) ∧
   (∀ (s : State) (a : Act),
     (s.tr.nextSlot (s.tr.hcc.toNat + 3) + (13 + s.tr.lSeat.toNat + s.tr.hPa.toNat + s.tr.hAs.toNat) ≤ s.tr.hcc.toNat + 1 + s.tr.k.toNat →
       (s.sendWord a).2 = true ∧ (s.sendWord a).1 = s.modTr fun r =>
         { r.allot (BitVec.ofNat 64 (s.tr.nextSlot (s.tr.hcc.toNat + 3)))
             ((BitVec.ofNat 64 (s.tr.hcc.toNat + 1 + s.tr.k.toNat)).extractLsb' 0 12 ++ a.arg ++ a.code) with
           sent := r.sent ++ [(BitVec.ofNat 64 (s.tr.hcc.toNat + 1 + s.tr.k.toNat), a)]
           switchAt := if a.code = wSwap then some (BitVec.ofNat 64 (roundUp 256 (s.tr.hcc.toNat + 1 + s.tr.k.toNat)), true) else r.switchAt }) ∧
     (s.tr.hcc.toNat + 1 + s.tr.k.toNat < s.tr.nextSlot (s.tr.hcc.toNat + 3) + (13 + s.tr.lSeat.toNat + s.tr.hPa.toNat + s.tr.hAs.toNat) →
       s.sendWord a = (s.raiseNow (faultCode 2 3 6 5) 0 s.activeTag (detail [(24, 1, a.code.toNat), (25, 1, a.arg.toNat)]), false)))) ∧
  (∀ (s : State) (e : Entry), s.bandRuns = true → s.entry .launch e.seq = some e → s.launchTurn e = true →
     exec (.launchCheck e.seq) s = .next (s.launchOne e) ∧
     (s.slotOf e.ptag = none → s.launchOne e = s.launchFault e 0x0B (detail [(24, 4, e.id.toNat)])) ∧
     (∀ k, s.slotOf e.ptag = some k → (s.ctx k).st = .active → s.tr.seat = .unseated →
       s.launchOne e = s.launchFault e 0x0C (detail [(24, 4, e.id.toNat), (28, 1, 0)])) ∧
     (∀ k, s.slotOf e.ptag = some k → (s.ctx k).st = .active → s.tr.seat = .seated → s.swapBy e.ptag (dueTick e.t) = false →
       ((s.ctx k).cfgA.sigHost ≠ s.pins.latSig → s.launchOne e =
         ((s.modBand fun b => { b with sigHost := s.pins.latSig }).launchFault e 0x04 (detail [(24, 1, 0)])).modFc fun f => { f with
           details := f.details ++ [(uc 0x09 0x04, e.ptag, (s.ctx k).cfgA.sigHost ^^^ s.pins.latSig)] }) ∧
       ((s.ctx k).cfgA.sigHost = s.pins.latSig → (s.ctx k).cfgA.sigBlock = s.sigBlock s.tr.setA → e.env = false → ∀ t,
         State.sendWord ((s.modBand fun b => { b with sigHost := s.pins.latSig }).freeEntry e.seq)
           { ix := 0, t := e.t, code := wFire, arg := e.arg.setWidth 4, ptag := e.ptag, desc := e.desc } = (t, true) →
         s.launchOne e = t.modCtx k fun c =>
           (c.startStep (dueTick e.t)).note t.stamp (.item secL (bytesOf 4 e.id.toNat ++ bytesOf 1 e.arg.toNat)))))

/-- TRELLIS_WORD_RX (R168, R171 to R174, R182, R191, R197, R242): a good word waits at a Stake for its cycle, and a SWAP fixes the switch cycle; one copy
in error is corrected and counted against the lane; both in error, a late word, or a CHECK that disagrees with the unit's own count cost the seat;
copies that differ are discarded; a unit passes both copies on; an ARRIVE is an arrival of the child. -/
def Obligations.WordsReceived : Prop :=
  ∀ (s : State) (a : CellAddr) (slot : BitVec 6) (x y : BitVec 28), s.unitUp 0 a = true → s.tr.regionSeated a.region = true →
    (wordGood x = true → x = y → ∀ w d at_, w = wordContent x → (s.unit 0 a).effective (s.tr.slotStart (s.unit 0 a) slot s.tr.hcc) true w = (d, at_) →
      (1 ≤ (w.extractLsb' 0 4).toNat ∧ (w.extractLsb' 0 4).toNat ≤ 9 ∧ w.extractLsb' 0 4 ≠ wSeat ∧ w.extractLsb' 0 4 ≠ wCheck ∧
          w.extractLsb' 0 4 ≠ wSwap ∧ d < 2048 →
        exec (.trellisWordRx 0 a (.down slot x y)) s = .next (s.modUnit 0 a fun u => { u with
          due := u.due ++ [{ hc := at_, code := w.extractLsb' 0 4, arg := w.extractLsb' 4 4 }] })) ∧
      (w.extractLsb' 0 4 = wSwap ∧ d < 2048 → exec (.trellisWordRx 0 a (.down slot x y)) s = .next ((s.modUnit 0 a fun u => { u with
          swapAt := some (BitVec.ofNat 64 (roundUp 256 at_.toNat)) }).modUnit 0 a fun u => { u with
            due := u.due ++ [{ hc := at_, code := wSwap, arg := w.extractLsb' 4 4 }] })) ∧
      (1 ≤ (w.extractLsb' 0 4).toNat ∧ (w.extractLsb' 0 4).toNat ≤ 9 ∧ w.extractLsb' 0 4 ≠ wSeat ∧ w.extractLsb' 0 4 ≠ wCheck ∧ 2048 ≤ d →
        exec (.trellisWordRx 0 a (.down slot x y)) s = .next ((s.unitFault 0 a (faultCode 2 0 6 4) (detail [(24, 1, (w.extractLsb' 0 4).toNat),
          (25, 1, (w.extractLsb' 4 4).toNat), (26, 2, d)])).unseat a.region)) ∧
      (9 < (w.extractLsb' 0 4).toNat → exec (.trellisWordRx 0 a (.down slot x y)) s =
        .next (s.unitFault 0 a (faultCode 1 0 6 6) (detail [(24, 1, (w.extractLsb' 0 4).toNat)]))) ∧
      (∀ own : BitVec 12, own = (s.unit 0 a).count (s.tr.slotStart (s.unit 0 a) slot s.tr.hcc) - BitVec.ofNat 12 (s.tr.frameOffset 0) →
        w.extractLsb' 0 4 = wCheck →
        (w.extractLsb' 8 12 = own → exec (.trellisWordRx 0 a (.down slot x y)) s = .next s) ∧
        (w.extractLsb' 8 12 ≠ own → exec (.trellisWordRx 0 a (.down slot x y)) s =
          .next ((s.unitFault 0 a (faultCode 2 0 8 1) (detail [(24, 2, (w.extractLsb' 8 12).toNat), (26, 2, own.toNat)])).unseat a.region)))) ∧
    (wordGood x = true ∧ wordGood y = false ∧ wordStomped y = false → exec (.trellisWordRx 0 a (.down slot x y)) s =
      .next ((s.unitFault 0 a (faultCode 1 0 6 1) (detail [(24, 1, (x.extractLsb' 0 4).toNat), (25, 1, (x.extractLsb' 4 4).toNat)])).takeWord 0 a
        (s.tr.slotStart (s.unit 0 a) slot s.tr.hcc) true (wordContent x))) ∧
    (wordGood x = false ∧ wordGood y = true ∧ wordStomped x = false → exec (.trellisWordRx 0 a (.down slot x y)) s =
      .next ((s.unitFault 0 a (faultCode 1 0 6 1) (detail [(24, 1, (y.extractLsb' 0 4).toNat), (25, 1, (y.extractLsb' 4 4).toNat)])).takeWord 0 a
        (s.tr.slotStart (s.unit 0 a) slot s.tr.hcc) false (wordContent y))) ∧
    (wordGood x = false ∧ wordGood y = false ∧ (wordStomped x = false ∨ wordStomped y = false) → exec (.trellisWordRx 0 a (.down slot x y)) s =
      .next ((s.unitFault 0 a (faultCode 2 0 6 2) (detail [(24, 1, 0xFF)])).unseat a.region)) ∧
    (wordGood x = true ∧ wordGood y = true ∧ x ≠ y → exec (.trellisWordRx 0 a (.down slot x y)) s =
      .next (s.unitFault 0 a (faultCode 2 0 6 3) (detail [(24, 3, (wordContent x).toNat), (28, 3, (wordContent y).toNat)]))) ∧
    (wordGood x = false ∧ wordGood y = false ∧ wordStomped x = true ∧ wordStomped y = true → exec (.trellisWordRx 0 a (.down slot x y)) s = .next s) ∧
    (wordGood x = true ∧ x = y ∧ (wordContent x).extractLsb' 0 4 = 0 → exec (.trellisWordRx 2 a (.down slot x y)) s =
      .next ((s.emit (.fwdWord 2 (unitAddr 2 a) 0 slot x)).emit (.fwdWord 2 (unitAddr 2 a) 0 (slot + 2) x))) ∧
    (∀ child, wordGood x = true → x = y → (wordContent x).extractLsb' 0 4 = 1 →
      exec (.trellisWordRx 1 a (.up child x y)) s = .next (s.unitArrive 1 a child.toNat ((wordContent x).extractLsb' 4 4)) ∧
      (s.tr.regionSeated child = true →
        exec (.trellisWordRx 3 a (.up child x y)) s = .next (s.leafArrive child.toNat ((wordContent x).extractLsb' 4 4) true)))

/-- TRELLIS_PACKET_RX and RESULT_RX (R176 to R181, R197, R242 to R246, R266): a packet in error is a CE or, in class C, a UC, and one that is stomped is
discarded; each packet returns credit, and leaves the buffer of its lane when the unit has done with it; contributions combine, posts and replies rise,
a WRITE and a READ are answered by the unit that they name, and a RESULT goes down to where a cell listens. -/
def Obligations.PacketsReceived : Prop :=
  ∀ (s : State) (a : CellAddr) (c : BitVec 7) (cu : Bool) (ws : List (BitVec 28)) (k : Packet) (src : Option Byte), s.unitUp 1 a = true →
    s.tr.regionSeated a.region = true → k = packetOf cu ws → src = some (c.setWidth 8) →
    (cu = true → ws.all wordGood = false → (ws.all fun w => wordGood w || wordStomped w) = false → exec (.trellisPacketRx 1 a (some c) (cu, ws)) s =
      .next ((s.bufferFreed 1 a src cu ws.length).unitFault 1 a (faultCode 1 1 7 1) (detail [(24, 1, pktKind k)]))) ∧
    (cu = false → ws.all wordGood = false → (ws.all fun w => wordGood w || wordStomped w) = false → exec (.trellisPacketRx 1 a (some c) (cu, ws)) s =
      .next ((s.bufferFreed 1 a src cu ws.length).unitFault 1 a (faultCode 2 1 7 2)
        (detail [(24, 1, pktKind k), (25, 1, ((pktWord k 0).extractLsb' 0 4).toNat)]))) ∧
    (ws.all wordGood = false → (ws.all fun w => wordGood w || wordStomped w) = true → exec (.trellisPacketRx 1 a (some c) (cu, ws)) s =
      .next (s.bufferFreed 1 a src cu ws.length)) ∧
    (ws.all wordGood = true → ∀ t, t = s.credited 1 a src cu (pktCred k) →
      (pktKind k = 0 → exec (.trellisPacketRx 1 a (some c) (cu, ws)) s = .next t) ∧
      (cu = false → pktKind k = 1 → exec (.trellisPacketRx 1 a (some c) (cu, ws)) s =
        .next ((t.unitContrib 1 a (c.setWidth 8).toNat k).bufferFreed 1 a src cu (k.body.length + 1))) ∧
      (cu = false → pktKind k = 2 → exec (.trellisPacketRx 1 a (some c) (cu, ws)) s = .next (t.passOn 1 a src [none] k)) ∧
      (cu = false → 3 ≤ pktKind k → exec (.trellisPacketRx 1 a (some c) (cu, ws)) s =
        .next ((t.unknownKind 1 a k).bufferFreed 1 a src cu (k.body.length + 1))) ∧
      (cu = true → 3 ≤ pktKind k → pktKind k ≤ 6 → exec (.trellisPacketRx 1 a (some c) (cu, ws)) s = .next (t.passOn 1 a src [none] k))) ∧
    (ws.all wordGood = true → s.tr.regionSeated c = true → ∀ t, t = s.credited 3 a src cu (pktCred k) →
      (cu = false → pktKind k = 1 → exec (.trellisPacketRx 3 a (some c) (cu, ws)) s =
        .next ((t.leafContrib (c.setWidth 8).toNat k).bufferFreed 3 a src cu (k.body.length + 1))) ∧
      (cu = false → pktKind k = 2 → exec (.trellisPacketRx 3 a (some c) (cu, ws)) s =
        .next ((t.leafPost k).bufferFreed 3 a src cu (k.body.length + 1))) ∧
      (cu = true → pktKind k = 3 → exec (.trellisPacketRx 3 a (some c) (cu, ws)) s =
        .next ((t.ackAccess (k.body.length == 1) false (pktLevel k) (unitAddr (pktLevel k) (wordAddr (pktWord k 0))) k.body).bufferFreed 3 a src cu
          (k.body.length + 1)))) ∧
    (ws.all wordGood = true → cu = true → pktKind k = 1 → pktLevel k = 1 → pktBcast k = false →
      unitAddr 1 (wordAddr (pktWord k 0)) = unitAddr 1 a → exec (.trellisPacketRx 1 a none (cu, ws)) s =
        .next (((s.credited 1 a none cu (pktCred k)).answer 1 a k).bufferFreed 1 a none cu (k.body.length + 1))) ∧
    (∀ ctl data t, s.unitUp 0 a = true → t = s.credited 0 a none false 0 → t.cellIn a (ctl.extractLsb' 0 4) = true →
      exec (.resultRx 0 a ctl data) s = .next ((t.emit (.result a (ctl.extractLsb' 0 9) data)).bufferFreed 0 a none false 9)) ∧
    (∀ ctl data, exec (.resultRx 1 a ctl data) s = .next ((s.credited 1 a none false 0).passOn 1 a none
      ((s.credited 1 a none false 0).tr.memberPorts 1 a (ctl.extractLsb' 0 4)) (resultPkt ctl data)))

/-- The cell side of a seated Stake (R171, R172, R198, R242, R243, R246, R249, R266): arrivals, one ahead, a third one misuse; contributions; posts; and
words presented on their cycle. What goes up waits for the Stake's up lane. -/
def Obligations.CellSide : Prop :=
  ∀ (s : State) (a : CellAddr) (ch : BitVec 4), s.unitUp 0 a = true → s.tr.regionSeated a.region = true →
    (s.cellIn a ch = true ∧ ((s.unit 0 a).chan ch).cur = false → exec (.cellArrive a ch) s =
      .next ((s.modUnit 0 a fun u => { u with chans := setChan { u.chan ch with cur := true } u.chans }).modUnit 0 a fun u => { u with upQ := u.upQ ++ [ch] })) ∧
    (s.cellIn a ch = true ∧ ((s.unit 0 a).chan ch).cur = true ∧ ((s.unit 0 a).chan ch).next = false →
      exec (.cellArrive a ch) s = .next (s.modUnit 0 a fun u => { u with chans := setChan { u.chan ch with next := true } u.chans })) ∧
    (s.cellIn a ch = true ∧ ((s.unit 0 a).chan ch).cur = true ∧ ((s.unit 0 a).chan ch).next = true →
      exec (.cellArrive a ch) s = .next (s.modUnit 0 a fun u => { u with misuse := satInc u.misuse })) ∧
    (s.cellIn a ch = false → exec (.cellArrive a ch) s = .next s) ∧
    (∀ ctl data, ctl.extractLsb' 0 4 = ch → s.cellIn a ch = true → ((s.unit 0 a).chan ch).cur = false →
      ctl.getLsbD 14 = false → ctl.getLsbD 15 = false → ctl.extractLsb' 7 4 ≠ (1 : BitVec 4) → exec (.cellContrib a ctl data) s =
        .next (s.sendUp 0 a (contribPkt ch (some ⟨ctl.extractLsb' 4 3, ctl.extractLsb' 7 4, 0, 0, data⟩) false false))) ∧
    (∀ ctl data v, ctl.extractLsb' 0 4 = ch → s.cellIn a ch = true → ((s.unit 0 a).chan ch).cur = false →
      ctl.getLsbD 14 = false → ctl.getLsbD 15 = false → ctl.extractLsb' 7 4 = (1 : BitVec 4) → decodeFmt (ctl.extractLsb' 11 3) data = some v →
      exec (.cellContrib a ctl data) s = .next (s.sendUp 0 a (contribPkt ch
        (some ⟨ctl.extractLsb' 4 3, 1, ctl.extractLsb' 11 3, ctl.extractLsb' 16 8, toFx96 v (ctl.extractLsb' 16 8)⟩) false true))) ∧
    (∀ ctl data, ctl.extractLsb' 0 4 = ch → s.cellIn a ch = true → ((s.unit 0 a).chan ch).cur = false →
      ctl.getLsbD 14 = true → ctl.getLsbD 15 = true → exec (.cellContrib a ctl data) s =
        .next ((s.sendUp 0 a (contribPkt ch none true false)).cellArrive a ch false)) ∧
    (∀ obj op v, exec (.cellPost a obj op v) s = .next (s.sendUp 0 a (postPkt obj op v))) ∧
    (∀ p, (s.unit 0 a).due = [p] → p.hc.toNat ≤ s.tr.hcc.toNat →
      exec (.eventPresent a) s = .next ((s.modUnit 0 a fun u => { u with due := [] }).presentOne a p))

/-- A fault at a unit below the Leaf core (R197, R323): FIRST keeps the first code, OVF notes a second, two reports wait at most, and each that is
queued sends an ERROR packet. REGION_CLOCK_SLIP, LANE_CLOCK_LOST, HOST_CLOCK_WINDOW, ERROR_WIRE_FAULT and UNIT_ERROR_REPORT (R165, R186, R191, R196,
R197, R323): a fault of the clocks costs the seat; a report queued at a unit reaches the collector with its DETAIL. CHECK_SEND,
TRELLIS_ACCESS_RETRY, TELEM_REPORT and the requests to hold (R175, R179, R180, R191, R193, R194). -/
def Obligations.TrellisFaultsAndUpkeep : Prop :=
  (∀ (s t : State) (level : Level) (a : CellAddr) (code : BitVec 16) (det : BitVec 64), level ≠ 3 → (s.unit level a).queued.length < 2 →
     t = s.modUnit level a (fun x => { x with
       first := if x.first = 0 then code else x.first, ovf := (s.unit level a).ovf || (s.unit level a).first != 0, queued := x.queued ++ [(code, det)] }) →
     s.unitFault level a code det = t.sendUp level (unitAddr level a) {
         classU := true, header := pktHeader 4 3 3
         body := [(0 : BitVec 3) ++ bit ((s.unit level a).ovf || (s.unit level a).first != 0) ++ code, addrWord (unitAddr level a),
           (0 : BitVec 8) ++ (t.unit level a).count s.tr.hcc] }) ∧
  (∀ (s : State) (a : CellAddr) (child : Byte), s.unitUp 2 a = true →
     exec (.regionClockSlip a.region) s = .next ((s.unitFault 2 { region := a.region, block := 0, cell := 0 } (faultCode 2 2 8 2)).unseat a.region) ∧
     exec (.laneClockLost 3 a child) s = .next ((s.raiseNow (faultCode 2 3 8 3) (mkLoc (child.setWidth 7 : BitVec 7).toNat) s.activeTag
       (detail [(24, 1, child.toNat)])).loseRegion (child.setWidth 7)) ∧
     exec (.laneClockLost 2 a child) s = .next ((s.unitFault 2 a (faultCode 2 2 8 3) (detail [(24, 1, child.toNat)])).unseat a.region) ∧
     exec (.errorWireFault 2 a child) s = .next (s.unitFault 2 a (faultCode 2 2 0x15 2) (detail [(24, 1, 0), (25, 1, child.toNat)])) ∧
     (s.tr.seat = .seated → s.windowEnds = true → s.tr.countOk s.tr.winCount = false → exec (.hostClockWindow s.tick) s =
         .next ((s.raiseNow (faultCode 2 3 8 4) 0 s.activeTag (detail [(24, 2, s.tr.winCount)])).unseat)) ∧
     (∀ t, t ≠ s.tick ∨ s.tr.seat ≠ .seated ∨ s.windowEnds = false ∨ s.tr.countOk s.tr.winCount = true → exec (.hostClockWindow t) s = .next s) ∧
     (s.windowEnds = true ↔ s.tick.toNat % 1024 = 0 ∧ tickLt s.tr.seatedAt (s.tick - 1024) = true) ∧
     (∀ n, s.tr.countOk n = true ↔ 88 * s.tr.cyc1024.toNat ≤ (n + 1) * 100 ∧ n ≤ s.tr.cyc1024.toNat + 1) ∧
     (∀ cnt det, (s.unit 2 a).queued = [(faultCode 2 2 7 2, det)] → exec (.unitErrorReport a (faultCode 2 2 7 2) cnt) s =
       .next ((s.modUnit 2 a fun u => { u with queued := [] }).raise {
         code := faultCode 2 2 7 2, loc := cellLoc (unitAddr 2 a), partV := s.activeTag.isSome, ptag := s.activeTag.getD 0
         stamp := htOf (s.tick - BitVec.ofNat 64 (((s.tr.hcc.extractLsb' 0 12 - cnt).toNat * 1024 + (s.tr.cyc1024.toNat - 1)) / s.tr.cyc1024.toNat))
         detail := det }))) ∧
  (∀ (s : State) (a : CellAddr), s.unitUp 0 a = true →
     (s.tr.seat = .seated ∧ (s.tr.checkAt = 0 ∨ s.tr.checkAt.toNat + 4096 ≤ s.tr.hcc.toNat) → ∀ c, c = BitVec.ofNat 64 (s.tr.nextSlot (s.tr.hcc.toNat + 1)) →
       exec .checkSend s = .next (s.modTr fun r => { r with
         lastSlot := c, checkAt := c, slots := r.slots ++ [(c, c.extractLsb' 0 12 ++ (0 : BitVec 4) ++ wCheck)] })) ∧
     (∀ x, s.tr.accesses = [x] → x.level = 0 → x.addr = a → tickLe (x.sentAt + 10000) s.tick = true →
       (x.tries < 3 → exec (.trellisAccessRetry x.write 0 a) s =
         .next (State.sendDown (s.modTr fun r => { r with accesses := [{ x with tries := x.tries + 1, sentAt := s.tick }] }) (x.regions s.tr) x.packet)) ∧
       (x.tries = 3 ∧ x.write = true → exec (.trellisAccessRetry true 0 a) s =
         .next ((s.modTr fun r => { r with accesses := [{ x with tries := 4, sentAt := s.tick }] }).raiseNow (faultCode 2 3 7 4) (cellLoc a) s.activeTag
           (detail [(24, 1, 1)]))) ∧
       (x.tries = 3 ∧ x.write = false → exec (.trellisAccessRetry false 0 a) s =
         .next (((s.modTr fun r => { r with accesses := [{ x with tries := 4, sentAt := s.tick }] }).raiseNow (faultCode 2 3 7 4) (cellLoc a) s.activeTag
           (detail [(24, 1, 0)])).modTr fun r => { r with accesses := r.accesses.filter fun y => !(y.write == false && y.level == 0 && y.addr == a) }))) ∧
     (s.tr.regionSeated a.region = true → tickLe ((s.unit 0 a).telemAt + 1000000) s.tick = true → exec (.telemReport 0 a ((s.unit 0 a).telemAt + 1000000)) s =
       .next ((s.modUnit 0 a fun u => { u with deferrals := 0, telemAt := s.tick }).sendUp 0 (s.unit 0 a).addr {
         classU := true, header := pktHeader 5 2 0, body := [(s.unit 0 a).deferrals.setWidth 20, (s.unit 0 a).misuse.setWidth 20] })) ∧
     (tickLe ((s.unit 3 a).telemAt + 1000000) s.tick = true → exec (.telemReport 3 a ((s.unit 3 a).telemAt + 1000000)) s =
       .next ((s.modUnit 3 a fun u => { u with deferrals := 0, telemAt := s.tick }).modTr fun r => { r with
         sat := r.sat.modify 3 (· + (s.unit 3 a).deferrals.toNat) })) ∧
     (∀ b, exec (.trCellHoldReq a b) s = .next (s.requestHold 0 a b)) ∧
     (∀ b, exec (.trRgnHoldReq a.region b) s = .next (s.requestHold 2 { region := a.region, block := 0, cell := 0 } b)) ∧
     (∀ b, exec (.holdBitRx a.region b) s = .next (s.modTr fun r => r.seeHold a.region b))) ∧
  (∀ (r : Trellis) (g : BitVec 7), r.upHold = 0 →
     (r.seeHold g true).episodes = satInc r.episodes ∧ (r.seeHold g true).lastRegion = g ∧ (r.seeHold g true).episodeAt = r.hcc ∧
     (r.seeHold g true).upHold = setBit 0 g.toNat)

/-- SEATING_END (R163, R177, R183 to R185, R417): a full seating takes the largest latencies measured and ends SEATED with every FIRST clear and the counts
loaded, or FAILED with the number of the first check that fails and its region; a reseat keeps the maxima and must fit them. That what was measured is
stored before the checks is the model's reading (log entry 54). The writes of TR_CTL and the switch of the sets (R182, R183, R195, R199, R407):
EN, SEAT, RESEAT, COPY and the two clears, and when each is refused. -/
def Obligations.TrellisControl : Prop :=
  (∀ (s : State) (m : SeatMeas), s.alive = true → s.isLeaf = true → s.pdOn 7 = true → s.tr.seat = .seating →
     (s.tr.reseating = false → (s.tr.measured m).seatCheck m = none → exec (.seatingEnd m) s =
       .next (State.clearFirst (s.modTr fun r => { (r.measured m).loadCounts m with
         seat := .seated, cause := 0, failRegion := ((r.measured m).loadCounts m).unseatedRegion, reseating := false, seatedAt := s.tick }) none)) ∧
     (∀ c g, s.tr.reseating = false → (s.tr.measured m).seatCheck m = some (c, g) → exec (.seatingEnd m) s =
       .next (s.modTr fun r => { r.measured m with seat := .failed, cause := BitVec.ofNat 4 c, failRegion := g, reseating := false })) ∧
     (∀ r', r' = { s.tr with cyc1024 := satNat 16 (seatCount m) } → s.tr.reseating = true → r'.seatCheck m = none →
       (r'.fits m = true → exec (.seatingEnd m) s = .next (State.clearFirst (s.modTr fun _ => { r'.loadCounts m with
         seat := .seated, cause := 0, failRegion := (r'.loadCounts m).unseatedRegion, reseating := false, seatedAt := s.tick }) (some s.tr.reseatRegion))) ∧
       (r'.fits m = false → exec (.seatingEnd m) s =
         .next (s.modTr fun _ => { r' with seat := .failed, cause := 9, failRegion := s.tr.reseatRegion, reseating := false })))) ∧
  (∀ (s : State) (g : BitVec 7), s.writable 7 = true → s.isLeaf = true →
     (s.activeSlot = none → exec (.trEnWrite 0) s = .next ((s.modTr fun r => { r with
       en := false, seat := .unseated, reseating := false, seated := 0, upHold := 0, sent := [], slots := [], switchAt := none, view := false, reseatRegion := 0
       units := (r.units.map fun u => { u with lanes := [], upQ := [], upD := none, due := [], swapAt := none }).filter (!·.isReset) }).rpOk)) ∧
     (exec (.trEnWrite 1) s = .next ((s.modTr fun r => { r with en := true, view := false, reseatRegion := 0 }).rpOk)) ∧
     (s.tr.regions ≠ 0 → s.activeSlot = none → exec (.trEnWrite 3) s = .next ((s.modTr fun r => { r with
       en := true, view := false, reseatRegion := 0, seat := .seating, cause := 0, reseating := false, lastSlot := 0, checkAt := 0, slots := [], seated := 0 }).rpOk)) ∧
     (s.activeSlot ≠ none → exec (.trEnWrite 0) s = .next s.rpErr) ∧
     (s.tr.en = true ∧ s.tr.regions ≠ 0 ∧ s.activeSlot = none → exec .seat s =
       .next ((s.modTr fun r => { r with seat := .seating, cause := 0, reseating := false, lastSlot := 0, checkAt := 0, slots := [], seated := 0 }).rpOk)) ∧
     (s.tr.en = true ∧ s.tr.regions ≠ 0 ∧ s.activeSlot = none → exec (.reseat g) s =
       .next ((s.modTr fun r => { r with
         reseatRegion := g, seat := .seating, cause := 0, reseating := true, lastSlot := 0, checkAt := 0, slots := []
         seated := setBit r.seated g.toNat false }).rpOk)) ∧
     (s.tr.en = false ∨ s.tr.regions = 0 ∨ s.activeSlot ≠ none → exec .seat s = .next s.rpErr ∧ exec (.reseat g) s = .next s.rpErr) ∧
     (s.activeSlot = none → exec .copy s =
       .next ((s.modTr fun r => { r with switchAt := some (BitVec.ofNat 64 (roundUp 256 (r.hcc.toNat + 1)), false) }).rpOk)) ∧
     (s.activeSlot ≠ none → exec .copy s = .next s.rpErr) ∧
     exec .clrStretch s = .next ((s.modTr fun r => { r with maxErr := 0x8000 }).rpOk) ∧
     exec .clrSat s = .next ((s.modTr fun r => { r with sat := [0, 0, 0, 0] }).rpOk)) ∧
  (∀ s : State, s.alive = true → s.isLeaf = true → exec .trellisSetSwitch s = .next (s.modTr Trellis.switchSets)) ∧
  (∀ (r : Trellis) (c : BitVec 64) (swaps : Bool), r.switchAt = some (c, swaps) →
     (c.toNat ≤ r.hcc.toNat → r.switchSets.setA = r.setS ∧ r.switchSets.setS = (if swaps then r.setA else r.setS) ∧ r.switchSets.switchAt = none) ∧
     (r.hcc.toNat < c.toNat → r.switchSets.setA = r.setA ∧ r.switchSets.setS = r.setS ∧ r.switchSets.switchAt = r.switchAt)) ∧
  (∀ (r : Trellis) (u : TUnit) (c : BitVec 64), r.unitSwitch u = some c → c.toNat ≤ r.hcc.toNat →
     (r.switchUnit u).setA = u.setS ∧ (r.switchUnit u).setS = (if u.swapAt.isSome then u.setA else u.setS))

/-- WINDOW_OPEN and WINDOW_CLOSE (R201, R203, R215, R216): the schedule's window opens and closes on its ticks, and the mc_win pins follow.
MC_FORCED_EDGE, LOAD_LEVEL_CHANGE, PW_LEND_RISE and PW_LEND_FALL (R56, R58, R59, R219, R222, R347): a forced refresh is counted and raised; the load
target moves by one level at a time, 32 ns apart, in Gray code; lending rises and falls with its conditions. Two neighbouring load levels differ in
one pin (R58). -/
def Obligations.BandstandOutputs : Prop :=
  (∀ (s : State) (w : BitVec 4), s.bandRuns = true →
     ((s.sched w.toNat).has (s.band.opened.getD w.toNat 0) = true ∧ s.band.openW.getLsbD w.toNat = false ∧
         s.edgeTurn ((s.sched w.toNat).openTick (s.band.opened.getD w.toNat 0)) (actionRank .windowOpen) w.toNat = true →
       exec (.windowOpen w) s = .next (((s.modBand fun b => { b with
         opened := b.opened.set w.toNat (s.band.opened.getD w.toNat 0 + 1), openW := setBit b.openW w.toNat }).askWindow w.toNat
           (s.band.opened.getD w.toNat 0 + 1)).driveWin)) ∧
     (s.band.openW.getLsbD w.toNat = true ∧
         s.edgeTurn ((s.sched w.toNat).closeTick (s.band.opened.getD w.toNat 0 - 1)) (actionRank .windowClose) w.toNat = true →
       exec (.windowClose w) s = .next ((s.modBand fun b => { b with openW := setBit b.openW w.toNat false }).driveWin)) ∧
     (s.fc.safe = false → s.driveWin = { s with pins := { s.pins with mcWin := s.mcWinNow } })) ∧
  (∀ s : State, s.bandRuns = true →
     (∀ (m : BitVec 4) (stamp : HT80), s.pins.mcPresent.getLsbD m.toNat = true → s.activeSlot = none → exec (.mcForcedEdge m stamp) s =
       .next ((s.modBand fun b => { b with forced := satInc b.forced, lastMc := m, lastInside := s.pins.mcWin.getLsbD m.toNat }).raise {
         code := ce 0x09 0x06, loc := 0, partV := false, ptag := 0, stamp := stamp
         detail := detail [(24, 1, m.toNat), (25, 1, if s.pins.mcWin.getLsbD m.toNat then 1 else 0)] })) ∧
     (s.loadTarget = s.band.level.toNat + 1 ∧ s.band.level.toNat < 15 ∧ tickLe (s.band.lastChange + 32) s.tick = true → exec .loadLevelChange s =
       .next ((s.modBand fun b => { b with level := b.level + 1, lastChange := s.tick, compressing := false }).modPins
         fun p => { p with loadTarget := gray (s.band.level + 1) })) ∧
     (s.loadTarget < s.band.level.toNat ∧ tickLe (s.band.lastChange + 32) s.tick = true → exec .loadLevelChange s =
       .next ((s.modBand fun b => { b with level := b.level - 1, lastChange := s.tick, compressing := false }).modPins
         fun p => { p with loadTarget := gray (s.band.level - 1) })) ∧
     (s.loadTarget = s.band.level.toNat ∨ tickLe (s.band.lastChange + 32) s.tick = false → exec .loadLevelChange s = .next s) ∧
     (∀ a, s.lendRise = some a → exec .pwLendRise s = .next ((s.modPins fun p => { p with lend := true }).modBand fun b => { b with
       lendCaseA := a, lendEpisodes := satInc b.lendEpisodes })) ∧
     (s.pins.lend = true ∧ s.lendHolds = false → exec .pwLendFall s = .next ((s.modPins fun p => { p with lend := false }).modBand fun b => { b with
       lastFall := some s.tick })) ∧
     (s.pins.lend = false ∨ s.lendHolds = true → exec .pwLendFall s = .next s)) ∧
  (∀ v : BitVec 4, v ≠ 15 → ∃ i < 4, gray v ^^^ gray (v + 1) = 1 <<< i)

/-- LOAD_STEP, SIGNAL_ENTRY, CAPTURE_OPEN, CAPTURE_CLOSE, SWAP and PARK (R201, R203, R223, R224, R227, R260, R412): an entry of the tick table whose
turn has come acts, leaves the table and answers its descriptor. -/
def Obligations.TableEntriesAct : Prop :=
  ∀ (s : State) (e : Entry), s.bandRuns = true →
    (s.dueEntry .loadStep e.seq = some e → exec (.loadStep e.seq) s = .next (((s.freeEntry e.seq).modBand fun b => { b with
      stepTarget := e.arg.setWidth 4, ramps := b.ramps.filter fun r => r.seq != e.seq }).entryDone e)) ∧
    (∀ k, s.dueEntry .signal e.seq = some e → s.slotOf e.ptag = some k → (s.ctx k).st = .active →
      ((s.ctx k).rels.any fun r => s.isDue (dueTick r.t)) = false → exec (.signalEntry e.seq) s =
      .next (((s.objOp k (e.relRound.toNat % 4096) e.relBid e.id 3).freeEntry e.seq).entryDone e)) ∧
    (s.dueEntry .signal e.seq = some e → s.slotOf e.ptag = none → exec (.signalEntry e.seq) s = .next ((s.freeEntry e.seq).entryDone e)) ∧
    (s.dueEntry .capOpen e.seq = some e → exec (.captureOpen e.seq) s = .next (((s.freeEntry e.seq).stopWindow e.arg.toNat true).entryDone e)) ∧
    (s.dueEntry .capClose e.seq = some e → exec (.captureClose e.seq) s = .next (((s.freeEntry e.seq).stopWindow e.arg.toNat false).entryDone e)) ∧
    (∀ k, s.dueEntry .park e.seq = some e → s.slotOf e.ptag = some k → (s.ctx k).st = .active → (s.ctx k).rels = [] → e.desc = none →
      ∀ t, t = s.expireAll k → exec (.park e.seq) s = .next ((State.stopReplay ((((t.modCtx k fun c => { c with
        st := .parked, objs := c.objs.map fun o => (o.1, o.2.parkOne), disarmed := satNat 8 ((t.ctx k).objs.filter fun o => o.2.disarms).length
        tStart := none, tArr := none }).modTr fun r => { r with acts := r.acts.filter fun a => a.obj.isNone }).modPart e.ptag
          fun p => { p with swap := none }).freeEntry e.seq) e.ptag).discardAll e.ptag reParked 0).idleDescent) ∧
    (∀ p a, s.part e.ptag = some p → p.swap = some a → s.band.table.find? (fun x => x.action == .swap && x.ptag == e.ptag) = some e →
      s.edgeTurn (dueTick e.t) (actionRank .swap) e.seq.toNat = true → exec (.swap e.ptag) s =
        .next (State.swapDone ((((s.modPart e.ptag Part.exchange).swapLeaf e.ptag).mirrorPart e.ptag).freeEntry e.seq) e.ptag a))

/-- RELEASE_DUE, STEP_OVERRUN and OVERRUN_READ_DONE (R213, R239, R240, R316): a release that is due and that none precedes is made; a step without its
arrival at the limit raises its fault and has the region read; the cell found is recorded. WAIT_TIMEOUT, TIMER_FIRE and BARRIER_TIMEOUT (R20, R262,
R263, R265): an armed object of the active context whose deadline has passed; what is stamped at the deadline itself still comes first. -/
def Obligations.StepAndObjectTimers : Prop :=
  (∀ (s : State) (t : PTag) (k : Bool), s.bandRuns = true → s.slotOf t = some k →
     (∀ a r, (s.ctx k).arm a.bid = some a → (s.ctx k).rels = [r] → r.bid = a.bid → s.isDue (dueTick r.t) = true →
       exec (.releaseDue t a.bid) s = .next (s.releaseNow k a r)) ∧
     (∀ st, (s.ctx k).st = .active → (s.ctx k).tStart = some st → (s.ctx k).cfgA.limit ≠ 0 → (s.ctx k).tArr = none → (s.ctx k).overrun = false →
       s.isDue (st + (s.ctx k).cfgA.limit.setWidth 64) = true → s.holdNow = false → (∃ a, (s.ctx k).stepArm = some a ∧ a.chanEn = false) →
       exec (.stepOverrun t) s = .next ((s.modCtx k fun c => { c with overrun := true }).raiseNow (uc 0x09 0x05) (mkLoc 0) (some t)
         (detail [(24, 1, 2), (28, 4, ((s.ctx k).step.setWidth 32).toNat)]))) ∧
     (∀ st, (s.ctx k).st = .active → (s.ctx k).tStart = some st → (s.ctx k).cfgA.limit = 0 ∨ s.isDue (st + (s.ctx k).cfgA.limit.setWidth 64) = false →
       exec (.stepOverrun t) s = .next s) ∧
     (∀ o q b c, s.band.overrun = some o → o.seq = some q → s.tr.accesses.any Access.asks = false ∨ tickLe (htInt o.stamp + 50000) s.tick = true →
       b = s.tr.outstandingOf 2 ⟨o.region, 0, 0⟩ → c = (if b = 0x3F then 0x3F else s.tr.outstandingOf 1 ⟨o.region, b, 0⟩) →
       exec (.overrunReadDone o.ptag o.region) s =
         .next (State.putGroup ((s.modBand fun b => { b with overrun := none }).modTr fun r => { r with accesses := r.accesses.filter (!·.asks) }) 3
           [({ kind := 0x41, flags := 1, ptag := o.ptag, code := uc 0x09 0x05, seq := q, stamp := o.stamp, node := s.elect.node
               loc := mkLoc o.region.toNat b.toNat c.toNat, detail := 0 } : EvRec).bits])) ∧
     (∀ o, s.band.overrun = some o → s.tr.accesses.any Access.asks = true → tickLe (htInt o.stamp + 50000) s.tick = false →
       exec (.overrunReadDone o.ptag o.region) s = .next s)) ∧
  (∀ (s : State) (k : Bool) (o : BitVec 12) (b : Byte), s.alive = true → s.isLeaf = true → s.activeSlot = some k →
     (((s.obj k o.toNat).type = .counter ∨ (s.obj k o.toNat).type = .flag) ∧ (s.obj k o.toNat).armed = true ∧ (s.obj k o.toNat).deadline ≠ 0 ∧
         htLt (s.obj k o.toNat).deadline s.stamp = true →
       exec (.waitTimeout o) s = .next ((s.setObj k o.toNat { s.obj k o.toNat with expired := true, armed := false, deadline := 0 }).raiseNow (uc 0x0B 0x02) 0
         (some (s.ctx k).ptag) (detail [(24, 2, o.toNat), (28, 4, (s.obj k o.toNat).value.toNat)]))) ∧
     ((s.obj k o.toNat).type = .timer ∧ (s.obj k o.toNat).armed = true ∧ (s.obj k o.toNat).deadline ≠ 0 ∧
         htLt (s.obj k o.toNat).deadline s.stamp = true →
       exec (.timerFire o) s = .next (s.setObj k o.toNat { s.obj k o.toNat with
         armed := (s.obj k o.toNat).rel, deadline := 0, cnt16 := satInc (s.obj k o.toNat).cnt16 })) ∧
     (htLt (s.obj k o.toNat).deadline s.stamp = false →
       exec (.waitTimeout o) s = .next s ∧ exec (.timerFire o) s = .next s) ∧
     ((s.obj k b.toNat).type = .barrier ∧ (s.obj k b.toNat).deadline ≠ 0 ∧ htLt (s.obj k b.toNat).deadline s.stamp = true →
       exec (.barrierTimeout b) s = .next ((s.setObj k b.toNat { s.obj k b.toNat with expired := true, deadline := 0 }).raiseNow (uc 0x0B 0x03) 0
         (some (s.ctx k).ptag) (detail [(24, 1, b.toNat), (25, 1, if (s.obj k b.toNat).localDone then 1 else 0), (28, 4, (s.obj k b.toNat).value.toNat)]))))

/-- The timers of a partition at a node (R149, R154, R156 to R161, R256, R257, R304, R311): the open tick, the close tick, the quiesce point, the time
limits of an open, and the clearing of a context slot. QUIESCE_POINT (R149, R158 to R160, R256): an ENDED
slot of the partition is FREE, the entry goes, its generation stays, its runs are free, and the root turns to what waits. -/
def Obligations.PartitionTimers : Prop :=
  (∀ (s : State) (n : BitVec 10) (p : Part), s.alive = true → s.partNo n = some p →
     (p.st = .opening ∧ p.committed = true ∧ s.isDue (dueTick p.tOpen) = true ∧ s.slotOf p.ptag = none → exec (.openTick n) s =
       .next ((s.modPart p.ptag fun p => { p with st := .open_ }).mirrorPart p.ptag)) ∧
     (∀ k, p.st = .opening → p.committed = true → s.isDue (dueTick p.tOpen) = true → s.slotOf p.ptag = some k → exec (.openTick n) s =
       .next ((State.openMember (s.modPart p.ptag fun p => { p with st := .open_ }) k p).mirrorPart p.ptag)) ∧
     (p.st = .opening ∧ p.committed = false ∧ s.isDue (dueTick p.tOpen) = true → exec (.openTick n) s =
       .next ((s.modPart p.ptag fun p => { p with st := .open_ }).raiseNow (uc 0x05 0x01) 0 (some p.ptag))) ∧
     (∀ c, p.tClose = some c → p.ended = false → s.isDue (dueTick c) = true → exec (.closeTick n) s = .next (s.endPart p.ptag c p.fault)) ∧
     (p.st = .opening ∧ p.committed = false ∧ s.sun.isRoot = true ∧ s.isDue (dueTick (htSub p.tOpen 200000)) = true →
       exec (.openAckTimeout n) s = .next (s.rootRefuse p.ptag (refusal 0x05 0x1E))) ∧
     (p.st ≠ .quiesce ∨ s.isDue (dueTick p.tEvent) = false → exec (.quiescePoint n) s = .next s)) ∧
  (∀ (s : State) (n : BitVec 10) (p : Part) (free : Ctx → Ctx), s.alive = true → s.partNo n = some p → p.st = .quiesce → s.isDue (dueTick p.tEvent) = true →
     (∀ c, free c = if c.ptag = p.ptag && c.st = .ended then { c with st := .free } else c) → exec (.quiescePoint n) s =
       .next (State.runDefer ((((s.modCtx0 free).modCtx1 free).mirrorFree p).modFab fun b => { b with
         parts := b.parts.filter fun q => q.part != n || q.st == .free
         gens := assocSet n.toNat (ptGen p.ptag) b.gens, runs := b.runs.filter fun r => r.ptag != p.ptag })))

/-- DEFER_TIMEOUT, REOPEN_HOLD_END, OPEN_NOT_RECEIVED, CONTEXT_SLOT_CLEAR_DONE, RESUME_TICK and DUMP_ABANDON (R160, R161, R186, R228, R257, R280, R304,
R311). -/
def Obligations.FabricTimers : Prop :=
  ∀ s : State, s.alive = true →
    (∀ d, s.fab.defer = [d] → s.sun.isRoot = true → tickLe (d.since + 1000000000) s.tick = true → exec (.deferTimeout (ptPart d.msg.ptag)) s =
      .next ((s.modFab fun b => { b with defer := [] }).refuseOpen d.msg (refusal 0x05 0x1B))) ∧
    (∀ t, s.fab.reopenAt = some t → s.isDue t = true → exec .reopenHoldEnd s = .next (s.modFab fun b => { b with reopenAt := none })) ∧
    (∀ d, s.isLeaf = true → s.eng.taken = [d] → d.fin = false → d.opcode = 0x07 → d.bound = false → tickLe (d.takenAt + 2000000000) s.tick = true →
      exec (.openNotReceived (ptPart d.ptag)) s = .next (s.complete d.num stRefused (refusal 0x05 0x1D))) ∧
    (∀ k, s.isLeaf = true → (s.ctx k).clearing = true → (s.ctx k).dumpBusy = false → exec (.contextSlotClearDone k) s =
      .next (((s.modCtx k fun c => { c with objs := [], clearing := false, image := false, imageTag := 0 }).modPart (s.ctx k).ptag fun p => { p with accepted := true }).tryAck
        (s.ctx k).ptag)) ∧
    (∀ k, s.isLeaf = true → (s.ctx k).dumpBusy = true → exec (.contextSlotClearDone k) s = .next s) ∧
    (∀ d k, s.bandRuns = true → s.eng.taken = [d] → d.fin = false → d.opcode = 0x09 → d.body.getLsbD 12 = true → s.isDue (dueTick (field d.body 8 80)) = true →
      s.slotOf d.ptag = some k → (s.ctx k).st = .parked → s.activeSlot = none → s.tr.seat = .seated → exec (.resumeTick (ptPart d.ptag)) s =
        .next (((State.activated (s.modCtx k fun c =>
          ({ c with st := .active, resumed := true, tStart := none, tArr := none } : Ctx).restart (htOf (dueTick (field d.body 8 80))))).modBand
            fun b => { b with idle := none, force := false }).complete d.num stDone 0 0 (some (htOf (dueTick (field d.body 8 80)))))) ∧
    (∀ d k, s.bandRuns = true → s.eng.taken = [d] → d.fin = false → d.opcode = 0x09 → d.body.getLsbD 12 = true → s.isDue (dueTick (field d.body 8 80)) = true →
      s.slotOf d.ptag = some k → (s.ctx k).st = .parked → s.activeSlot = none → s.tr.seat ≠ .seated → exec (.resumeTick (ptPart d.ptag)) s =
        .next (s.complete d.num stRefused (refusal 0x08 0x10) 0 (some (htOf (dueTick (field d.body 8 80)))))) ∧
    (∀ j t, s.eng.dump = some j → j.stalled = some t → tickLe (t + 10000000) s.tick = true → exec .dumpAbandon s =
      .next (((s.modRing 6 fun r => { r with drop := satInc r.drop }).raiseNow (ce 0x0D 0x03) 0 (some j.ptag) (detail [(24, 2, j.written)])).endDump stIncomplete))

/-- A sequenced message that arrives on a usable port (R14, R94): its arrival is stamped, the next SEQ is expected, an ACK with the accepted SEQ is owed, a NAK and its discarding
are over. On a port that is not UP, and in the safe or the power-fail state, it has no effect (R94, R100, R101). A message of a partition that the
node does not hold, or whose end has come, is dropped and counted as stale (R159, R162). -/
def Obligations.MessageAccepted : Prop :=
  ((∀ (s : State) (p : PortNo) (m : Msg), s.received p m = (State.modPort (s.tracedMsg s.arrival 0 p (s.port p).rxSeq m).drew p
     fun q => { q with lastRx := s.arrival, rxSeq := q.rxSeq + 1, discarding := false, nakAt := none }).emit (.acknak p (s.port p).rxSeq false)) ∧
   (∀ (s : State) (p : PortNo) (tc : HT80) (op : PartOp) (b : BarMsg) (x : PartMsg), s.alive = true → s.hasPort p = true →
     ((s.port p).st ≠ .up ∨ s.mute = true) →
     (∀ m, exec (.launchRx p m) s = .next s) ∧ (∀ m, exec (.swapRx p m) s = .next s) ∧ (∀ m, exec (.parkRx p m) s = .next s) ∧
     exec (.arriveRx p b tc) s = .next s ∧ exec (.arriveRedRx p b tc) s = .next s ∧ exec (.releaseRx p b) s = .next s ∧
     exec (.releaseRedRx p b) s = .next s ∧ (∀ m, exec (.signalRx p m) s = .next s) ∧ (∀ m, exec (.announceRx p m) s = .next s) ∧
     (∀ m, exec (.assignRx p m) s = .next s) ∧ (∀ m, exec (.treeRx p m) s = .next s) ∧ (∀ m, exec (.electRx p m) s = .next s) ∧
     (∀ m, exec (.mirrorRx p m) s = .next s) ∧ (∀ m, exec (.delayRx p m) s = .next s) ∧ exec (.partOpenRx p x) s = .next s ∧
     exec (.partOpenAckRx p x) s = .next s ∧ exec (.partDeferredRx p x) s = .next s ∧ exec (.partRefusedRx p x) s = .next s ∧
     exec (.partCloseRx p x) s = .next s ∧ exec (.partCloseAckRx p x) s = .next s ∧ exec (.partFaultRx p x) s = .next s ∧
     (∀ m, exec (.healthRx p m) s = .next s))) ∧
  (∀ (s : State) (p : PortNo) (t : PTag), s.portUp p = true → s.takes t = false →
     (∀ m : LaunchMsg, m.ptag = t → exec (.launchRx p m) s = .next ((s.received p (.launch m)).countStale t)) ∧
     (∀ m : SwapMsg, m.ptag = t → (s.port p).rev ≠ 4 → exec (.swapRx p m) s = .next ((s.received p (.swap m)).countStale t)) ∧
     (∀ m : ParkMsg, m.ptag = t → exec (.parkRx p m) s = .next ((s.received p (.park m)).countStale t)) ∧
     (∀ m : SignalMsg, m.ptag = t → exec (.signalRx p m) s = .next ((s.received p (.signal m)).countStale t)) ∧
     (∀ (m : BarMsg) tc, m.ptag = t → exec (.arriveRedRx p m tc) s = .next (State.countStale (s.received p (.arrive { m with red := true })) t)) ∧
     (∀ m : BarMsg, m.ptag = t → exec (.releaseRedRx p m) s = .next (State.countStale (s.received p (.release { m with red := true })) t)))

/-- LAUNCH_RX, SWAP_RX and PARK_RX (R146, R205, R206, R224 to R226): up to the apex, where the message turns; down on every child port; into the table
of a member. -/
def Obligations.FabricCommandsRelayed : Prop :=
  ∀ (s : State) (p : PortNo) (x : Part), s.portUp p = true → s.part x.ptag = some x → s.takes x.ptag = true →
    (∀ m : LaunchMsg, m.ptag = x.ptag → m.up = true → x.act.apex = false → exec (.launchRx p m) s =
      .next ((s.received p (.launch m)).sendOn x.act.upPort.toList 5 (.launch m))) ∧
    (∀ m : LaunchMsg, m.ptag = x.ptag → (m.up = false ∨ x.act.apex = true) → x.member = false → exec (.launchRx p m) s =
      .next ((s.received p (.launch m)).sendOn x.act.children 5 (.launch { m with up := false }))) ∧
    (∀ m : LaunchMsg, m.ptag = x.ptag → (m.up = false ∨ x.act.apex = true) → x.member = true → exec (.launchRx p m) s =
      .next (((s.received p (.launch m)).sendOn x.act.children 5 (.launch { m with up := false })).insertLaunch p { m with up := false })) ∧
    (∀ m : SwapMsg, m.ptag = x.ptag → (s.port p).rev ≠ 4 → m.up = true → x.act.apex = false → exec (.swapRx p m) s =
      .next ((s.received p (.swap m)).sendOn x.act.upPort.toList 5 (.swap m))) ∧
    (∀ m : SwapMsg, m.ptag = x.ptag → (s.port p).rev ≠ 4 → (m.up = false ∨ x.act.apex = true) → x.member = true → exec (.swapRx p m) s =
      .next (((s.received p (.swap m)).sendOn x.act.children 5 (.swap { m with up := false })).armSwap p x { m with up := false })) ∧
    (∀ m : SwapMsg, m.ptag = x.ptag → (s.port p).rev = 4 → exec (.swapRx p m) s = .next ((s.received p (.swap m)).unknownFlit p 0x11)) ∧
    (∀ m : ParkMsg, m.ptag = x.ptag → m.up = true → x.act.apex = false → exec (.parkRx p m) s =
      .next ((s.received p (.park m)).sendOn x.act.upPort.toList 5 (.park m))) ∧
    (∀ m : ParkMsg, m.ptag = x.ptag → m.up = false → x.member = true → exec (.parkRx p m) s =
      .next (((s.received p (.park m)).sendOn x.act.children 5 (.park m)).takeParkHere m))

/-- ARRIVE_RX, ARRIVE_RED_RX, RELEASE_RX, RELEASE_RED_RX and SIGNAL_RX (R145, R150, R151, R235 to R239, R245, R247, R270): arrivals are counted at the
time they would have had at this node; a release goes down and ends its round; a signal goes toward its rank. -/
def Obligations.BarrierMessages : Prop :=
  ∀ (s : State) (p : PortNo) (x : Part) (m : BarMsg) (tc : HT80), s.portUp p = true → s.part x.ptag = some x → s.takes x.ptag = true → m.ptag = x.ptag →
    (s.relayOnly x = false → exec (.arriveRx p m tc) s = .next (State.arriveAt (s.received p (.arrive { m with red := false, types := 0, record := 0 })) m.ptag
      ⟨m.bid, m.round, 0, 0, s.nominal x p { m with red := false, types := 0, record := 0 }, p.setWidth 8⟩ tc)) ∧
    (s.relayOnly x = false → exec (.arriveRedRx p m tc) s = .next (State.arriveAt (s.received p (.arrive { m with red := true })) m.ptag
      ⟨m.bid, m.round, m.types, m.record, s.nominal x p { m with red := true }, p.setWidth 8⟩ tc)) ∧
    (s.relayOnly x = true → exec (.arriveRedRx p m tc) s = .next (State.sendOn (s.received p (.arrive { m with red := true })) x.act.upPort.toList 6
      (.arrive { m with red := true, t := s.nominal x p { m with red := true } }))) ∧
    (∀ b, s.relayOnly x = false → x.slot m.bid = some b → x.act.apex = false → x.act.upPort = some p → m.round = b.cur →
      exec (.releaseRx p m) s = .next ((State.passRelease (s.received p (.release { m with red := false, types := 0, record := 0 })) m.ptag
          { m with red := false, types := 0, record := 0 }).completeRound m.ptag m.bid s.stamp 4) ∧
      exec (.releaseRedRx p m) s = .next ((State.passRelease (s.received p (.release { m with red := true })) m.ptag { m with red := true }).completeRound
        m.ptag m.bid s.stamp 4)) ∧
    (∀ b, s.relayOnly x = false → x.slot m.bid = some b → x.act.apex = false → x.act.upPort = some p → m.round ≠ b.cur →
      exec (.releaseRx p m) s = .next (State.raiseNow (s.received p (.release { m with red := false, types := 0, record := 0 })) (uc 0x0A 0x01) 0 (some m.ptag)
        (detail [(24, 1, m.bid.toNat), (25, 1, m.round.toNat), (26, 1, b.cur.toNat)]))) ∧
    (∀ g : SignalMsg, g.ptag = x.ptag → s.isLeaf = true → exec (.signalRx p g) s = .next ((s.received p (.signal g)).leafSignal x (some p) g)) ∧
    (∀ g : SignalMsg, g.ptag = x.ptag → s.isLeaf = false → exec (.signalRx p g) s = .next ((s.received p (.signal g)).hubSignal x g))

/-- ANNOUNCE_RX, ASSIGN_RX, TREE_RX, ELECT_RX, MIRROR_RX and DELAY_RX (R125 to R128, R133 to R142, R147, R153, R397): what each leaves at a node that is
not the root. -/
def Obligations.TreeMessages : Prop :=
  ∀ (s : State) (p : PortNo), s.portUp p = true → s.sun.isRoot = false →
    (∀ m : AnnounceMsg, m.cport = 0xFF → s.elect.root ≠ noNode → exec (.announceRx p m) s = .next (State.modPort (s.received p (.announce m)) p fun q => { q with
      partnerAnn := some m, partnerNode := m.node, half := none })) ∧
    (∀ m : AssignMsg, m.hwid ≠ s.gate.hwid → exec (.assignRx p m) s = .next ((s.received p (.assign m)).forwardAssign s.elect.hops.toNat m)) ∧
    (∀ m : AssignMsg, m.hwid = s.gate.hwid → m.root = s.elect.root → m.node = s.elect.node → exec (.assignRx p m) s =
      .next (State.sendOffers (State.announceAll (State.modElect (s.received p (.assign m)) fun e => { e with node := m.node, route := routeList m.route })))) ∧
    (∀ m : TreeMsg, m.hops = 0xFF → s.elect.rootLostAt = none → s.elect.root ≠ noNode → s.elect.parent = some p → exec (.treeRx p m) s =
      .next (State.loseParent (State.modSun (State.modPort (s.received p (.tree m)) p fun q => { q with tree := some m, offeringSince := none })
        fun u => { u with utcValid := false }))) ∧
    (∀ m : ElectMsg, (s.port p).partnerHwid ≠ m.hwid → m.rootClaim = true → m.standbyClaim = false → (∃ b, s.elect.best = some b ∧ claimBetter m b = false ∧
      b.hwid ≠ m.hwid) → exec (.electRx p m) s = .next (s.received p (.elect m))) ∧
    (∀ m : ElectMsg, (s.port p).partnerHwid ≠ m.hwid → m.rootClaim = true → m.standbyClaim = false → (∃ b, s.elect.best = some b ∧ claimBetter m b = true) →
      exec (.electRx p m) s = .next (State.sendExcept (State.modElect (s.received p (.elect m)) fun e => { e with best := some m }) (some p) 7 (.elect m))) ∧
    (∀ m : ElectMsg, (s.port p).partnerHwid ≠ m.hwid → m.standbyClaim = true → exec (.electRx p m) s = .next (State.modElect (State.modSun (s.received p (.elect m))
      fun u => { u with isStandby := true }) fun e => { e with rootPort := some p, rootLostAt := none, mirrorDone := false })) ∧
    (∀ m : MirrorMsg, s.elect.parent = some p → m.op = 2 → exec (.mirrorRx p m) s = .next ((s.received p (.mirror m)).mirrorNode m)) ∧
    (∀ m : MirrorMsg, s.elect.parent ≠ some p → s.sun.isStandby = false → exec (.mirrorRx p m) s =
      .next ((s.received p (.mirror m)).sendOn s.elect.parent.toList 7 (.mirror m))) ∧
    (∀ m : DelayMsg, exec (.delayRx p m) s = .next (State.sendDelay (State.modPort (s.received p (.delay m)) p fun q => { q with half := some m }) m))

/-- The PART messages and HEALTH_RX at a node that holds the partition and is not the root (R154 to R159, R327, R380, R384). -/
def Obligations.PartMessages : Prop :=
  ∀ (s : State) (p : PortNo) (x : Part) (m : PartMsg), s.portUp p = true → s.sun.isRoot = false → s.part m.ptag = some x →
    (s.fromAbove p m.ptag = false → exec (.partOpenRx p m) s = .next ((s.received p (.part .opOpen m)).sendOn s.elect.parent.toList 7 (.part .opOpen m))) ∧
    (∀ c, s.fromAbove p m.ptag = true → s.copyOf m.ptag = some c → (s.placePart c).onTree s.elect.hops = true → exec (.partOpenRx p m) s =
      .next ((s.received p (.part .opOpen m)).acceptOpen c m)) ∧
    (s.fromAbove p m.ptag = true → s.copyOf m.ptag = none → exec (.partOpenRx p m) s = .next ((s.received p (.part .opOpen m)).countStale m.ptag)) ∧
    (x.ended = true → exec (.partOpenAckRx p m) s = .next ((s.received p (.part .openAck m)).countStale m.ptag) ∧
      exec (.partRefusedRx p m) s = .next ((s.received p (.part .refused m)).countStale m.ptag) ∧
      exec (.partCloseRx p m) s = .next ((s.received p (.part .close m)).countStale m.ptag)) ∧
    (x.ended = false ∧ s.fromAbove p m.ptag = true → exec (.partOpenAckRx p m) s =
      .next (((s.received p (.part .openAck m)).partDown x .openAck m).commitHere m.ptag m)) ∧
    (x.ended = false ∧ s.fromAbove p m.ptag = false ∧ x.act.children.contains p = true → exec (.partOpenAckRx p m) s =
      .next ((State.modPart (s.received p (.part .openAck m)) m.ptag fun q => { q with acks := p :: q.acks }).tryAck m.ptag)) ∧
    (s.fromAbove p m.ptag = false → exec (.partDeferredRx p m) s = .next (s.received p (.part .deferred m))) ∧
    (s.fromAbove p m.ptag = true ∧ s.opener m.ptag false = [] → exec (.partDeferredRx p m) s =
      .next ((s.received p (.part .deferred m)).sendOn (s.received p (.part .deferred m)).timeKids 7 (.part .deferred m))) ∧
    (x.ended = false ∧ s.fromAbove p m.ptag = true → exec (.partRefusedRx p m) s = .next (((s.received p (.part .refused m)).partDown x .refused m).refuseHere m.ptag m.aux)) ∧
    (x.ended = false ∧ s.fromAbove p m.ptag = false → exec (.partRefusedRx p m) s = .next ((s.received p (.part .refused m)).toRoot .refused m)) ∧
    (x.ended = false ∧ s.fromAbove p m.ptag = true ∧ x.st = .open_ → exec (.partCloseRx p m) s = .next (State.modPart ((s.received p (.part .close m)).partDown x .close m) m.ptag
      fun q => { q with st := .closing, tClose := some m.t, tEvent := m.t })) ∧
    (x.ended = false ∧ s.fromAbove p m.ptag = false → exec (.partCloseRx p m) s = .next ((s.received p (.part .close m)).toRoot .close m)) ∧
    exec (.partCloseAckRx p m) s = .next ((State.modPart (s.received p (.part .closeAck m)) m.ptag fun q => { q with closeAcks := p :: q.closeAcks }).tryCloseAck m.ptag) ∧
    (x.ended = true → exec (.partFaultRx p m) s = .next ((s.received p (.part .fault m)).countStale m.ptag)) ∧
    (x.ended = false → exec (.partFaultRx p m) s = .next (State.faultPart (State.sendOn (State.raise (s.received p (.part .fault m)) {
        code := uc 0x05 0x02, loc := 0, partV := true, ptag := m.ptag, stamp := m.t, detail := detail [(24, 2, m.aux.toNat), (26, 3, m.node.toNat)] })
      (x.treePorts.filter (· != p)) 7 (.part .fault m)) m.ptag m.t (uc 0x05 0x02))) ∧
    (∀ h : HealthMsg, h.port ≠ 0xFF → exec (.healthRx p h) s = .next (State.modPort (s.received p (.health h)) p fun q => { q with
      partnerHealth := some (h.t, h.count) })) ∧
    (∀ (h : HealthMsg) q, h.port = 0xFF → s.elect.parent = some q → exec (.healthRx p h) s = .next ((s.received p (.health h)).send q 7 (.health h)))

/-- DOORBELL_POLL, DB_NUDGE, HM_RESPONSE, HM_TIMEOUT and RING_STOPPED (R50, R51, R299 to R303, R305): when a doorbell block is read, what an answer
does, and what a request that fails halts. RING_EN_SET and RING_EN_CLEAR (R302, R396): a ring that starts runs from RING_CONS with nothing fetched;
a ring that stops waits for its outstanding requests; without the firmware no ring starts. -/
def Obligations.RingCommands : Prop :=
  (∀ (s : State) (n : BitVec 3), s.alive = true →
     ((s.ring n.toNat).poll = true ∧ s.wantsPoll n.toNat = true ∧ tickLe ((s.ring n.toNat).lastPoll + (s.pollNs n.toNat).setWidth 64) s.tick = true →
       exec (.doorbellPoll n) s = .next (s.readDoorbell n.toNat)) ∧
     ((s.ring n.toNat).poll = false ∧ hostRing n.toNat = true → exec (.doorbellPoll n) s = .next s) ∧
     (s.writable 4 = true → ∃ t, exec (.dbNudge (1 <<< n.toNat)) s = .next t ∧ t = (s.readDoorbell n.toNat).rpOk) ∧
     ((s.ring n.toNat).st = .stopping ∧ s.eng.ofRing n.toNat = [] → exec (.ringStopped n) s = .next (s.modRing n.toNat fun r => { r with st := .stopped })) ∧
     ((s.ring n.toNat).st ≠ .stopping ∨ s.eng.ofRing n.toNat ≠ [] → exec (.ringStopped n) s = .next s) ∧
     (∀ tag x data, s.pins.hmRunning = true → s.eng.hm.find? (fun x => x.1 == tag) = some x →
       exec (.hmResponse tag false data) s = .next ((State.answered (s.modEng fun e => { e with hm := e.hm.filter fun y => y.1 != tag }) x.2.1 data).hmNext) ∧
       exec (.hmResponse tag true data) s = .next ((State.hmFailed (s.modEng fun e => { e with hm := e.hm.filter fun y => y.1 != tag }) x.2.1 1).hmNext) ∧
       (s.isDue (x.2.2 + 100001) = true → exec (.hmTimeout tag) s = .next ((State.hmFailed (s.modEng fun e => { e with
         hm := e.hm.filter fun y => y.1 != tag, dead := e.dead ++ [tag] }) x.2.1 2).hmNext))) ∧
     (∀ data : BitVec 512, s.ringRuns n.toNat = true → hostRing n.toNat = true →
       (((data.extractLsb' 0 32 - (s.ring n.toNat).cons).toNat ≤ (s.ring n.toNat).size →
         s.doorbellRead n data = (s.modRing n.toNat fun r => { r with prod := data.extractLsb' 0 32 }).fetchMore n.toNat 8) ∧
       ((s.ring n.toNat).size < (data.extractLsb' 0 32 - (s.ring n.toNat).cons).toNat → s.doorbellRead n data = s.haltRing n.toNat 2 3))) ∧
     (∀ err cause, n ≠ 3 → n.toNat < s.eng.rings.length → (s.ring n.toNat).st ≠ .halted → s.eng.hmQ = [] → ((s.haltRing n.toNat err cause).ring n.toNat).st = .halted ∧
       ((s.haltRing n.toNat err cause).ring n.toNat).err = err)) ∧
  (∀ (s : State) (n : BitVec 3) (w : Word), s.writable 4 = true →
     (s.fwReady = true ∧ (s.isLeaf = true ∨ (n ≠ 4 ∧ n ≠ 5)) ∧ hostRing n.toNat = true ∧ (s.ring n.toNat).en = false ∧ n.toNat < s.eng.rings.length →
       ∃ t, exec (.ringEnSet n w) s = .next t ∧ (t.ring n.toNat).en = true ∧ (t.ring n.toNat).st = .running ∧ (t.ring n.toNat).prod = (s.ring n.toNat).cons ∧
         (t.ring n.toNat).cons = (s.ring n.toNat).cons ∧ (t.ring n.toNat).poll = w.getLsbD 1 ∧ (t.ring n.toNat).cls = w.getLsbD 2 ∧ (t.ring n.toNat).fetched = [] ∧
         t.rp.err = false ∧ t.fc = s.fc ∧ t.ports = s.ports) ∧
     (s.fwReady = true ∧ (s.isLeaf = true ∨ n ≠ 4) ∧ hostRing n.toNat = false ∧ (s.ring n.toNat).en = false ∧ n.toNat < s.eng.rings.length →
       ∃ t, exec (.ringEnSet n w) s = .next t ∧ (t.ring n.toNat).en = true ∧ t.rp.err = false) ∧
     (s.fwReady = false → exec (.ringEnSet n w) s = .next s.rpErr) ∧
     (s.isLeaf = false ∧ (n = 4 ∨ n = 5) → exec (.ringEnSet n w) s = .next s.rpErr) ∧
     (s.fwReady = true → (s.ring n.toNat).en = true → (s.ring n.toNat).st = .running → n.toNat < s.eng.rings.length →
       exec (.ringEnClear n w) s = .next ((State.loseHeld (s.modRing n.toNat fun r => { r with
         poll := w.getLsbD 1, cls := w.getLsbD 2, en := false, st := if s.eng.ofRing n.toNat = [] then .stopped else .stopping, fetched := [] }) n.toNat).rpOk)))

/-- Taking a descriptor (R299, R304, R305, R307, R308, R315): it is taken only in its turn; CONS advances by one, the block keeps a copy under the next
number, and the first failing check of R307 completes it. -/
def Obligations.DescriptorTaken : Prop :=
  ∀ (s : State) (u : Bool) (d : Desc), s.alive = true →
    (s.takeable u d = false → exec (.launchAt u d) s = .next s ∧ exec (.fence u d) s = .next s) ∧
    ((s.pull u d).eng.taken = s.eng.taken ++ [{ num := s.eng.takenNum, urgent := u, opcode := descOp d, node := descNode d, ptag := descTag d
                                                hostTag := descHost d, takenAt := s.tick, body := d }]) ∧
    ((s.pull u d).eng.takenNum = s.eng.takenNum + 1) ∧ (cmdRing u < s.eng.rings.length → ((s.pull u d).ring (cmdRing u)).cons = (s.ring (cmdRing u)).cons + 1) ∧
    (∃ e o, s.pull u d = { s with eng := e, out := o }) ∧
    (s.takeable u d = true → opSupported s.isLeaf (descOp d).toNat = false → exec (.unsupportedOpcode u d) s =
      .next ((s.pull u d).complete s.eng.takenNum stUnsupported)) ∧
    (∀ st c det, s.takeable u d = true → s.commonCheck d = some (st, c, det) →
      (descOp d = 0x01 → exec (.launchAt u d) s = .next ((s.pull u d).complete s.eng.takenNum st c det)) ∧
      (descOp d = 0x02 → exec (.barrierArm u d) s = .next ((s.pull u d).complete s.eng.takenNum st c det)) ∧
      (descOp d = 0x05 → exec (.swapAt u d) s = .next ((s.pull u d).complete s.eng.takenNum st c det)) ∧
      (descOp d = 0x0F → exec (.fence u d) s = .next ((s.pull u d).complete s.eng.takenNum st c det)))

/-- LAUNCH_AT, SWAP_AT, PARK_AT, SIGNAL and BARRIER_ARM (R204, R206, R224, R225, R231, R232, R269), once taken and checked: `t` is the state with the
descriptor taken, `n` its number. -/
def Obligations.TimedDescriptors : Prop :=
  ∀ (s t : State) (u : Bool) (d : Desc) (n : Nat) (p : Part), s.alive = true → s.takeable u d = true → s.commonCheck d = none → t = s.pull u d →
      n = s.eng.takenNum → t.part (descTag d) = some p →
    (descOp d = 0x01 → 15 < (d.extractLsb' 256 8).toNat → exec (.launchAt u d) s = .next (t.complete n stInvalid)) ∧
    (descOp d = 0x01 → (d.extractLsb' 256 8).toNat ≤ 15 → d.getLsbD 12 = false → d.getLsbD 13 = false →
      (t.leadShort (d.extractLsb' 64 80) (t.minLead p) = true → exec (.launchAt u d) s = .next (t.complete n stLate)) ∧
      (t.leadShort (d.extractLsb' 64 80) (t.minLead p) = false → t.isLeaf = false → exec (.launchAt u d) s = .next ((t.sendOn p.act.children 5 (.launch {
        ptag := p.ptag, launchId := d.extractLsb' 224 32, t := d.extractLsb' 64 80, origin := t.elect.node, up := false, leafOrig := false, chan := d.extractLsb' 256 4 })).complete n stDone)) ∧
      (t.leadShort (d.extractLsb' 64 80) (t.minLead p) = false → t.isLeaf = true → t.envShort d (d.extractLsb' 64 80) = false → t.tableFull = false →
        exec (.launchAt u d) s = .next (t.takeLaunch 0 p { ptag := p.ptag, launchId := d.extractLsb' 224 32, t := d.extractLsb' 64 80, origin := t.elect.node
                                                           up := true, leafOrig := true, chan := d.extractLsb' 256 4 }))) ∧
    (∀ k, descOp d = 0x01 → (d.extractLsb' 256 8).toNat ≤ 15 → d.getLsbD 12 = true → d.getLsbD 13 = false → t.isLeaf = true → t.slotOf (descTag d) = some k →
      t.leadShort (d.extractLsb' 64 80) (t.lTr + 100) = false → t.envShort d (d.extractLsb' 64 80) = false →
      (t.tableFull = true → exec (.launchAt u d) s = .next (t.complete n stTableFull)) ∧
      (t.tableFull = false → exec (.launchAt u d) s = .next ((t.insert {
        action := .launch, env := d.getLsbD 14, ptag := descTag d, id := d.extractLsb' 224 32, arg := d.extractLsb' 256 8, desc := some n, t := d.extractLsb' 64 80 }).lendFall (d.getLsbD 14)))) ∧
    (descOp d = 0x05 → p.rev4 = true → exec (.swapAt u d) s = .next (t.complete n stRefused (refusal 0x05 0x15))) ∧
    (descOp d = 0x05 → p.rev4 = false → (p.swap.isSome = true ∨ t.tr.pending = true) → exec (.swapAt u d) s = .next (t.complete n stBusy)) ∧
    (descOp d = 0x05 → p.rev4 = false → p.swap = none → t.tr.pending = false → t.leadShort (d.extractLsb' 64 80) (t.minLead p) = false →
      (t.isLeaf = true → t.tableFull = false) → exec (.swapAt u d) s = .next (t.takeSwap 0 p {
        ptag := p.ptag, swapId := d.extractLsb' 224 32, t := d.extractLsb' 64 80, origin := t.elect.node, up := t.isLeaf, leafOrig := t.isLeaf })) ∧
    (∀ k, descOp d = 0x09 → t.isLeaf = true → d.getLsbD 12 = false → t.slotOf (descTag d) = some k →
      (((t.ctx k).arm (d.extractLsb' 224 8)).elim false (fun a => a.step) = false → exec (.parkAt u d) s = .next (t.complete n stInvalid)) ∧
      (((t.ctx k).arm (d.extractLsb' 224 8)).elim false (fun a => a.step) = true → t.parkFree k = true → t.tableFull = false → exec (.parkAt u d) s =
        .next (t.takePark p { ptag := p.ptag, bid := d.extractLsb' 224 8, round := 0, origin := t.elect.node, up := true, leafOrig := true }))) ∧
    (descOp d = 0x09 → t.isLeaf = true → d.getLsbD 12 = true → exec (.parkAt u d) s =
      .next (if t.leadShort (d.extractLsb' 64 80) 1000 then t.complete n stLate else t)) ∧
    (∀ k, descOp d = 0x04 → d.getLsbD 12 = false → (d.extractLsb' 272 8 = 1 ∨ d.extractLsb' 272 8 = 2) → t.slotOf (descTag d) = some k → (t.ctx k).st = .active →
      exec (.signal u d) s = .next ((t.leafSignal p none { ptag := descTag d, destRank := d.extractLsb' 224 32, obj := d.extractLsb' 256 12, op := d.extractLsb' 272 8
                                                           xlated := false, value := d.extractLsb' 288 32, srcRank := (t.ctx k).rank, destNode := noNode }).complete n stDone)) ∧
    (descOp d = 0x04 → d.getLsbD 12 = true → t.leadShort (d.extractLsb' 64 80) 100 = false → t.tableFull = false → exec (.signal u d) s = .next (t.insert {
      action := .signal, ptag := descTag d, id := d.extractLsb' 288 32, t := d.extractLsb' 64 80, relBid := d.extractLsb' 272 8
      relRound := (d.extractLsb' 256 12).setWidth 32, desc := some n })) ∧
    (∀ k, descOp d = 0x02 → t.slotOf (descTag d) = some k →
      (t.armInvalid (t.ctx k) p (armOf d) = true → exec (.barrierArm u d) s = .next (t.complete n stInvalid)) ∧
      (t.armInvalid (t.ctx k) p (armOf d) = false → ((t.ctx k).arm (d.extractLsb' 64 8)).isSome = true → exec (.barrierArm u d) s = .next (t.complete n stBusy)) ∧
      (t.armInvalid (t.ctx k) p (armOf d) = false → (t.ctx k).arm (d.extractLsb' 64 8) = none → exec (.barrierArm u d) s =
        .next (State.complete (State.setObj (t.modCtx k fun c => { c with arms := c.arms ++ [armOf d] }) k (d.extractLsb' 64 8).toNat {
          type := .barrier, armed := true, chan := d.extractLsb' 72 4, chanEn := d.getLsbD 76, timeout := d.extractLsb' 304 32, deadline := if d.extractLsb' 304 32 = 0 then 0 else htAdd t.stamp (d.extractLsb' 304 32).toNat }) n stDone)))

/-- CFG_WRITE, WINDOW_SET, LOAD_ENV and CAPTURE_ARM (R181, R211, R217, R220, R223, R311, R412), once taken and checked. -/
def Obligations.SettingDescriptors : Prop :=
  ∀ (s t : State) (u : Bool) (d : Desc) (n : Nat), s.alive = true → s.takeable u d = true → s.commonCheck d = none → t = s.pull u d →
      n = s.eng.takenNum →
    (∀ k, descOp d = 0x06 → t.slotOf (descTag d) = some k →
      (3 < (d.extractLsb' 64 8).toNat ∨ d.extractLsb' 64 8 = 0 → exec (.cfgWrite u d) s = .next (t.complete n stInvalid)) ∧
      (d.extractLsb' 64 8 = 2 → d.extractLsb' 160 32 ≠ 0 → (d.extractLsb' 160 32).toNat < (d.extractLsb' 128 32).toNat → exec (.cfgWrite u d) s =
        .next (t.complete n stInvalid)) ∧
      (d.extractLsb' 64 8 = 2 → (d.extractLsb' 160 32 = 0 ∨ (d.extractLsb' 128 32).toNat ≤ (d.extractLsb' 160 32).toNat) → t.swapArmed = false →
        exec (.cfgWrite u d) s = .next ((t.modCtx k fun c => { c with cfgS := { c.cfgS with budget := d.extractLsb' 128 32, limit := d.extractLsb' 160 32 } }).complete n stDone)) ∧
      (d.extractLsb' 64 8 = 3 → t.swapArmed = false → exec (.cfgWrite u d) s = .next ((t.modCtx k fun c => { c with cfgS := { c.cfgS with
        sigHost := d.extractLsb' 128 64, sigBlock := d.extractLsb' 192 64 } }).complete n stDone)) ∧
      (d.extractLsb' 64 8 = 1 → d.extractLsb' 72 8 = 1 → d.extractLsb' 104 8 = 0 → d.getLsbD 99 = false → t.swapArmed = false → exec (.cfgWrite u d) s =
        .next ((t.cfgTrellis 1 (wordAddr (d.extractLsb' 80 20)) none 0 (d.extractLsb' 128 32)).access true 1 (wordAddr (d.extractLsb' 80 20)) 0 (d.extractLsb' 128 32) none (some n))) ∧
      (d.extractLsb' 64 8 = 3 → t.swapArmed = true → exec (.cfgWrite u d) s = .next (t.complete n stBusy))) ∧
    (∀ m, descOp d = 0x0A → t.schedBad (d.extractLsb' 224 4).toNat (schedOf d) = some m → exec (.windowSet u d) s =
      .next (t.complete n stInvalid 0 (det10 [(22, 1, m)]))) ∧
    (descOp d = 0x0A → t.schedBad (d.extractLsb' 224 4).toNat (schedOf d) = none → t.swapArmed = true → exec (.windowSet u d) s = .next (t.complete n stBusy)) ∧
    (descOp d = 0x0A → t.schedBad (d.extractLsb' 224 4).toNat (schedOf d) = none → t.swapArmed = false → t.activeSlot ≠ none → exec (.windowSet u d) s =
      .next ((t.modBand fun b => { b with schedS := b.schedS.set (d.extractLsb' 224 4).toNat (schedOf d) }).complete n stDone)) ∧
    (descOp d = 0x0A → t.schedBad (d.extractLsb' 224 4).toNat (schedOf d) = none → t.swapArmed = false → t.activeSlot = none → exec (.windowSet u d) s =
      .next (((((t.modBand fun b => { b with schedS := b.schedS.set (d.extractLsb' 224 4).toNat (schedOf d) }).modBand fun b => { b with
        schedA := b.schedA.set (d.extractLsb' 224 4).toNat (schedOf d) }).enterSched (d.extractLsb' 224 4).toNat).driveWin).complete n stDone)) ∧
    (descOp d = 0x0E → d.getLsbD 12 = false → envBad d = true → exec (.loadEnv u d) s = .next (t.complete n stInvalid)) ∧
    (descOp d = 0x0E → d.getLsbD 12 = false → envBad d = false → t.swapArmed = false → t.activeSlot = none → exec (.loadEnv u d) s =
      .next ((t.modBand fun b => { b with envS := envOf d, envA := envOf d }).complete n stDone)) ∧
    (descOp d = 0x0E → d.getLsbD 12 = false → envBad d = false → t.swapArmed = false → t.activeSlot ≠ none → exec (.loadEnv u d) s =
      .next ((t.modBand fun b => { b with envS := envOf d }).complete n stDone)) ∧
    (descOp d = 0x0E → d.getLsbD 12 = true → t.band.envA.en = false → (d.extractLsb' 224 8).toNat ≤ 15 → t.leadShort (d.extractLsb' 64 80) 100 = false →
      t.tableFull = false → exec (.loadEnv u d) s = .next (t.insert { action := .loadStep, node := true, t := d.extractLsb' 64 80, id := descHost d
                                                                      arg := d.extractLsb' 224 8, ofs := d.extractLsb' 256 32, desc := some n })) ∧
    (descOp d = 0x0D → 7 < (d.extractLsb' 384 8).toNat → exec (.captureArm u d) s = .next (t.complete n stInvalid)) ∧
    (descOp d = 0x0D → (d.extractLsb' 384 8).toNat ≤ 7 → d.getLsbD 12 = true → t.leadShort (d.extractLsb' 64 80) 100 = false → t.tableFull = false →
      exec (.captureArm u d) s = .next (t.insert { action := .capOpen, node := true, t := d.extractLsb' 64 80, id := descHost d, arg := d.extractLsb' 384 8
                                                   desc := some n, last := true })) ∧
    (descOp d = 0x0D → (d.extractLsb' 384 8).toNat ≤ 7 → d.getLsbD 12 = false → htLt (d.extractLsb' 64 80) (d.extractLsb' 224 80) = true →
      t.leadShort (d.extractLsb' 64 80) 100 = false → t.tableFull 2 = false → exec (.captureArm u d) s =
        .next ((t.insert { action := .capOpen, node := true, t := d.extractLsb' 64 80, id := descHost d, arg := d.extractLsb' 384 8, desc := some n, last := false }).insert {
          action := .capClose, node := true, t := d.extractLsb' 224 80, id := descHost d, arg := d.extractLsb' 384 8, desc := some n, last := true }))

/-- PARTITION_OPEN, PARTITION_CLOSE, DUMP, FENCE, FENCE_DONE, REPLAY_START and REPLAY_INJECT (R154, R157, R275, R292 to R294, R309 to R311, R315), once
taken and checked. -/
def Obligations.ControlDescriptors : Prop :=
  (∀ (s t : State) (u : Bool) (d : Desc) (n : Nat), s.alive = true → s.takeable u d = true → s.commonCheck d = none → t = s.pull u d →
      n = s.eng.takenNum →
    (descOp d = 0x07 → (t.eng.taken.any fun x => !x.fin && x.num != n && x.opcode == 0x07 && ptPart x.ptag == ptPart (descTag d)) = true →
      exec (.partitionOpen u d) s = .next (t.complete n stBusy)) ∧
    (descOp d = 0x07 → (t.eng.taken.any fun x => !x.fin && x.num != n && x.opcode == 0x07 && ptPart x.ptag == ptPart (descTag d)) = false →
      exec (.partitionOpen u d) s = .next (State.hmIssue (t.hmIssue {
        kind := .openBlock (if u then 1 else 0) n false, write := false, addr := d.extractLsb' 224 64 &&& ~~~63, beats := 4 }) {
        kind := .openBlock (if u then 1 else 0) n true, write := false, addr := (d.extractLsb' 224 64 &&& ~~~63) + 64, beats := 4 })) ∧
    (descOp d = 0x08 → exec (.partitionClose u d) s = .next (t.toRoot .close { t.partMsg (descTag d) with t := d.extractLsb' 64 80 })) ∧
    (descOp d = 0x0B → t.eng.dump.isSome = true → (d.getLsbD 12 = true → (d.extractLsb' 64 8).toNat ≤ 1) → exec (.dump u d) s = .next (t.complete n stBusy)) ∧
    (∀ k, descOp d = 0x0B → t.eng.dump = none → d.getLsbD 12 = false → t.slotOf (descTag d) = some k →
      exec (.dump u d) s = .next (t.startDump (t.dumpOfSlot k 0x01 (some n)))) ∧
    (∀ p, descOp d = 0x0B → t.eng.dump = none → d.getLsbD 12 = false → t.slotOf (descTag d) = none → t.part (descTag d) = some p →
      exec (.dump u d) s = .next (t.startDump (t.dumpOfHub p (some n)))) ∧
    (descOp d = 0x0B → d.getLsbD 12 = true → 1 < (d.extractLsb' 64 8).toNat → exec (.dump u d) s = .next (t.complete n stInvalid)) ∧
    (descOp d = 0x0B → t.eng.dump = none → d.getLsbD 12 = true → (d.extractLsb' 64 8).toNat ≤ 1 → exec (.dump u d) s = .next (t.startDump (t.dumpOfSlot (d.getLsbD 64) 0x01 (some n)))) ∧
    (descOp d = 0x0F → 2 < (d.extractLsb' 64 8).toNat → exec (.fence u d) s = .next (t.complete n stInvalid)) ∧
    (descOp d = 0x0F → (d.extractLsb' 64 8).toNat ≤ 2 → exec (.fence u d) s = .next (t.modRing (if u then 1 else 0) fun r => { r with fence := some n })) ∧
    (∀ k, descOp d = 0x10 → t.slotOf (descTag d) = some k →
      ((d.extractLsb' 128 64).toNat < (d.extractLsb' 64 64).toNat ∨ t.sync.capMask = 0 → exec (.replayStart u d) s = .next (t.complete n stInvalid)) ∧
      ((d.extractLsb' 64 64).toNat ≤ (d.extractLsb' 128 64).toNat → t.sync.capMask ≠ 0 → (t.ctx k).st = .opening → exec (.replayStart u d) s =
        .next (State.replayOn (t.modSync fun y => { y with
          replay := some (descTag d, d.extractLsb' 64 64, d.extractLsb' 128 64, n), replayQ := [], lastOfs := none, recG0 := none, divStep := none }))))) ∧
  (∀ (s : State) (u : Bool) (n : Nat) (x : Taken), s.alive = true → (s.ring (if u then 1 else 0)).fence = some n →
    s.eng.taken.find? (fun x => x.num == n && !x.fin) = some x →
      (s.fenceMet x = true → exec (.fenceDone u) s = .next ((s.modRing (if u then 1 else 0) fun r => { r with fence := none }).complete n stDone)) ∧
      (s.fenceMet x = false → exec (.fenceDone u) s = .next s)) ∧
  (∀ (s : State) (k : Bool) (n : BitVec 3) (e : Bool) (ofs : HT80) (rest : List RepEntry), s.alive = true → s.isLeaf = true → s.activeSlot = some k →
    s.sync.replayQ = .capture n e ((s.ctx k).iStep.setWidth 32) ofs :: rest → s.sync.replaying (s.ctx k).ptag (s.ctx k).iStep = true →
    (s.isDue (dueTick (htAdd (s.ctx k).iStart 0 + ofs)) = false → exec (.replayInject n) s = .next s) ∧
    (s.isDue (dueTick (htAdd (s.ctx k).iStart 0 + ofs)) = true → exec (.replayInject n) s = .next (State.replayOn (State.inject
      ((s.checkOrder k ((s.ctx k).iStep.setWidth 32) (some ofs)).modSync fun y => { y with replayQ := rest, lastOfs := some ((s.ctx k).iStep.setWidth 32, ofs) })
      k n e ofs (decide (dueTick (htAdd (s.ctx k).iStart 0 + ofs) != s.tick))))))

/-- The operations on an object (R260, R261, R263, R265): what each does to a COUNTER, a FLAG, a TIMER and a BARRIER, and which are misuse. The fields
of a CFG word re-create the object with every other field 0 (R267). -/
def Obligations.ObjectOperations : Prop :=
  (∀ (x : Obj) (v : BitVec 32) (now : HT80),
     (x.type = .counter → x.apply 1 v now = (x.addTo v).settle ∧ x.apply 2 v now = (x.subFrom v).settle ∧
       x.apply 3 v now = ({ x with value := v } : Obj).settle ∧ x.apply 4 v now = ({ x with value := 0 } : Obj).settle ∧
       (x.apply 6 v now).misuse = true ∧ (x.addTo v).value = x.value + v ∧ (x.subFrom v).value = x.value - v ∧
       ((x.addTo v).cnt16 = if 2 ^ 32 ≤ x.value.toNat + v.toNat then satInc x.cnt16 else x.cnt16) ∧
       ((x.subFrom v).cnt16 = if x.value.toNat < v.toNat then satInc x.cnt16 else x.cnt16)) ∧
     (x.type = .flag → x.value.getLsbD 0 = true → (x.apply 1 v now).obj = { x with double := true, cnt16 := satInc x.cnt16 } ∧ (x.apply 1 v now).rise = !x.double ∧
       (x.apply 1 v now).wake = false) ∧
     (x.type = .flag → x.value.getLsbD 0 = false → x.armed = true → (x.apply 1 v now).wake = x.wakeEn ∧ (x.apply 1 v now).obj.armed = false ∧
       (x.apply 1 v now).obj.deadline = 0 ∧ (x.apply 1 v now).obj.value.getLsbD 0 = !x.consume) ∧
     (x.type = .flag → (x.apply 2 v now).misuse = true ∧ (x.apply 3 v now).misuse = true ∧ (x.apply 4 v now).obj.value.getLsbD 0 = false) ∧
     ((x.type = .counter ∨ x.type = .flag) → x.armed = true → x.apply 5 v now = { obj := x }) ∧
     ((x.type = .counter ∨ x.type = .flag) → x.armed = false → x.satisfied = false → x.apply 5 v now = { obj := { x with
       armed := true, deadline := if x.timeout = 0 then 0 else htAdd now x.timeout.toNat } }) ∧
     (x.type = .timer → (x.apply 6 v now).obj = { x with armed := true, deadline := htAdd now (if v = 0 then x.timeout.toNat else v.toNat) } ∧
       (x.apply 4 v now).obj = { x with armed := false, deadline := 0 } ∧ (x.apply 1 v now).misuse = true ∧ (x.apply 5 v now).misuse = true) ∧
     (x.type = .barrier → x.chanEn = true → x.apply 1 v now = { obj := x, misuse := true }) ∧
     (x.type = .barrier → x.chanEn = false → v.extractLsb' 0 2 = x.value.extractLsb' 0 2 → x.hostCur = false →
       (x.apply 1 v now).obj = { x with hostCur := true } ∧ (x.apply 1 v now).arrived = true) ∧
     (x.type = .barrier → x.chanEn = false → v.extractLsb' 0 2 = x.value.extractLsb' 0 2 + 2 → (x.apply 1 v now).obj = { x with cnt16 := satInc x.cnt16 } ∧
       (x.apply 1 v now).arrived = false) ∧
     (x.type = .none → ∀ op, x.apply op v now = { obj := x, misuse := true }) ∧
     (∀ op : Byte, (op = 0 ∨ 6 < op.toNat) → x.apply op v now = { obj := x, misuse := true })) ∧
  (∀ w : Word,
     (w.extractLsb' 0 3 = 1 → cfgObj w = { type := .counter, consume := w.getLsbD 3, remoteOk := w.getLsbD 4, wakeEn := w.getLsbD 5, wchan := w.extractLsb' 6 4
                                           auto := w.getLsbD 10, thresh := w.extractLsb' 16 16 }) ∧
     (w.extractLsb' 0 3 = 2 → cfgObj w = { type := .flag, consume := w.getLsbD 3, remoteOk := w.getLsbD 4, wakeEn := w.getLsbD 5, wchan := w.extractLsb' 6 4
                                           auto := w.getLsbD 10 }) ∧
     (w.extractLsb' 0 3 = 4 → cfgObj w = { type := .timer, remoteOk := w.getLsbD 4, wakeEn := w.getLsbD 5, wchan := w.extractLsb' 6 4, rel := w.getLsbD 11 }))

/-- SYNC_WIN_POST, SYNC_WIN_OP, SYNC_WIN_CFG, SO_CLR, BS_CLR and DG_LAYER_HI_WRITE (R230, R263, R267, R268, R278, R282, R295): the writes that act on the
addressed slot, and what they answer when there is none. A post takes its turn among the posts of its tick; a write of CFG comes after
those accepted before it. -/
def Obligations.SyncWindow : Prop :=
  ∀ (s : State) (o : BitVec 12) (w : Word), s.isLeaf = true →
    (s.writable 5 = true →
      (∀ k, s.sync.sel = false → s.activeSlot = some k →
        exec (.syncWinPost o w) s = .next (s.rpOk.modSync fun y => { y with
          posts := y.posts ++ [{ slot := k, obj := o.toNat, op := 1, operand := w, src := 1, rank := 0 }] }) ∧
        exec (.syncWinOp o w) s = .next (s.rpOk.modSync fun y => { y with
          posts := y.posts ++ [{ slot := k, obj := o.toNat, op := w.extractLsb' 0 8, operand := (w.extractLsb' 8 24).setWidth 32, src := 1, rank := 0 }] })) ∧
      (s.sync.posts = [] → s.applyPosts = s) ∧
      (∀ e, s.sync.posts = [e] → s.applyPosts = (s.modSync fun y => { y with posts := [] }).objOp e.slot e.obj e.op e.operand e.src e.rank) ∧
      (s.winSlot = none → exec (.syncWinPost o w) s = .next ((s.modSync fun y => { y with noctx := satInc y.noctx }).rpErr) ∧
        exec (.syncWinOp o w) s = .next ((s.modSync fun y => { y with noctx := satInc y.noctx }).rpErr)) ∧
      (∀ k, s.sync.sel = true → s.winSlot = some k → exec (.syncWinPost o w) s = .next s.rpErr ∧ exec (.syncWinOp o w) s = .next s.rpErr) ∧
      (∀ t, t = s.applyPosts →
        (t.winSlot = none → exec (.syncWinCfg o w) s = .next ((t.modSync fun y => { y with noctx := satInc y.noctx }).rpErr)) ∧
        (∀ k, t.winSlot = some k → t.barrierObj k o.toNat = true → exec (.syncWinCfg o w) s = .next t.rpErr) ∧
        (∀ k, t.winSlot = some k → w.extractLsb' 0 3 = 3 → exec (.syncWinCfg o w) s = .next t.rpErr) ∧
        (∀ k, t.winSlot = some k → t.barrierObj k o.toNat = false → (w.extractLsb' 0 3 = 0 ∨ w.extractLsb' 0 3 = 2 ∨ w.extractLsb' 0 3 = 4 ∨
            (w.extractLsb' 0 3 = 1 ∧ w.extractLsb' 16 16 ≠ 0)) →
          ((t.ctx k).st = .active → exec (.syncWinCfg o w) s = .next (((t.dropTimerWake o.toNat).setObj k o.toNat (cfgObj w)).rpOk)) ∧
          ((t.ctx k).st ≠ .active → exec (.syncWinCfg o w) s = .next ((t.setObj k o.toNat (cfgObj w)).rpOk)))) ∧
      (∀ k, s.activeSlot = some k → exec (.dgLayerHiWrite w) s = .next ((s.modCtx k fun c => c.note s.stamp
        (.item 3 (bytesOf 4 s.sync.layerLo.toNat ++ bytesOf 4 w.toNat))).rpOk)) ∧
      (s.activeSlot = none → exec (.dgLayerHiWrite w) s = .next ((s.modSync fun y => { y with layerNoctx := satInc y.layerNoctx }).rpErr)) ∧
      exec .soClr s = .next ((s.modSync fun y => { y with stale := 0, remote := 0, ops := 0, noctx := 0 }).rpOk)) ∧
    (s.writable 7 = true → exec .bsClr s = .next ((s.modBand fun b => { b with hwm := BitVec.ofNat 13 b.table.length, lateSteps := 0, forced := 0 }).rpOk))

/-- PRESET, ACCEL, REELECT and ORG_UTC_OFS_WRITE (R22, R23, R104, R112, R114, R125, R126). TL_EN_SET, TL_EN_CLEAR, RETRAIN and CAL_NOW (R82, R83, R89,
R99): a disabled port goes to TRAIN, a port in UP first takes leave, and RETRAIN loses the port with reason 0x05. -/
def Obligations.TimeAndPortRegisters : Prop :=
  (∀ s : State,
     (s.writable 0 = true → s.sun.counting = true → s.sun.st = .freerun → s.upPorts = [] → s.holdsPartition = false →
       (∃ t, exec .preset s = .next t ∧ t.sun.now = s.sun.staged ∧ t.sun.stepCnt = satInc s.sun.stepCnt ∧ t.rp.err = false ∧ t.pins.core = s.pins.core ∧
         t.fc.core = s.fc.core ∧ t.org.utcOfs = s.org.utcOfs ∧ ∀ a, t.pw.read a = s.pw.read a)) ∧
     (s.writable 0 = true → (s.sun.counting = false ∨ s.sun.st ≠ .freerun ∨ s.upPorts ≠ [] ∨ s.holdsPartition = true) → exec .preset s = .next s.rpErr) ∧
     (s.writable 1 = true → s.holdsPartition = false → (s.sun.isRoot = false ∨ s.fabricOpen = false) → s.org.srcType = 0 → exec .accel s = .next s.rpOk) ∧
     (s.writable 1 = true → s.sun.isRoot = true → s.fabricOpen = true → exec .accel s = .next s.rpErr) ∧
     (s.writable 1 = true → s.holdsPartition = false → (s.sun.isRoot = false ∨ s.fabricOpen = false) → s.org.srcType ≠ 0 →
       exec .accel s = .next ((s.modOrg fun o => { o with accel := true, stage := 0, stageSince := s.tick, reps := 0, dirty := true }).rpOk)) ∧
     (s.writable 1 = true → s.holdsPartition = true → exec .accel s = .next s.rpErr) ∧
     (∀ w, s.writable 1 = true → s.sun.isRoot = true → exec (.orgUtcOfsWrite w) s = .next ((s.modOrg fun o => { o with utcOfs := w }).sendOffers.rpOk)) ∧
     (∀ w, s.writable 1 = true → s.sun.isRoot = false → exec (.orgUtcOfsWrite w) s = .next s.rpOk) ∧
     (∀ (w : Word) (t : State), s.writable 1 = true → t = s.modOrg (fun o => { o with prio := w.extractLsb' 0 8, osc := w.getLsbD 8 }) →
       (w.extractLsb' 0 8 = s.org.prio → (t.requalify.elect.recorded = none ∨ t.requalify.sun.isRoot = false) →
         exec (.reelect w) s = .next t.requalify.rpOk) ∧
       (w.extractLsb' 0 8 = s.org.prio → t.requalify.elect.recorded ≠ none → t.requalify.sun.isRoot = true →
         exec (.reelect w) s = .next t.requalify.yieldRoot.rpOk) ∧
       (w.extractLsb' 0 8 ≠ s.org.prio → (t.sendClaim.requalify.elect.recorded = none ∨ t.sendClaim.requalify.sun.isRoot = false) →
         exec (.reelect w) s = .next t.sendClaim.requalify.rpOk) ∧
       (w.extractLsb' 0 8 ≠ s.org.prio → t.sendClaim.requalify.elect.recorded ≠ none → t.sendClaim.requalify.sun.isRoot = true →
         exec (.reelect w) s = .next t.sendClaim.requalify.yieldRoot.rpOk))) ∧
  (∀ (s : State) (p : PortNo) (w : Word), s.writable 0 = true → p.toNat < s.ports.length → (w.extractLsb' 4 4).toNat ≤ 10 → w.getLsbD 8 = false →
       w.getLsbD 9 = false →
     (s.tlEnOk p = true → (s.port p).st = .disabled → s.pins.linkLow.getLsbD p.toNat = false → s.mute = false → exec (.tlEnSet p w) s =
       .next (State.keepParent (s.modPort p fun q => { q with noTime := w.getLsbD 1, revCap := w.extractLsb' 2 2, swing := w.extractLsb' 4 4, en := true, st := .train, since := s.tick })).rpOk) ∧
     (s.tlEnOk p = true → ((s.port p).st ≠ .disabled ∨ s.pins.linkLow.getLsbD p.toNat = true ∨ s.mute = true) → exec (.tlEnSet p w) s =
       .next (State.keepParent (s.modPort p fun q => { q with noTime := w.getLsbD 1, revCap := w.extractLsb' 2 2, swing := w.extractLsb' 4 4, en := true })).rpOk) ∧
     (s.tlEnOk p = false → exec (.tlEnSet p w) s = .next s.rpErr) ∧
     ((s.port p).st = .up → s.mute = false → (s.port p).exiting = 0 → exec (.tlEnClear p w) s =
       .next (State.keepParent (s.modPort p fun q => { q with noTime := w.getLsbD 1, revCap := w.extractLsb' 2 2, swing := w.extractLsb' 4 4, en := false, exiting := 3 })).rpOk) ∧
     (((s.port p).st = .disabled ∨ ((s.port p).st = .up ∧ (s.mute = true ∨ (s.port p).exiting ≠ 0))) → exec (.tlEnClear p w) s =
       .next (State.keepParent (s.modPort p fun q => { q with noTime := w.getLsbD 1, revCap := w.extractLsb' 2 2, swing := w.extractLsb' 4 4, en := false })).rpOk) ∧
     ((s.port p).st ≠ .disabled → (s.port p).st ≠ .up → exec (.tlEnClear p w) s =
       .next (State.keepParent (State.portExit (s.modPort p fun q => { q with noTime := w.getLsbD 1, revCap := w.extractLsb' 2 2, swing := w.extractLsb' 4 4, en := false }) p)).rpOk) ∧
     exec (.retrain p) s = .next ((s.portLost p 5 .lost).rpOk) ∧
     ((s.port p).st = .up → exec (.calNow p) s = .next ((s.drew.modPort p fun q => { q with
       latTx := (Config.pathLatency s.freeIx).extractLsb' 0 32, latRx := (Config.pathLatency s.freeIx).extractLsb' 32 32, calAt := s.tick }).rpOk)) ∧
     ((s.port p).st ≠ .up → exec (.calNow p) s = .next s.rpOk))

/-- The register port (R39, R43, R46, R47, R337, R404, R405): without a supply or a host clock nothing answers; in reset every write is refused; in the
safe state every write outside the Fault page is refused and changes nothing else; a reserved page is refused. SUN_NOW_READ, SNAPSHOT_READ and
CAP_TS_READ (R25, R47, R406, R413): a read captures, and a CAPn_TS_LO read takes the oldest stamp of its FIFO. -/
def Obligations.RegisterPortAndReads : Prop :=
  (∀ (s : State) (a : BitVec 18) (w : Word),
     (s.pins.powered = false ∨ s.pins.hmRunning = false → exec (.registerWrite a w) s = .next s) ∧
     (s.pins.powered = true → s.pins.hmRunning = true → s.alive = false → exec (.registerWrite a w) s = .next s.rpErr) ∧
     (s.pins.powered = true → s.pins.hmRunning = true → s.alive = true → s.xoOk = true →
       (s.fc.safe = true → (a.toNat < 0x2000 ∨ 0x2400 ≤ a.toNat) → exec (.registerWrite a w) s = .next s.rpErr) ∧
       (s.fc.safe = false → 0x20000 ≤ a.toNat → exec (.registerWrite a w) s = .next s.rpErr) ∧
       (s.fc.safe = false → 0x8100 ≤ a.toNat → a.toNat < 0x10000 → exec (.registerWrite a w) s = .next s.rpErr) ∧
       (s.fc.safe = false → a.toNat < 0x100 → exec (.registerWrite a w) s = .next s.rpOk) ∧
       (s.fc.safe = false → exec (.registerWrite 0x2024 w) s = .next ((s.modFc fun f => { f with mask := cpair w }).rpOk)) ∧
       (s.fc.safe = false → exec (.registerWrite 0x2028 w) s = .next ((s.modFc fun f => { f with promote := cpair w }).rpOk)) ∧
       (∀ p : BitVec 3, s.fc.safe = false → p.toNat < s.ports.length → exec (.registerWrite (0x1008 + 0x40 * p.setWidth 18) w) s =
         .next ((s.modPort (p.setWidth 6) fun q => { q with asym := w.extractLsb' 0 16 }).rpOk)))) ∧
  (∀ s : State, s.pins.powered = true → s.pins.hmRunning = true → s.alive = true → s.xoOk = true →
     exec .sunNowRead s = .next ((s.modSun fun u => { u with snap := s.stamp }).rpOk (s.stamp.extractLsb' 0 32)) ∧
     (∀ n : BitVec 3, s.pdOn 2 = true → exec (.capTsRead n) s = .next ((s.modCapIn n.toNat fun c => { c with
       fifo := c.fifo.tail, snap := (s.capIn n.toNat).fifo.head? }).rpOk (tsWord (s.capIn n.toNat).fifo.head? 0))) ∧
     (∀ n : BitVec 3, s.pdOn 2 = false → exec (.capTsRead n) s = .next s.rpErr) ∧
     (∀ w, s.readWord 0x3808 = some w → exec (.snapshotRead 0x3808) s = .next ((s.modRp fun r => { r with
       snaps := assocSet 0x3808 [w, (s.readWord 0x380C).getD 0] r.snaps }).rpOk w)))

/-- The records of the ledger (R368, R369, R371 to R373): the page of a record whose read-back is good is written, SEQ advances by one, a SERVICE
record's MAC is the new chain; a bad page is skipped, and after three the record is given up. -/
def Obligations.LedgerRecords : Prop :=
  ∀ s : State, s.alive = true →
    (s.lg.job = none → exec (.pageProgramDone true) s = .next s ∧ exec (.pageProgramDone false) s = .next s) ∧
    (∀ q, s.lg.job = some (.svc q) → q.desc = none → exec (.pageProgramDone true) s = .next (State.startJob ((s.lgRead (logAddr s.lg.log.length)).modLg fun l => { l with
      log := l.log ++ [.valid l.rec_], job := none, seq := l.seq + 1, tries := 0, chain := l.rec_.extractLsb' 896 128
      svcFull := decide (l.logPages ≤ l.log.length + 1), odo := { l.odo with svcCount := satInc l.odo.svcCount } }))) ∧
    (s.lg.job = some (.odo false) → s.lg.jPos % 16 ≠ 0 → exec (.pageProgramDone true) s = .next (State.startJob ((s.lgRead (journalAddr s.lg.jPos)).modLg fun l => { l with
      journal := assocSet l.jPos (.valid l.rec_) l.journal, jPos := (l.jPos + 1) % 4096, job := none, seq := l.seq + 1, tries := 0 }))) ∧
    (s.lg.job = some (.odo false) → s.lg.jPos % 16 = 0 → s.lg.erasing = none → exec (.pageProgramDone true) s = .next (State.startJob (State.lgErase
      ((s.lgRead (journalAddr s.lg.jPos)).modLg fun l => { l with
        journal := assocSet l.jPos (.valid l.rec_) l.journal, jPos := (l.jPos + 1) % 4096, erasing := some ((l.jPos / 16 + 2) % 256), job := none
        seq := l.seq + 1, tries := 0 }) (2 + (s.lg.jPos / 16 + 2) % 256)))) ∧
    (s.lg.job = some (.odo false) → s.lg.jPos % 16 ≠ 0 → s.lg.tries < 2 → s.pw.pfail = false → exec (.pageProgramDone false) s = .next (State.startJob
      (State.nextPage ((s.lgRead (journalAddr s.lg.jPos)).modLg fun l => { l with
        journal := assocSet l.jPos .invalid l.journal, jPos := (l.jPos + 1) % 4096, tries := l.tries + 1 }) (.odo false)))) ∧
    (s.lg.job = some (.odo false) → s.lg.jPos % 16 ≠ 0 → s.lg.tries = 2 → s.pw.pfail = false → exec (.pageProgramDone false) s = .next (State.startJob (State.raiseNow ((s.lgRead (journalAddr s.lg.jPos)).modLg fun l => { l with
      journal := assocSet l.jPos .invalid l.journal, jPos := (l.jPos + 1) % 4096, tries := 3, job := none }) (ce 0x10 0x01) 0 none
      (detail [(24, 1, 1), (28, 4, s.lg.seq.toNat)])))) ∧
    (s.lg.job = some (.odo true) → exec (.pageProgramDone true) s = .next s) ∧
    (∀ k, s.lg.erasing = some k → exec .sectorEraseDone s = .next (State.startJob (s.modLg fun l => { l with
      erasing := none, journal := l.journal.filter fun x => x.1 / 16 != k }))) ∧
    (s.lg.erasing = none → exec .sectorEraseDone s = .next s) ∧
    (s.lg.ready = true → s.lg.odo.poweredS.toNat % 10 = 0 → s.lg.odo.poweredS ≠ 0 → s.lg.odo.poweredS ≠ s.lg.odoAt → s.pw.pfail = false →
      exec .odoInterval s = .next (State.startJob (s.modLg fun l => { l with odoAt := l.odo.poweredS, svcHold := false, odoDue := true }))) ∧
    (s.writable 0 = true → s.lg.ready = true → (s.lg.lastFlush.elim true fun x => tickLe (x + 1000000000) s.tick) = true → exec .flush s = .next (State.startJob (s.rpOk.modLg fun l => { l with
      lastFlush := some s.tick, odoDue := true }))) ∧
    (s.writable 0 = true → (s.lg.ready = false ∨ (s.lg.lastFlush.elim true fun x => tickLe (x + 1000000000) s.tick) = false) → exec .flush s = .next s.rpOk)

/-- TEMP_SAMPLE, LEDGER_SCAN_DONE, LG_RD_SEL_WRITE, LEDGER_READ_DONE and LEDGER_NOTE (R368, R369, R374, R376, R377): the sample of each second, the
start-up scan, the reads of the ledger, and a note of the host. The temperature is a free value (log entry 11). -/
def Obligations.LedgerReadsAndNotes : Prop :=
  ∀ s : State, s.alive = true →
    (tickLe (s.lg.sampleAt + 1000000000) s.tick = true → (s.lg.ready = false ∨ s.pw.pfail = true) → ∃ t, exec .tempSample s = .next t ∧
      t.lg.odo = s.lg.odo ∧ t.lg.sampleAt = s.tick ∧ t.lg.journal = s.lg.journal ∧ t.lg.log = s.lg.log ∧ t.fc = s.fc ∧ t.pins = s.pins) ∧
    (tickLe (s.lg.sampleAt + 1000000000) s.tick = true → s.lg.ready = true → s.pw.pfail = false → ∃ t, exec .tempSample s = .next t ∧ t.lg.odo.tNow = Config.temperature s.freeIx ∧
      t.lg.odo.poweredS = satInc s.lg.odo.poweredS ∧ t.lg.odo.serdesS = satInc s.lg.odo.serdesS s.upPorts.length ∧ t.lg.sampleAt = s.tick ∧
      t.lg.journal = s.lg.journal ∧ t.lg.log = s.lg.log ∧ t.fc = s.fc ∧ t.pins = s.pins) ∧
    (tickLe (s.lg.sampleAt + 1000000000) s.tick = false → exec .tempSample s = .next s) ∧
    (∀ id, s.lg.scanning = true → exec (.ledgerScanDone false id) s = .next (State.raiseNow (s.modLg fun l => { l with scanning := false, absent := true })
      (ce 0x10 0x04) 0 none (detail [(24, 3, id.toNat)]))) ∧
    (∀ id, s.lg.scanning = true → s.gate.life = .blank → exec (.ledgerScanDone true id) s = .next (s.modLg fun l => { l with scanning := false })) ∧
    (∀ id, s.lg.scanning = true → s.gate.life ≠ .blank → exec (.ledgerScanDone true id) s = .next (State.scanFlash (s.modLg fun l => { l with scanning := false }))) ∧
    (∀ id b, s.lg.scanning = false → exec (.ledgerScanDone b id) s = .next s) ∧
    (∀ w t, s.writable 0 = true → s.gate.life ≠ .blank → t = s.modLg (fun l => { l with
        rdArea := w.extractLsb' 0 2, rdIndex := w.extractLsb' 8 22, rdBusy := true, rdValid := false, rdErased := false }) →
      (∀ a, t.rdAddr = some a → exec (.lgRdSelWrite w) s = .next (t.lgRead a).rpOk) ∧
      (t.rdAddr = none → exec (.lgRdSelWrite w) s = .next t.rpOk)) ∧
    (∀ w, s.writable 0 = true → s.gate.life = .blank → exec (.lgRdSelWrite w) s = .next s.rpErr) ∧
    (∀ r, s.lg.rdBusy = true → s.lg.ready = true → s.lg.absent = false → s.lg.rdArea = 1 → s.lg.log[s.lg.logAt s.lg.rdIndex.toNat]? = some (.valid r) →
      exec .ledgerReadDone s = .next (s.modLg fun l => { l with rdBusy := false, rdValid := true, rdErased := false, rdData := r })) ∧
    (s.lg.rdBusy = true → s.lg.ready = true → s.lg.absent = false → s.lg.rdArea = 1 → s.lg.log[s.lg.logAt s.lg.rdIndex.toNat]? = none →
      exec .ledgerReadDone s = .next (s.modLg fun l => { l with rdBusy := false, rdValid := false, rdErased := true, rdData := BitVec.allOnes 1024 })) ∧
    (s.lg.rdBusy = false → exec .ledgerReadDone s = .next s) ∧
    (∀ u d t n, s.takeable u d = true → s.commonCheck d = none → descOp d = 0x0C → t = s.pull u d → n = s.eng.takenNum →
      ((d.extractLsb' 64 16).toNat < 256 → exec (.ledgerNote u d) s = .next (t.complete n stInvalid)) ∧
      (256 ≤ (d.extractLsb' 64 16).toNat → t.gate.life = .retired → exec (.ledgerNote u d) s = .next (t.complete n stRefused (refusal 0x12 0x10))) ∧
      (256 ≤ (d.extractLsb' 64 16).toNat → t.gate.life ≠ .retired → t.lg.ready = false → exec (.ledgerNote u d) s =
        .next (t.complete n stRefused (refusal 0x10 0x10))) ∧
      (256 ≤ (d.extractLsb' 64 16).toNat → t.gate.life ≠ .retired → t.lg.ready = true → t.lg.logFull = false → 16 ≤ t.lg.queue.length →
        exec (.ledgerNote u d) s = .next (t.complete n stBusy)) ∧
      (256 ≤ (d.extractLsb' 64 16).toNat → t.gate.life ≠ .retired → t.gate.life ≠ .blank → t.lg.ready = true → t.lg.logFull = false → t.lg.queue.length < 16 →
        t.lg.sealed = false → t.pw.pfail = false → exec (.ledgerNote u d) s = .next (State.startJob (t.modLg fun l => { l with
          queue := l.queue ++ [{ code := d.extractLsb' 64 16, host := true, note := d.extractLsb' 96 256, desc := some n }] }))))

/-- HEALTH_WINDOW_END, HEALTH_CHARGE, SPARES_STALE, HS_SPARES_WRITE, HS_FLOOR_WRITE, CLR_HARD and HS_CLR (R378, R380 to R383, R387): the units of a
window are set aside and charged 1 ms later; the governor has the verdicts evaluated as the tick ends, and the clears act at once. -/
def Obligations.HealthCommands : Prop :=
  ∀ s : State,
    (∀ t : State, s.alive = true → s.scoring = true → s.tick.toNat % 64000000000 = 0 → s.tick ≠ s.hs.window →
      t = State.modPorts (s.modHs fun h => { h with
        window := s.tick, due := true
        scores := h.scores.map fun x => (x.1, { x.2 with win := x.2.units, units := 0 }) }) (fun l => l.map fun q => { q with winUnits := q.units, units := 0 }) →
      exec .healthWindowEnd s = .next (t.upPorts.foldl (fun v p => v.send p 7 (.health {
        node := v.elect.node, port := p.setWidth 8, fault := 0, t := htOf s.tick, count := satNat 32 (v.port p).winUnits, kind := 0, index := 0 })) t)) ∧
    (s.alive = true → (s.tick.toNat % 64000000000 ≠ 0 ∨ s.tick = s.hs.window) → exec .healthWindowEnd s = .next s) ∧
    (∀ t : State, s.alive = true → s.scoring = true → s.hs.due = true → s.tick = s.hs.window + 1000000 →
      t = s.portNos.foldl (fun v p => if (v.port p).winUnits = 0 then v else (v.modScore (v.blame p) fun x => { x with
        win := x.win + (v.port p).winUnits }).modPort p fun q => { q with winUnits := 0 }) s →
      exec .healthCharge s = .next (State.evaluate (t.modHs fun h => { h with
        due := false, scores := h.scores.map fun x => (x.1, x.2.step (decay h.halflife.toNat)) }))) ∧
    (s.alive = true → (s.hs.due = false ∨ s.tick ≠ s.hs.window + 1000000) → exec .healthCharge s = .next s) ∧
    (s.scoring = true → s.evaluate = s.modHs fun h => { h with evalDue := true }) ∧
    (s.scoring = true → s.hs.evalDue = true → s.settleVerdicts = (s.hs.scores.map (·.1)).foldl State.evalOne (s.modHs fun h => { h with evalDue := false })) ∧
    (s.alive = true → s.scoring = true → s.hs.stale = false → 3600 ≤ s.sparesAge.toNat → exec .sparesStale s =
      .next (State.raiseNow (s.modHs fun h => { h with stale := true }) (ce 0x11 0x03))) ∧
    (s.alive = true → s.sparesAge.toNat < 3600 → exec .sparesStale s = .next s) ∧
    (s.writable 3 = true → ∀ w, exec (.hsSparesWrite w) s = .next (State.rpOk (State.evaluate (s.modHs fun h => { h with
      spares := w.extractLsb' 0 16, sparesAt := some s.tick, stale := false }))) ∧
      exec (.hsFloorWrite w) s = .next (State.rpOk (State.evaluate (s.modHs fun h => { h with floor := w.extractLsb' 0 16 })))) ∧
    (s.writable 3 = true → s.hs.tAdv.toNat ≤ s.hs.tExp.toNat →
      (s.gate.life ≠ .factory → s.gate.scope.getLsbD 1 = false → exec .clrHard s = .next s.rpErr) ∧
      ((s.gate.life = .factory ∨ s.gate.scope.getLsbD 1 = true) → exec .clrHard s = .next s.clearHard.rpOk) ∧
      exec .hsClr s = .next ((s.modHs fun h => { h with scores := h.scores.map fun x => (x.1, { x.2 with s := 0 }) }).rpOk)) ∧
    (∀ x : Score, x.hard = true → s.verdictOf x = (2, false)) ∧
    (∀ x : Score, x.hard = false → s.hs.tExp.toNat * 256 ≤ x.s.toNat → s.verdictOf x = if s.hs.spares.toNat ≤ s.hs.floor.toNat ∨ 3600 ≤ s.sparesAge.toNat then (1, true) else (2, false)) ∧
    (∀ x : Score, x.hard = false → x.s.toNat < s.hs.tExp.toNat * 256 → s.verdictOf x = if s.hs.tAdv.toNat * 256 ≤ x.s.toNat then (1, false) else (0, false))

/-- The commands of the Gatehouse (R359 to R366, R387): what each leaves when it is permitted, and the RESULT of each that is not. Whether a page that
is programmed reads back good is a free value: CONFIRM, SHIP and RETIRE end with RESULT 7 where it does not (log entry 45). -/
def Obligations.GatehouseCommands : Prop :=
  ∀ s : State, s.writable 0 = true →
    ((s.gate.life = .field ∨ s.gate.life = .service) → s.gate.locked = false → exec .chal s = .next ((s.modGate fun g => { g with
      chal := none, drawing := true, result := 0, resp := 0 }).rpOk)) ∧
    ((s.gate.life = .field ∨ s.gate.life = .service) → s.gate.locked = true → exec .chal s = .next (s.ghEnd 3)) ∧
    (s.gate.life ≠ .field → s.gate.life ≠ .service → exec .chal s = .next (s.ghEnd 4)) ∧
    (∀ scope c k, s.gate.life = .field → scope ≠ 0 → s.gate.chal = some c → s.kOwn = some k →
      (scope.getLsbD 1 = true → s.partsHeld = true → exec (.gateOpen scope) s = .next ((s.modGate fun g => { g with chal := none }).ghEnd 5)) ∧
      ((scope.getLsbD 1 = false ∨ s.partsHeld = false) → s.gate.resp = s.ghMac (bytesOf 32 k.toNat) c (scope.setWidth 8) → exec (.gateOpen scope) s =
        .next ((State.svc (s.modGate fun g => { g with chal := none, life := .service, scope := scope, fails := 0, openedAt := s.tick }) 0x0003
          (scope.setWidth 256)).ghEnd 0)) ∧
      ((scope.getLsbD 1 = false ∨ s.partsHeld = false) → s.gate.resp ≠ s.ghMac (bytesOf 32 k.toNat) c (scope.setWidth 8) → exec (.gateOpen scope) s =
        .next (s.modGate fun g => { g with chal := none }).ghFail)) ∧
    (∀ scope k, s.gate.life = .field → scope ≠ 0 → s.gate.chal = none → s.kOwn = some k → exec (.gateOpen scope) s = .next (s.ghEnd 2)) ∧
    (∀ scope, s.gate.life ≠ .field → exec (.gateOpen scope) s = .next (s.ghEnd 4)) ∧
    (s.gate.life = .service → exec .gateExit s = .next (((s.svc 0x0004 1).endSession .field).ghEnd 0)) ∧
    (s.gate.life ≠ .service → exec .gateExit s = .next (s.ghEnd 4)) ∧
    (∀ c k, s.gate.life = .service → s.gate.scope.getLsbD 2 = true → s.gate.eOwn ≠ 16 → s.gate.chal = some c → s.kOwn = some k → exec .rekey s =
      .next ((s.modGate fun g => { g with chal := none, staged := some (g.resp ^^^ s.ghMac (bytesOf 32 k.toNat) c 0x80) }).ghEnd 0)) ∧
    (s.gate.life = .service → s.gate.scope.getLsbD 2 = true → s.gate.eOwn = 16 → exec .rekey s = .next ((s.modGate fun g => { g with chal := none }).ghEnd 6)) ∧
    (s.gate.life ≠ .service → exec .rekey s = .next (s.ghEnd 4)) ∧
    (s.gate.staged = none → exec .confirm s = .next (s.ghEnd 4)) ∧
    (∀ k c, s.gate.staged = some k → s.gate.life = .service → s.gate.scope.getLsbD 2 = true → s.gate.chal = some c →
      s.gate.resp ≠ s.ghMac (bytesOf 32 k.toNat) c 0x40 → exec .confirm s = .next (s.modGate fun g => { g with chal := none }).ghFail) ∧
    (∀ k c, s.gate.staged = some k → s.gate.life = .service → s.gate.scope.getLsbD 2 = true → s.gate.chal = some c → s.lg.ready = true →
      s.gate.resp = s.ghMac (bytesOf 32 k.toNat) c 0x40 → ∃ t, exec .confirm s = .next t ∧ t.gate.staged = none ∧ t.gate.chal = none ∧ t.gate.resp = 0 ∧
        (Config.flashOk s.freeIx = true → t.gate.eOwn = s.gate.eOwn + 1 ∧ t.gate.eOwnFuse = s.gate.eOwn + 1 ∧ t.gate.life = .field ∧ t.gate.result = 0) ∧
        (Config.flashOk s.freeIx = false → t.gate.eOwn = s.gate.eOwn ∧ t.gate.eOwnFuse = s.gate.eOwnFuse ∧ t.gate.life = .service ∧ t.gate.result = 7)) ∧
    (s.gate.life = .factory → s.lg.ready = true → ∃ t, exec .retire s = .next t ∧ t.gate.resp = 0 ∧
      (((s.svc 0x0007).drainLedger.lg.queue.any fun q => q.code = 0x0007 && !q.host) = false → t.gate.life = .retired ∧ t.gate.lc = setBit s.gate.lc 2 ∧
        t.lg.hdrA = some .wiped ∧ t.lg.hdrB = some .wiped ∧ t.gate.result = 0) ∧
      (((s.svc 0x0007).drainLedger.lg.queue.any fun q => q.code = 0x0007 && !q.host) = true → t.gate.life = .factory ∧ t.gate.lc = s.gate.lc ∧ t.gate.result = 7)) ∧
    (s.gate.life = .field → exec .retire s = .next (s.ghEnd 4)) ∧
    (s.gate.life = .factory → s.lg.ready = true → ∃ t, exec .ship s = .next t ∧ t.gate.resp = 0 ∧
      (Config.flashOk s.freeIx = true → t.gate.life = .field ∧ t.gate.lc = setBit s.gate.lc 1 ∧ t.gate.eOwn = 1 ∧ t.gate.eOwnFuse = 1 ∧ t.gate.keyOk = true ∧
        t.gate.thermFuse = s.lg.tLo ++ s.lg.tHi ∧ t.gate.result = 0) ∧
      (Config.flashOk s.freeIx = false → t.gate.life = .factory ∧ t.gate.lc = s.gate.lc ∧ t.gate.eOwn = s.gate.eOwn ∧ t.gate.result = 7)) ∧
    (s.gate.life ≠ .factory → exec .ship s = .next (s.ghEnd 4))

/-- FUSE_ID, FUSE_KEY and the timers of the Gatehouse (R360, R361, R364, R367). The challenge is a free value (log entry 7). -/
def Obligations.FusesAndGateTimers : Prop :=
  ∀ s : State,
    (s.writable 0 = true →
      (s.gate.life = .blank → s.gate.resp.extractLsb' 0 64 ≠ 0 → s.gate.resp.extractLsb' 0 64 ≠ BitVec.allOnes 64 → exec .fuseId s =
        .next ((s.modGate fun g => { g with hwidFuse := g.hwidFuse ||| g.resp.extractLsb' 0 64, hwid := g.hwidFuse ||| g.resp.extractLsb' 0 64 }).ghEnd 0)) ∧
      (s.gate.life ≠ .blank → exec .fuseId s = .next (s.ghEnd 4) ∧ exec .fuseKey s = .next (s.ghEnd 4)) ∧
      (s.gate.life = .blank → s.gate.hwidFuse = 0 → exec .fuseKey s = .next (s.ghEnd 4)) ∧
      (s.gate.life = .blank → s.gate.hwidFuse ≠ 0 → s.lg.cfgWritten = true → s.lg.absent = true → exec .fuseKey s = .next (s.ghEnd 7)) ∧
      (s.gate.life = .blank → s.gate.hwidFuse ≠ 0 → s.lg.cfgWritten = true → s.lg.absent = false → ∃ t, exec .fuseKey s = .next t ∧ t.gate.life = .factory ∧
        t.gate.devKey = s.gate.devKey ||| s.gate.resp ∧ t.gate.lc = setBit s.gate.lc 0 ∧ t.lg.ready = true ∧ t.lg.journal = [] ∧ t.lg.log = [] ∧ t.gate.result = 0)) ∧
    (s.alive = true →
      (s.gate.drawing = true → exec .chalDrawn s = .next (s.drew.modGate fun g => { g with
        drawing := false, chal := some (Config.challenge s.freeIx), chalAt := s.tick })) ∧
      (s.gate.drawing = false → exec .chalDrawn s = .next s) ∧
      (s.gate.chal ≠ none → tickLe (s.gate.chalAt + 300000000000) s.tick = true → exec .chalExpire s = .next (s.modGate fun g => { g with chal := none })) ∧
      (tickLe (s.gate.chalAt + 300000000000) s.tick = false → exec .chalExpire s = .next s) ∧
      (s.gate.life = .service → tickLe (s.gate.openedAt + 28800000000000) s.tick = true → exec .sessionTimeLimit s =
        .next ((s.svc 0x0004 2).endSession .field)) ∧
      (s.gate.life ≠ .service → exec .sessionTimeLimit s = .next s) ∧
      (s.gate.locked = true → s.gate.fails.toNat < 8 → tickLe (s.gate.lockedAt + 60000000000) s.tick = true → exec .lockoutEnd s =
        .next (s.modGate fun g => { g with locked := false })) ∧
      (8 ≤ s.gate.fails.toNat → exec .lockoutEnd s = .next s))

/-- What the collector does with a report (R325, R326, R333, R341): FC_FIRST latches the first unmasked UC or FT alone; a masked UC and a CE never; the
history holds 32 records, where a UC or FT replaces the oldest and a CE the oldest CE, or is lost. -/
def Obligations.CollectorRules : Prop :=
  ∀ (f : Collector) (r : Report) (seq : BitVec 16) (b : BitVec 256),
    (codeClass r.code = 1 → f.latch r seq = (f, false)) ∧
    (codeClass r.code = 2 → f.mask.v.getLsbD (codeUnit r.code).toNat = true → f.latch r seq = (f, false)) ∧
    ((codeClass r.code = 3 ∨ (codeClass r.code = 2 ∧ f.mask.v.getLsbD (codeUnit r.code).toNat = false)) →
      (f.valid = false → f.latch r seq = ({ f with first := cpair (firstWords r seq), firstT := cpair (r.ptag ++ r.stamp) }, true)) ∧
      (f.valid = true → (f.latch r seq).2 = false ∧ (f.latch r seq).1.first = f.first ∧ (f.latch r seq).1.firstT = f.firstT ∧
        (f.latch r seq).1.ovf = cpair (bump8 (setBit f.ovf.v (codeLevel r.code).toNat) 1))) ∧
    (codeClass r.code ≠ 1 → f.classify r = r) ∧
    (codeClass r.code = 1 → f.promote.v.getLsbD (codeUnit r.code).toNat = true → codeClass (f.classify r).code = 2 ∧
      codeUnit (f.classify r).code = codeUnit r.code ∧ codeCause (f.classify r).code = codeCause r.code) ∧
    (f.hist.length < 32 → ∀ isCe, (f.store b isCe).hist = cpair b :: f.hist) ∧
    (f.hist.length = 32 → (f.store b false).hist = cpair b :: f.hist.dropLast) ∧
    (f.hist.length = 32 → (∀ c ∈ f.hist, codeClass (c.v.extractLsb' 32 16) ≠ 1) → f.store b true = { f with ceLost := satInc f.ceLost }) ∧
    (f.hist.length = 32 → (∃ c ∈ f.hist, codeClass (c.v.extractLsb' 32 16) = 1) → (f.store b true).hist.length = 32 ∧ (f.store b true).hist.head? = some (cpair b) ∧
      (f.store b true).hist.tail.filter (fun c => codeClass (c.v.extractLsb' 32 16) != 1) = f.hist.filter fun c => codeClass (c.v.extractLsb' 32 16) != 1)

/-- FAULT_REPORT, COLLECTOR_SELF_FAULT, SUNDIAL_CHECK, CONTROL_CORE_WATCHDOG, ISLAND_WIRE_FAULT and SAFE_DRAIN_END (R195, R324, R325, R333, R335, R336,
R339): a coalesced report writes no record; an FT and a self-fault take the node to the safe state. -/
def Obligations.FaultCommands : Prop :=
  ∀ (s : State) (r : Report), s.alive = true →
    (s.fc.inbox = [] → exec (.faultReport .waiting) s = .next s) ∧
    (∀ rest, s.fc.inbox = r :: rest → exec (.faultReport .waiting) s = .next (State.collect (s.modFc fun f => { f with inbox := rest }) r)) ∧
    exec (.faultReport (.unit r)) s = .next (s.collect r) ∧
    (s.fc.coalesces (s.fc.classify r) s.tick = true → (s.collect r).fc.hist = s.fc.hist ∧ (s.collect r).fc.first = s.fc.first ∧ (s.collect r).fc.safe = s.fc.safe ∧
      (s.collect r).fc.ovf = cpair (if (s.fc.ovf.v.extractLsb' 16 16 : BitVec 16) = 0xFFFF then s.fc.ovf.v else s.fc.ovf.v + 0x10000)) ∧
    (codeClass r.code = 3 → s.fc.coalesces (s.fc.classify r) s.tick = false → (s.collect r).fc.safe = true) ∧
    (codeClass r.code ≠ 3 → (s.collect r).fc.safe = s.fc.safe) ∧
    (∀ code, s.fc.safe = false → ∃ t, s.enterSafe code = t ∧ t.fc.safe = true ∧ t.fc.safeAt = s.tick ∧ t.fc.safeFault = code ∧ t.pins.flHalt = true ∧
      t.sun.st = .untrusted ∧ t.sun.now = s.sun.now ∧ t.sun.counting = s.sun.counting ∧ t.pins.mcWin = s.pins.mcWin ∧ t.pins.loadTarget = s.pins.loadTarget ∧
      t.fc.first = s.fc.first ∧ t.fc.hist = s.fc.hist) ∧
    (∃ t, exec .collectorSelfFault s = .next t ∧ t.fc.safe = true ∧ t.fc.self = true ∧ t.fc.hist = s.fc.hist ∧ t.fc.first = s.fc.first ∧ t.fc.mask = s.fc.mask) ∧
    exec .sundialCheck s = .next (s.raiseNow (ft 0x01 0x03)) ∧
    (∀ core, s.coreRuns core = true → exec (.controlCoreWatchdog core) s = .next (s.raiseNow (ft 0x13 0x01) 0 none (detail [(24, 1, if core then 1 else 0)]))) ∧
    (∀ core, s.coreRuns core = false → exec (.controlCoreWatchdog core) s = .next s) ∧
    (∀ i : Byte, i.toNat < 3 + s.ports.length → exec (.islandWireFault i) s =
      .next (s.raiseNow (uc 0x15 0x02) 0 (soleTag s.standing) (detail [(24, 1, 1), (25, 1, i.toNat)]))) ∧
    (∀ i : Byte, 3 + s.ports.length ≤ i.toNat → exec (.islandWireFault i) s = .fault .absentUnit) ∧
    (s.fc.safe = true → s.eng.quiet = false → s.isDue (s.fc.safeAt + 100000) = true → exec .safeDrainEnd s = .next s.hush) ∧
    (s.fc.safe = false ∨ s.eng.quiet = true → exec .safeDrainEnd s = .next s)

/-- FC_CLR, FORCE and the five injections (R325, R335, R337, R340, R341, R408): FC_CLR with the held SEQ clears VALID, the level bits and LATER, and any
other SEQ nothing; an injection is a FACTORY command. The DETAIL of an injected fault is a free value (log entry 12). -/
def Obligations.FaultRegisters : Prop :=
  ∀ (s : State) (w : Word),
    (s.pins.powered = true → s.pins.hmRunning = true → s.alive = true → s.xoOk = true →
      (w.extractLsb' 0 16 = s.fc.first.v.extractLsb' 16 16 → ∃ t, exec (.fcClr w) s = .next t ∧ t.fc = { s.fc with
        first := cpair (setBit s.fc.first.v 56 false), ovf := cpair (s.fc.ovf.v &&& 0xFFFF0000) } ∧ t.pins = { s.pins with flErrP := false, flErrN := true } ∧
        t.rp.err = false ∧ t.eng = s.eng ∧ t.sun = s.sun) ∧
      (w.extractLsb' 0 16 ≠ s.fc.first.v.extractLsb' 16 16 → exec (.fcClr w) s = .next s.rpOk)) ∧
    (s.writable 0 = true → exec .force s = .next ((s.raiseNow (ft 0x15 0x03)).rpOk) ∧
      (s.gate.life ≠ .factory → exec (.fcInjReport w) s = .next s.rpErr ∧ exec (.fcInjUnit w) s = .next s.rpErr ∧ exec (.fcInjCrc w) s = .next s.rpErr ∧
        exec (.fcInjWire w) s = .next s.rpErr ∧ exec (.fcInjSelf w) s = .next s.rpErr) ∧
      (s.gate.life = .factory →
        (∃ t, exec (.fcInjReport w) s = .next t ∧ t.fc.injDone = satInc s.fc.injDone ∧ t.rp.err = false ∧ t.fc.inbox = s.fc.inbox ++ [{
          code := w.extractLsb' 0 16, loc := s.fc.injLoc, partV := s.fc.injPartV, ptag := s.fc.injPtag, stamp := s.stamp
          detail := Config.anyWord s.freeIx ++ Config.anyWord (s.freeIx + 1) }]) ∧
        (s.isLeaf = true → s.hasUnit (codeLevel (w.extractLsb' 0 16)) (locAddr s.fc.injLoc) = true → codeLevel (w.extractLsb' 0 16) ≠ 3 →
          ∃ t, exec (.fcInjUnit w) s = .next t ∧ t.fc.injDone = satInc s.fc.injDone ∧ t.rp.err = false ∧
            ((s.unit (codeLevel (w.extractLsb' 0 16)) (locAddr s.fc.injLoc)).first = 0 →
              (t.unit (codeLevel (w.extractLsb' 0 16)) (locAddr s.fc.injLoc)).first = w.extractLsb' 0 16)) ∧
        (∃ t, exec (.fcInjCrc w) s = .next t ∧ t.fc.injDone = satInc s.fc.injDone ∧ t.ports = (s.modPort (s.fc.injLoc.extractLsb' 0 6) fun q => { q with
          crcInject := w.extractLsb' 20 8 }).ports) ∧
        (s.isLeaf = true → codeLevel (w.extractLsb' 0 16) = 2 → s.hasUnit 2 (locAddr s.fc.injLoc) = true → ∃ t, exec (.fcInjWire w) s = .next t ∧
          t.fc.injDone = satInc s.fc.injDone ∧ t.rp.err = false ∧ ∃ r ∈ t.fc.inbox, r.code = faultCode 2 3 0x15 2) ∧
        (∃ t, exec (.fcInjSelf w) s = .next t ∧ t.fc.injDone = satInc s.fc.injDone ∧ t.fc.safe = true ∧ t.fc.self = true)))

/-- LOAD, FW_VERIFY_DONE, TDC_CALIBRATION_DONE and TDC_RECAL (R390 to R395): a load begins with the header; a signature that verifies lets the image
run, one that does not clears what was written; a converter that fails is raised. The signature and the tables of the converters are free values
(log entries 6 and 10). -/
def Obligations.FirmwareAndConverters : Prop :=
  ∀ s : State,
    (s.writable 0 = true →
      (s.loadAllowed = false → exec .load s = .next s.rpErr) ∧
      (s.loadAllowed = true → s.pw.pfail = true → ∃ t, exec .load s = .next t ∧ t.fw.st = .failed ∧ t.fw.cause = 7) ∧
      (s.loadAllowed = true → s.pw.pfail = false → ∃ t, exec .load s = .next t ∧ t.fw.st = .loading ∧ t.fw.cause = 0 ∧ t.fw.blocks = [] ∧ t.fw.blocks1 = [] ∧ t.rp.err = false ∧
        t.fw.base = s.fw.base ∧ t.fw.len = s.fw.len ∧ ∀ a, t.pw.read a = s.pw.read a)) ∧
    (s.alive = true →
      (s.fw.st ≠ .verifying → exec .fwVerifyDone s = .next s) ∧
      (s.fw.st = .verifying → ∃ t, exec .fwVerifyDone s = .next t ∧ if s.fw.signed then
          t = s.modFw fun f => { f with
            st := .running, rev := f.hdrRev, idle0 := decide (f.len0 false = 0), idle1 := decide (f.len1 false = 0), asked := 0, asked1 := 0, blocks := [], blocks1 := [] }
        else t.fw.st = .failed ∧ t.fw.cause = 6 ∧ t.fw.blocks = [] ∧ t.fw.blocks1 = [] ∧ ∃ l, t.fc.inbox = l ++ [{
          code := uc 0x13 0x03, loc := 0, partV := false, ptag := 0, stamp := s.stamp, detail := detail [(24, 2, s.fw.hdrRev.toNat)] }]) ∧
      (s.pdOn 2 = true → s.fw.calibrating = true →
        exec (.tdcCalibrationDone none) s = .next ((s.modFw fun f => { f with calibrating := false, tdcOk := true, tdcDraw := s.freeIx, tdcAt := s.tick, tdcFailed := none }).drew) ∧
        ∀ n : Byte, s.hasTdc n = true → exec (.tdcCalibrationDone (some n)) s = .next (State.raiseNow (State.drew (s.modFw fun f => { f with
          calibrating := false, tdcOk := false, tdcDraw := s.freeIx, tdcAt := s.tick, tdcFailed := some n })) (uc 0x13 0x05) 0 none (detail [(24, 1, n.toNat)]))) ∧
      (s.pdOn 2 = true → s.fw.calibrating = false → s.isDue (s.fw.tdcAt + 10000000000) = true → exec (.tdcRecal none) s = .next ((s.modFw fun f => { f with
        tdcDraw := s.freeIx, tdcAt := s.tick, tdcFailed := none }).drew)) ∧
      (s.pdOn 2 = false ∨ s.fw.calibrating = true → exec (.tdcRecal none) s = .next s) ∧
      (∀ n : Byte, s.hasTdc n = false → exec (.tdcCalibrationDone (some n)) s = .fault .absentUnit ∧ exec (.tdcRecal (some n)) s = .fault .absentUnit))

/-- CAP_IN_EDGE, WIN_OPEN_NOW, WIN_CLOSE_NOW, CAP_CLR and BV_CLR (R64, R282, R291, R293, R411 to R414): an edge that the input takes is settled as its
tick ends: it is stamped, unless it falls outside the stop window or in the dead time, or its interval is replayed. CHECKER_PATTERN_LOCK, BIST_GO, BIST_DONE, CORE_HALT and CORE_STEP (R408, R416): the Test page
is closed outside its lifecycle states; a BIST takes a bank of the TEST client and leaves it without its contents; a halted core shows its program
counter, a free value (log entry 9). -/
def Obligations.CaptureAndTestCommands : Prop :=
  (∀ (s : State) (n : BitVec 3) (falling : Bool) (stamp : HT80),
     (s.alive = true →
       (s.pdOn 2 = false ∨ (s.capIn n.toNat).takes falling = false → exec (.capInEdge n falling stamp) s = .next s) ∧
       (s.pdOn 2 = true → (s.capIn n.toNat).takes falling = true → exec (.capInEdge n falling stamp) s =
         .next (s.modCapIn n.toNat fun c => { c with edges := c.edges ++ [(falling, stamp)] }))) ∧
     ((s.capIn n.toNat).winMode = true → (s.capIn n.toNat).winOpen = false → s.takeEdge n falling stamp = s) ∧
     ((s.capIn n.toNat).winMode = false ∨ (s.capIn n.toNat).winOpen = true →
       (s.liveIgnored n = true → s.takeEdge n falling stamp = s.modSync fun y => { y with liveIgn := satInc y.liveIgn }) ∧
       (s.liveIgnored n = false → (s.capIn n.toNat).deadTime stamp = true → s.takeEdge n falling stamp =
         s.modCapIn n.toNat fun c => { c with dead := satInc c.dead }) ∧
       (s.liveIgnored n = false → (s.capIn n.toNat).deadTime stamp = false → (s.activeSlot = none ∨ s.sync.capMask.getLsbD n.toNat = false) → s.takeEdge n falling stamp =
         s.modCapIn n.toNat fun c => { (c.push { t := stamp, falling := falling, injected := false }) with lastEdge := some stamp }) ∧
       (∀ k, s.liveIgnored n = false → (s.capIn n.toNat).deadTime stamp = false → s.activeSlot = some k → s.sync.capMask.getLsbD n.toNat = true → s.takeEdge n falling stamp =
         State.modCtx (s.modCapIn n.toNat fun c => { (c.push { t := stamp, falling := falling, injected := false }) with lastEdge := some stamp }) k
           fun c => c.note stamp (.edge n falling))) ∧
     (∀ c : Capture, ∀ e : CapEnt, (c.fifo.length < 64 → c.push e = { c with fifo := c.fifo ++ [e] }) ∧ (64 ≤ c.fifo.length → c.push e = { c with ovf := satInc c.ovf })) ∧
     (s.writable 2 = true → (s.fw.tdcOk = true ∨ (s.capIn n.toNat).en = false) → (s.capIn n.toNat).slope ≠ 0 →
       exec (.winOpenNow n) s = .next ((s.stopWindow n.toNat true).rpOk) ∧ exec (.winCloseNow n) s = .next ((s.stopWindow n.toNat false).rpOk) ∧
       exec (.capClr n) s = .next ((s.modCapIn n.toNat fun c => { c with fifo := [], dead := 0, ovf := 0 }).rpOk)) ∧
     (s.writable 2 = true → s.fw.tdcOk = false → (s.capIn n.toNat).en = true → exec (.capClr n) s = .next s.rpErr) ∧
     (s.writable 8 = true → s.bv.port.toNat < s.ports.length → (s.bv.src = 2 → s.isLeaf = true) →
       (s.traceOpen = true → exec .bvClr s = .next ((s.modBv fun b => { b with buf := [], wrapped := false, stopped := false }).rpOk)) ∧
       (s.traceOpen = false → exec .bvClr s = .next s.rpErr))) ∧
  (∀ (s : State) (w : Word),
     (s.alive = true →
       (s.tst.check = true → s.tst.pattern ≠ 0 → s.laneOn s.tst.port = true → exec .checkerPatternLock s = .next (s.modTst fun x => { x with plock := true })) ∧
       (s.tst.check = false ∨ s.tst.pattern = 0 → exec .checkerPatternLock s = .next s) ∧
       (∀ e, s.tst.busy = true → exec (.bistDone e) s = .next (s.modTst fun x => { x with busy := false, pass := e.isNone, fail := e.isSome, firstFail := e.getD 0 })) ∧
       (∀ e, s.tst.busy = false → exec (.bistDone e) s = .next s)) ∧
     (s.writable 0 = true →
       (s.testPageOpen = false → exec (.bistGo w) s = .next s.rpErr) ∧
       (s.testPageOpen = true → (s.profile.banks ≤ (w.extractLsb' 0 5).toNat ∨ s.pw.owners.getD (w.extractLsb' 0 5).toNat 0 ≠ 0xF ∨ s.tst.busy = true) →
         exec (.bistGo w) s = .next s.rpErr) ∧
       (s.testPageOpen = true → (w.extractLsb' 0 5).toNat < s.profile.banks → s.pdOn (9 + (w.extractLsb' 0 5).toNat / 4) = true →
         s.pw.owners.getD (w.extractLsb' 0 5).toNat 0 = 0xF → s.tst.busy = false → ∃ t, exec (.bistGo w) s = .next t ∧ t.tst.busy = true ∧ t.tst.pass = false ∧
           t.tst.fail = false ∧ t.tst.bank = w.extractLsb' 0 5 ∧ t.tst.alg = w.getLsbD 9 ∧ t.rp.err = false ∧
           ∀ a, a / 2 ^ 19 ≠ (w.extractLsb' 0 5).toNat → t.pw.read a = s.pw.read a)) ∧
     (s.writable 3 = true →
       (s.testPageOpen = false → exec (.coreHalt w) s = .next s.rpErr ∧ exec (.coreStep w) s = .next s.rpErr) ∧
       (s.testPageOpen = true → s.loading = true → exec (.coreHalt w) s = .next s.rpErr) ∧
       (s.testPageOpen = true → s.loading = false → s.fw.st ≠ .running →
         exec (.coreHalt w) s = .next ((s.modTst fun x => { x with halt0 := w.getLsbD 0, halt1 := w.getLsbD 1 }).rpOk) ∧
         exec (.coreStep w) s = .next ((s.modTst fun x => { x with halt0 := w.getLsbD 0, halt1 := w.getLsbD 1 }).rpOk)) ∧
       (s.testPageOpen = true → s.loading = false → s.fw.st = .running → s.fw.idle0 = false → w.getLsbD 0 = true → w.getLsbD 1 = false → w.getLsbD 2 = true →
         exec (.coreStep w) s = .next (State.rpOk (State.modTst (s.drew) fun x => { x with halt0 := true, halt1 := false, pc0 := Config.corePc s.freeIx })))))
end

