-- ==== Sys2Proof/Laws/Accepted.lean ====
section
/-!
SUPPORT. Where a command acts: what each guard of the meanings answers where it lets the command pass.
-/

namespace Sys2Proof.Machine

variable {s : State} {f : State → State}

/-- An event of a block that is up. -/
theorem whenAlive_alive (h : s.alive = true) : whenAlive s f = .next (f s) := by simp [whenAlive, h]

/-- An event that a port of the block names. -/
theorem onPort_alive {p : PortNo} (hp : p.toNat < s.ports.length) (h : s.alive = true) : onPort p s f = .next (f s) := by
  simp [onPort, hp, whenAlive_alive h]

/-- An event of a Leaf that is up. -/
theorem onLeaf_alive (hl : s.isLeaf = true) (h : s.alive = true) : onLeaf s f = .next (f s) := by simp [onLeaf, hl, whenAlive_alive h]

/-- A write that is serviced (R47). -/
theorem onReg_writable {d : Nat} (h : s.writable d = true) : onReg d s f = .next (f s) := by
  simp only [State.writable, Bool.and_eq_true] at h
  simp [onReg, h]

/-- A write that is serviced, of a register that a Leaf alone has (R2). -/
theorem onLeafReg_writable {d : Nat} (hl : s.isLeaf = true) (h : s.writable d = true) : onLeafReg d s f = .next (f s) := by
  simp [onLeafReg, onReg_writable h, hl]

/-- A write that the safe state accepts too (R337). -/
theorem onSafeReg_open (h1 : s.pins.powered = true) (h2 : s.pins.hmRunning = true) (h3 : s.alive = true) (h4 : s.xoOk = true) :
    onSafeReg s f = .next (f s) := by simp [onSafeReg, h1, h2, h3, h4]

/-- A read (R47). -/
theorem onRead_open (h1 : s.pins.powered = true) (h2 : s.pins.hmRunning = true) (h3 : s.alive = true) : onRead s f = .next (f s) := by
  simp [onRead, h1, h2, h3]

end Sys2Proof.Machine
end

