-- ==== Sys2Proof/Laws/State.lean ====
section
/-!
SUPPORT. One lemma for each field under each update of the state: the update changes its own field
and no other.
-/

namespace Sys2Proof.Machine

variable (s : State)

@[simp] theorem State.modPins_profile (f : Pins → Pins) : (s.modPins f).profile = s.profile := rfl
@[simp] theorem State.modPins_pins (f : Pins → Pins) : (s.modPins f).pins = f s.pins := rfl
@[simp] theorem State.modPins_sun (f : Pins → Pins) : (s.modPins f).sun = s.sun := rfl
@[simp] theorem State.modPins_org (f : Pins → Pins) : (s.modPins f).org = s.org := rfl
@[simp] theorem State.modPins_elect (f : Pins → Pins) : (s.modPins f).elect = s.elect := rfl
@[simp] theorem State.modPins_ports (f : Pins → Pins) : (s.modPins f).ports = s.ports := rfl
@[simp] theorem State.modPins_fab (f : Pins → Pins) : (s.modPins f).fab = s.fab := rfl
@[simp] theorem State.modPins_tr (f : Pins → Pins) : (s.modPins f).tr = s.tr := rfl
@[simp] theorem State.modPins_band (f : Pins → Pins) : (s.modPins f).band = s.band := rfl
@[simp] theorem State.modPins_ctx0 (f : Pins → Pins) : (s.modPins f).ctx0 = s.ctx0 := rfl
@[simp] theorem State.modPins_ctx1 (f : Pins → Pins) : (s.modPins f).ctx1 = s.ctx1 := rfl
@[simp] theorem State.modPins_sync (f : Pins → Pins) : (s.modPins f).sync = s.sync := rfl
@[simp] theorem State.modPins_eng (f : Pins → Pins) : (s.modPins f).eng = s.eng := rfl
@[simp] theorem State.modPins_fc (f : Pins → Pins) : (s.modPins f).fc = s.fc := rfl
@[simp] theorem State.modPins_pw (f : Pins → Pins) : (s.modPins f).pw = s.pw := rfl
@[simp] theorem State.modPins_gate (f : Pins → Pins) : (s.modPins f).gate = s.gate := rfl
@[simp] theorem State.modPins_lg (f : Pins → Pins) : (s.modPins f).lg = s.lg := rfl
@[simp] theorem State.modPins_hs (f : Pins → Pins) : (s.modPins f).hs = s.hs := rfl
@[simp] theorem State.modPins_cap (f : Pins → Pins) : (s.modPins f).cap = s.cap := rfl
@[simp] theorem State.modPins_bv (f : Pins → Pins) : (s.modPins f).bv = s.bv := rfl
@[simp] theorem State.modPins_tst (f : Pins → Pins) : (s.modPins f).tst = s.tst := rfl
@[simp] theorem State.modPins_fw (f : Pins → Pins) : (s.modPins f).fw = s.fw := rfl
@[simp] theorem State.modPins_rp (f : Pins → Pins) : (s.modPins f).rp = s.rp := rfl
@[simp] theorem State.modPins_out (f : Pins → Pins) : (s.modPins f).out = s.out := rfl
@[simp] theorem State.modPins_freeIx (f : Pins → Pins) : (s.modPins f).freeIx = s.freeIx := rfl
@[simp] theorem State.modPins_pending (f : Pins → Pins) : (s.modPins f).pending = s.pending := rfl
@[simp] theorem State.modSun_profile (f : Sun → Sun) : (s.modSun f).profile = s.profile := rfl
@[simp] theorem State.modSun_pins (f : Sun → Sun) : (s.modSun f).pins = s.pins := rfl
@[simp] theorem State.modSun_sun (f : Sun → Sun) : (s.modSun f).sun = f s.sun := rfl
@[simp] theorem State.modSun_org (f : Sun → Sun) : (s.modSun f).org = s.org := rfl
@[simp] theorem State.modSun_elect (f : Sun → Sun) : (s.modSun f).elect = s.elect := rfl
@[simp] theorem State.modSun_ports (f : Sun → Sun) : (s.modSun f).ports = s.ports := rfl
@[simp] theorem State.modSun_fab (f : Sun → Sun) : (s.modSun f).fab = s.fab := rfl
@[simp] theorem State.modSun_tr (f : Sun → Sun) : (s.modSun f).tr = s.tr := rfl
@[simp] theorem State.modSun_band (f : Sun → Sun) : (s.modSun f).band = s.band := rfl
@[simp] theorem State.modSun_ctx0 (f : Sun → Sun) : (s.modSun f).ctx0 = s.ctx0 := rfl
@[simp] theorem State.modSun_ctx1 (f : Sun → Sun) : (s.modSun f).ctx1 = s.ctx1 := rfl
@[simp] theorem State.modSun_sync (f : Sun → Sun) : (s.modSun f).sync = s.sync := rfl
@[simp] theorem State.modSun_eng (f : Sun → Sun) : (s.modSun f).eng = s.eng := rfl
@[simp] theorem State.modSun_fc (f : Sun → Sun) : (s.modSun f).fc = s.fc := rfl
@[simp] theorem State.modSun_pw (f : Sun → Sun) : (s.modSun f).pw = s.pw := rfl
@[simp] theorem State.modSun_gate (f : Sun → Sun) : (s.modSun f).gate = s.gate := rfl
@[simp] theorem State.modSun_lg (f : Sun → Sun) : (s.modSun f).lg = s.lg := rfl
@[simp] theorem State.modSun_hs (f : Sun → Sun) : (s.modSun f).hs = s.hs := rfl
@[simp] theorem State.modSun_cap (f : Sun → Sun) : (s.modSun f).cap = s.cap := rfl
@[simp] theorem State.modSun_bv (f : Sun → Sun) : (s.modSun f).bv = s.bv := rfl
@[simp] theorem State.modSun_tst (f : Sun → Sun) : (s.modSun f).tst = s.tst := rfl
@[simp] theorem State.modSun_fw (f : Sun → Sun) : (s.modSun f).fw = s.fw := rfl
@[simp] theorem State.modSun_rp (f : Sun → Sun) : (s.modSun f).rp = s.rp := rfl
@[simp] theorem State.modSun_out (f : Sun → Sun) : (s.modSun f).out = s.out := rfl
@[simp] theorem State.modSun_freeIx (f : Sun → Sun) : (s.modSun f).freeIx = s.freeIx := rfl
@[simp] theorem State.modSun_pending (f : Sun → Sun) : (s.modSun f).pending = s.pending := rfl
@[simp] theorem State.modOrg_profile (f : Org → Org) : (s.modOrg f).profile = s.profile := rfl
@[simp] theorem State.modOrg_pins (f : Org → Org) : (s.modOrg f).pins = s.pins := rfl
@[simp] theorem State.modOrg_sun (f : Org → Org) : (s.modOrg f).sun = s.sun := rfl
@[simp] theorem State.modOrg_org (f : Org → Org) : (s.modOrg f).org = f s.org := rfl
@[simp] theorem State.modOrg_elect (f : Org → Org) : (s.modOrg f).elect = s.elect := rfl
@[simp] theorem State.modOrg_ports (f : Org → Org) : (s.modOrg f).ports = s.ports := rfl
@[simp] theorem State.modOrg_fab (f : Org → Org) : (s.modOrg f).fab = s.fab := rfl
@[simp] theorem State.modOrg_tr (f : Org → Org) : (s.modOrg f).tr = s.tr := rfl
@[simp] theorem State.modOrg_band (f : Org → Org) : (s.modOrg f).band = s.band := rfl
@[simp] theorem State.modOrg_ctx0 (f : Org → Org) : (s.modOrg f).ctx0 = s.ctx0 := rfl
@[simp] theorem State.modOrg_ctx1 (f : Org → Org) : (s.modOrg f).ctx1 = s.ctx1 := rfl
@[simp] theorem State.modOrg_sync (f : Org → Org) : (s.modOrg f).sync = s.sync := rfl
@[simp] theorem State.modOrg_eng (f : Org → Org) : (s.modOrg f).eng = s.eng := rfl
@[simp] theorem State.modOrg_fc (f : Org → Org) : (s.modOrg f).fc = s.fc := rfl
@[simp] theorem State.modOrg_pw (f : Org → Org) : (s.modOrg f).pw = s.pw := rfl
@[simp] theorem State.modOrg_gate (f : Org → Org) : (s.modOrg f).gate = s.gate := rfl
@[simp] theorem State.modOrg_lg (f : Org → Org) : (s.modOrg f).lg = s.lg := rfl
@[simp] theorem State.modOrg_hs (f : Org → Org) : (s.modOrg f).hs = s.hs := rfl
@[simp] theorem State.modOrg_cap (f : Org → Org) : (s.modOrg f).cap = s.cap := rfl
@[simp] theorem State.modOrg_bv (f : Org → Org) : (s.modOrg f).bv = s.bv := rfl
@[simp] theorem State.modOrg_tst (f : Org → Org) : (s.modOrg f).tst = s.tst := rfl
@[simp] theorem State.modOrg_fw (f : Org → Org) : (s.modOrg f).fw = s.fw := rfl
@[simp] theorem State.modOrg_rp (f : Org → Org) : (s.modOrg f).rp = s.rp := rfl
@[simp] theorem State.modOrg_out (f : Org → Org) : (s.modOrg f).out = s.out := rfl
@[simp] theorem State.modOrg_freeIx (f : Org → Org) : (s.modOrg f).freeIx = s.freeIx := rfl
@[simp] theorem State.modOrg_pending (f : Org → Org) : (s.modOrg f).pending = s.pending := rfl
@[simp] theorem State.modElect_profile (f : Elect → Elect) : (s.modElect f).profile = s.profile := rfl
@[simp] theorem State.modElect_pins (f : Elect → Elect) : (s.modElect f).pins = s.pins := rfl
@[simp] theorem State.modElect_sun (f : Elect → Elect) : (s.modElect f).sun = s.sun := rfl
@[simp] theorem State.modElect_org (f : Elect → Elect) : (s.modElect f).org = s.org := rfl
@[simp] theorem State.modElect_elect (f : Elect → Elect) : (s.modElect f).elect = f s.elect := rfl
@[simp] theorem State.modElect_ports (f : Elect → Elect) : (s.modElect f).ports = s.ports := rfl
@[simp] theorem State.modElect_fab (f : Elect → Elect) : (s.modElect f).fab = s.fab := rfl
@[simp] theorem State.modElect_tr (f : Elect → Elect) : (s.modElect f).tr = s.tr := rfl
@[simp] theorem State.modElect_band (f : Elect → Elect) : (s.modElect f).band = s.band := rfl
@[simp] theorem State.modElect_ctx0 (f : Elect → Elect) : (s.modElect f).ctx0 = s.ctx0 := rfl
@[simp] theorem State.modElect_ctx1 (f : Elect → Elect) : (s.modElect f).ctx1 = s.ctx1 := rfl
@[simp] theorem State.modElect_sync (f : Elect → Elect) : (s.modElect f).sync = s.sync := rfl
@[simp] theorem State.modElect_eng (f : Elect → Elect) : (s.modElect f).eng = s.eng := rfl
@[simp] theorem State.modElect_fc (f : Elect → Elect) : (s.modElect f).fc = s.fc := rfl
@[simp] theorem State.modElect_pw (f : Elect → Elect) : (s.modElect f).pw = s.pw := rfl
@[simp] theorem State.modElect_gate (f : Elect → Elect) : (s.modElect f).gate = s.gate := rfl
@[simp] theorem State.modElect_lg (f : Elect → Elect) : (s.modElect f).lg = s.lg := rfl
@[simp] theorem State.modElect_hs (f : Elect → Elect) : (s.modElect f).hs = s.hs := rfl
@[simp] theorem State.modElect_cap (f : Elect → Elect) : (s.modElect f).cap = s.cap := rfl
@[simp] theorem State.modElect_bv (f : Elect → Elect) : (s.modElect f).bv = s.bv := rfl
@[simp] theorem State.modElect_tst (f : Elect → Elect) : (s.modElect f).tst = s.tst := rfl
@[simp] theorem State.modElect_fw (f : Elect → Elect) : (s.modElect f).fw = s.fw := rfl
@[simp] theorem State.modElect_rp (f : Elect → Elect) : (s.modElect f).rp = s.rp := rfl
@[simp] theorem State.modElect_out (f : Elect → Elect) : (s.modElect f).out = s.out := rfl
@[simp] theorem State.modElect_freeIx (f : Elect → Elect) : (s.modElect f).freeIx = s.freeIx := rfl
@[simp] theorem State.modElect_pending (f : Elect → Elect) : (s.modElect f).pending = s.pending := rfl
@[simp] theorem State.modPorts_profile (f : List Port → List Port) : (s.modPorts f).profile = s.profile := rfl
@[simp] theorem State.modPorts_pins (f : List Port → List Port) : (s.modPorts f).pins = s.pins := rfl
@[simp] theorem State.modPorts_sun (f : List Port → List Port) : (s.modPorts f).sun = s.sun := rfl
@[simp] theorem State.modPorts_org (f : List Port → List Port) : (s.modPorts f).org = s.org := rfl
@[simp] theorem State.modPorts_elect (f : List Port → List Port) : (s.modPorts f).elect = s.elect := rfl
@[simp] theorem State.modPorts_ports (f : List Port → List Port) : (s.modPorts f).ports = f s.ports := rfl
@[simp] theorem State.modPorts_fab (f : List Port → List Port) : (s.modPorts f).fab = s.fab := rfl
@[simp] theorem State.modPorts_tr (f : List Port → List Port) : (s.modPorts f).tr = s.tr := rfl
@[simp] theorem State.modPorts_band (f : List Port → List Port) : (s.modPorts f).band = s.band := rfl
@[simp] theorem State.modPorts_ctx0 (f : List Port → List Port) : (s.modPorts f).ctx0 = s.ctx0 := rfl
@[simp] theorem State.modPorts_ctx1 (f : List Port → List Port) : (s.modPorts f).ctx1 = s.ctx1 := rfl
@[simp] theorem State.modPorts_sync (f : List Port → List Port) : (s.modPorts f).sync = s.sync := rfl
@[simp] theorem State.modPorts_eng (f : List Port → List Port) : (s.modPorts f).eng = s.eng := rfl
@[simp] theorem State.modPorts_fc (f : List Port → List Port) : (s.modPorts f).fc = s.fc := rfl
@[simp] theorem State.modPorts_pw (f : List Port → List Port) : (s.modPorts f).pw = s.pw := rfl
@[simp] theorem State.modPorts_gate (f : List Port → List Port) : (s.modPorts f).gate = s.gate := rfl
@[simp] theorem State.modPorts_lg (f : List Port → List Port) : (s.modPorts f).lg = s.lg := rfl
@[simp] theorem State.modPorts_hs (f : List Port → List Port) : (s.modPorts f).hs = s.hs := rfl
@[simp] theorem State.modPorts_cap (f : List Port → List Port) : (s.modPorts f).cap = s.cap := rfl
@[simp] theorem State.modPorts_bv (f : List Port → List Port) : (s.modPorts f).bv = s.bv := rfl
@[simp] theorem State.modPorts_tst (f : List Port → List Port) : (s.modPorts f).tst = s.tst := rfl
@[simp] theorem State.modPorts_fw (f : List Port → List Port) : (s.modPorts f).fw = s.fw := rfl
@[simp] theorem State.modPorts_rp (f : List Port → List Port) : (s.modPorts f).rp = s.rp := rfl
@[simp] theorem State.modPorts_out (f : List Port → List Port) : (s.modPorts f).out = s.out := rfl
@[simp] theorem State.modPorts_freeIx (f : List Port → List Port) : (s.modPorts f).freeIx = s.freeIx := rfl
@[simp] theorem State.modPorts_pending (f : List Port → List Port) : (s.modPorts f).pending = s.pending := rfl
@[simp] theorem State.modFab_profile (f : Fabric → Fabric) : (s.modFab f).profile = s.profile := rfl
@[simp] theorem State.modFab_pins (f : Fabric → Fabric) : (s.modFab f).pins = s.pins := rfl
@[simp] theorem State.modFab_sun (f : Fabric → Fabric) : (s.modFab f).sun = s.sun := rfl
@[simp] theorem State.modFab_org (f : Fabric → Fabric) : (s.modFab f).org = s.org := rfl
@[simp] theorem State.modFab_elect (f : Fabric → Fabric) : (s.modFab f).elect = s.elect := rfl
@[simp] theorem State.modFab_ports (f : Fabric → Fabric) : (s.modFab f).ports = s.ports := rfl
@[simp] theorem State.modFab_fab (f : Fabric → Fabric) : (s.modFab f).fab = f s.fab := rfl
@[simp] theorem State.modFab_tr (f : Fabric → Fabric) : (s.modFab f).tr = s.tr := rfl
@[simp] theorem State.modFab_band (f : Fabric → Fabric) : (s.modFab f).band = s.band := rfl
@[simp] theorem State.modFab_ctx0 (f : Fabric → Fabric) : (s.modFab f).ctx0 = s.ctx0 := rfl
@[simp] theorem State.modFab_ctx1 (f : Fabric → Fabric) : (s.modFab f).ctx1 = s.ctx1 := rfl
@[simp] theorem State.modFab_sync (f : Fabric → Fabric) : (s.modFab f).sync = s.sync := rfl
@[simp] theorem State.modFab_eng (f : Fabric → Fabric) : (s.modFab f).eng = s.eng := rfl
@[simp] theorem State.modFab_fc (f : Fabric → Fabric) : (s.modFab f).fc = s.fc := rfl
@[simp] theorem State.modFab_pw (f : Fabric → Fabric) : (s.modFab f).pw = s.pw := rfl
@[simp] theorem State.modFab_gate (f : Fabric → Fabric) : (s.modFab f).gate = s.gate := rfl
@[simp] theorem State.modFab_lg (f : Fabric → Fabric) : (s.modFab f).lg = s.lg := rfl
@[simp] theorem State.modFab_hs (f : Fabric → Fabric) : (s.modFab f).hs = s.hs := rfl
@[simp] theorem State.modFab_cap (f : Fabric → Fabric) : (s.modFab f).cap = s.cap := rfl
@[simp] theorem State.modFab_bv (f : Fabric → Fabric) : (s.modFab f).bv = s.bv := rfl
@[simp] theorem State.modFab_tst (f : Fabric → Fabric) : (s.modFab f).tst = s.tst := rfl
@[simp] theorem State.modFab_fw (f : Fabric → Fabric) : (s.modFab f).fw = s.fw := rfl
@[simp] theorem State.modFab_rp (f : Fabric → Fabric) : (s.modFab f).rp = s.rp := rfl
@[simp] theorem State.modFab_out (f : Fabric → Fabric) : (s.modFab f).out = s.out := rfl
@[simp] theorem State.modFab_freeIx (f : Fabric → Fabric) : (s.modFab f).freeIx = s.freeIx := rfl
@[simp] theorem State.modFab_pending (f : Fabric → Fabric) : (s.modFab f).pending = s.pending := rfl
@[simp] theorem State.modTr_profile (f : Trellis → Trellis) : (s.modTr f).profile = s.profile := rfl
@[simp] theorem State.modTr_pins (f : Trellis → Trellis) : (s.modTr f).pins = s.pins := rfl
@[simp] theorem State.modTr_sun (f : Trellis → Trellis) : (s.modTr f).sun = s.sun := rfl
@[simp] theorem State.modTr_org (f : Trellis → Trellis) : (s.modTr f).org = s.org := rfl
@[simp] theorem State.modTr_elect (f : Trellis → Trellis) : (s.modTr f).elect = s.elect := rfl
@[simp] theorem State.modTr_ports (f : Trellis → Trellis) : (s.modTr f).ports = s.ports := rfl
@[simp] theorem State.modTr_fab (f : Trellis → Trellis) : (s.modTr f).fab = s.fab := rfl
@[simp] theorem State.modTr_tr (f : Trellis → Trellis) : (s.modTr f).tr = f s.tr := rfl
@[simp] theorem State.modTr_band (f : Trellis → Trellis) : (s.modTr f).band = s.band := rfl
@[simp] theorem State.modTr_ctx0 (f : Trellis → Trellis) : (s.modTr f).ctx0 = s.ctx0 := rfl
@[simp] theorem State.modTr_ctx1 (f : Trellis → Trellis) : (s.modTr f).ctx1 = s.ctx1 := rfl
@[simp] theorem State.modTr_sync (f : Trellis → Trellis) : (s.modTr f).sync = s.sync := rfl
@[simp] theorem State.modTr_eng (f : Trellis → Trellis) : (s.modTr f).eng = s.eng := rfl
@[simp] theorem State.modTr_fc (f : Trellis → Trellis) : (s.modTr f).fc = s.fc := rfl
@[simp] theorem State.modTr_pw (f : Trellis → Trellis) : (s.modTr f).pw = s.pw := rfl
@[simp] theorem State.modTr_gate (f : Trellis → Trellis) : (s.modTr f).gate = s.gate := rfl
@[simp] theorem State.modTr_lg (f : Trellis → Trellis) : (s.modTr f).lg = s.lg := rfl
@[simp] theorem State.modTr_hs (f : Trellis → Trellis) : (s.modTr f).hs = s.hs := rfl
@[simp] theorem State.modTr_cap (f : Trellis → Trellis) : (s.modTr f).cap = s.cap := rfl
@[simp] theorem State.modTr_bv (f : Trellis → Trellis) : (s.modTr f).bv = s.bv := rfl
@[simp] theorem State.modTr_tst (f : Trellis → Trellis) : (s.modTr f).tst = s.tst := rfl
@[simp] theorem State.modTr_fw (f : Trellis → Trellis) : (s.modTr f).fw = s.fw := rfl
@[simp] theorem State.modTr_rp (f : Trellis → Trellis) : (s.modTr f).rp = s.rp := rfl
@[simp] theorem State.modTr_out (f : Trellis → Trellis) : (s.modTr f).out = s.out := rfl
@[simp] theorem State.modTr_freeIx (f : Trellis → Trellis) : (s.modTr f).freeIx = s.freeIx := rfl
@[simp] theorem State.modTr_pending (f : Trellis → Trellis) : (s.modTr f).pending = s.pending := rfl
@[simp] theorem State.modBand_profile (f : Band → Band) : (s.modBand f).profile = s.profile := rfl
@[simp] theorem State.modBand_pins (f : Band → Band) : (s.modBand f).pins = s.pins := rfl
@[simp] theorem State.modBand_sun (f : Band → Band) : (s.modBand f).sun = s.sun := rfl
@[simp] theorem State.modBand_org (f : Band → Band) : (s.modBand f).org = s.org := rfl
@[simp] theorem State.modBand_elect (f : Band → Band) : (s.modBand f).elect = s.elect := rfl
@[simp] theorem State.modBand_ports (f : Band → Band) : (s.modBand f).ports = s.ports := rfl
@[simp] theorem State.modBand_fab (f : Band → Band) : (s.modBand f).fab = s.fab := rfl
@[simp] theorem State.modBand_tr (f : Band → Band) : (s.modBand f).tr = s.tr := rfl
@[simp] theorem State.modBand_band (f : Band → Band) : (s.modBand f).band = f s.band := rfl
@[simp] theorem State.modBand_ctx0 (f : Band → Band) : (s.modBand f).ctx0 = s.ctx0 := rfl
@[simp] theorem State.modBand_ctx1 (f : Band → Band) : (s.modBand f).ctx1 = s.ctx1 := rfl
@[simp] theorem State.modBand_sync (f : Band → Band) : (s.modBand f).sync = s.sync := rfl
@[simp] theorem State.modBand_eng (f : Band → Band) : (s.modBand f).eng = s.eng := rfl
@[simp] theorem State.modBand_fc (f : Band → Band) : (s.modBand f).fc = s.fc := rfl
@[simp] theorem State.modBand_pw (f : Band → Band) : (s.modBand f).pw = s.pw := rfl
@[simp] theorem State.modBand_gate (f : Band → Band) : (s.modBand f).gate = s.gate := rfl
@[simp] theorem State.modBand_lg (f : Band → Band) : (s.modBand f).lg = s.lg := rfl
@[simp] theorem State.modBand_hs (f : Band → Band) : (s.modBand f).hs = s.hs := rfl
@[simp] theorem State.modBand_cap (f : Band → Band) : (s.modBand f).cap = s.cap := rfl
@[simp] theorem State.modBand_bv (f : Band → Band) : (s.modBand f).bv = s.bv := rfl
@[simp] theorem State.modBand_tst (f : Band → Band) : (s.modBand f).tst = s.tst := rfl
@[simp] theorem State.modBand_fw (f : Band → Band) : (s.modBand f).fw = s.fw := rfl
@[simp] theorem State.modBand_rp (f : Band → Band) : (s.modBand f).rp = s.rp := rfl
@[simp] theorem State.modBand_out (f : Band → Band) : (s.modBand f).out = s.out := rfl
@[simp] theorem State.modBand_freeIx (f : Band → Band) : (s.modBand f).freeIx = s.freeIx := rfl
@[simp] theorem State.modBand_pending (f : Band → Band) : (s.modBand f).pending = s.pending := rfl
@[simp] theorem State.modCtx0_profile (f : Ctx → Ctx) : (s.modCtx0 f).profile = s.profile := rfl
@[simp] theorem State.modCtx0_pins (f : Ctx → Ctx) : (s.modCtx0 f).pins = s.pins := rfl
@[simp] theorem State.modCtx0_sun (f : Ctx → Ctx) : (s.modCtx0 f).sun = s.sun := rfl
@[simp] theorem State.modCtx0_org (f : Ctx → Ctx) : (s.modCtx0 f).org = s.org := rfl
@[simp] theorem State.modCtx0_elect (f : Ctx → Ctx) : (s.modCtx0 f).elect = s.elect := rfl
@[simp] theorem State.modCtx0_ports (f : Ctx → Ctx) : (s.modCtx0 f).ports = s.ports := rfl
@[simp] theorem State.modCtx0_fab (f : Ctx → Ctx) : (s.modCtx0 f).fab = s.fab := rfl
@[simp] theorem State.modCtx0_tr (f : Ctx → Ctx) : (s.modCtx0 f).tr = s.tr := rfl
@[simp] theorem State.modCtx0_band (f : Ctx → Ctx) : (s.modCtx0 f).band = s.band := rfl
@[simp] theorem State.modCtx0_ctx0 (f : Ctx → Ctx) : (s.modCtx0 f).ctx0 = f s.ctx0 := rfl
@[simp] theorem State.modCtx0_ctx1 (f : Ctx → Ctx) : (s.modCtx0 f).ctx1 = s.ctx1 := rfl
@[simp] theorem State.modCtx0_sync (f : Ctx → Ctx) : (s.modCtx0 f).sync = s.sync := rfl
@[simp] theorem State.modCtx0_eng (f : Ctx → Ctx) : (s.modCtx0 f).eng = s.eng := rfl
@[simp] theorem State.modCtx0_fc (f : Ctx → Ctx) : (s.modCtx0 f).fc = s.fc := rfl
@[simp] theorem State.modCtx0_pw (f : Ctx → Ctx) : (s.modCtx0 f).pw = s.pw := rfl
@[simp] theorem State.modCtx0_gate (f : Ctx → Ctx) : (s.modCtx0 f).gate = s.gate := rfl
@[simp] theorem State.modCtx0_lg (f : Ctx → Ctx) : (s.modCtx0 f).lg = s.lg := rfl
@[simp] theorem State.modCtx0_hs (f : Ctx → Ctx) : (s.modCtx0 f).hs = s.hs := rfl
@[simp] theorem State.modCtx0_cap (f : Ctx → Ctx) : (s.modCtx0 f).cap = s.cap := rfl
@[simp] theorem State.modCtx0_bv (f : Ctx → Ctx) : (s.modCtx0 f).bv = s.bv := rfl
@[simp] theorem State.modCtx0_tst (f : Ctx → Ctx) : (s.modCtx0 f).tst = s.tst := rfl
@[simp] theorem State.modCtx0_fw (f : Ctx → Ctx) : (s.modCtx0 f).fw = s.fw := rfl
@[simp] theorem State.modCtx0_rp (f : Ctx → Ctx) : (s.modCtx0 f).rp = s.rp := rfl
@[simp] theorem State.modCtx0_out (f : Ctx → Ctx) : (s.modCtx0 f).out = s.out := rfl
@[simp] theorem State.modCtx0_freeIx (f : Ctx → Ctx) : (s.modCtx0 f).freeIx = s.freeIx := rfl
@[simp] theorem State.modCtx0_pending (f : Ctx → Ctx) : (s.modCtx0 f).pending = s.pending := rfl
@[simp] theorem State.modCtx1_profile (f : Ctx → Ctx) : (s.modCtx1 f).profile = s.profile := rfl
@[simp] theorem State.modCtx1_pins (f : Ctx → Ctx) : (s.modCtx1 f).pins = s.pins := rfl
@[simp] theorem State.modCtx1_sun (f : Ctx → Ctx) : (s.modCtx1 f).sun = s.sun := rfl
@[simp] theorem State.modCtx1_org (f : Ctx → Ctx) : (s.modCtx1 f).org = s.org := rfl
@[simp] theorem State.modCtx1_elect (f : Ctx → Ctx) : (s.modCtx1 f).elect = s.elect := rfl
@[simp] theorem State.modCtx1_ports (f : Ctx → Ctx) : (s.modCtx1 f).ports = s.ports := rfl
@[simp] theorem State.modCtx1_fab (f : Ctx → Ctx) : (s.modCtx1 f).fab = s.fab := rfl
@[simp] theorem State.modCtx1_tr (f : Ctx → Ctx) : (s.modCtx1 f).tr = s.tr := rfl
@[simp] theorem State.modCtx1_band (f : Ctx → Ctx) : (s.modCtx1 f).band = s.band := rfl
@[simp] theorem State.modCtx1_ctx0 (f : Ctx → Ctx) : (s.modCtx1 f).ctx0 = s.ctx0 := rfl
@[simp] theorem State.modCtx1_ctx1 (f : Ctx → Ctx) : (s.modCtx1 f).ctx1 = f s.ctx1 := rfl
@[simp] theorem State.modCtx1_sync (f : Ctx → Ctx) : (s.modCtx1 f).sync = s.sync := rfl
@[simp] theorem State.modCtx1_eng (f : Ctx → Ctx) : (s.modCtx1 f).eng = s.eng := rfl
@[simp] theorem State.modCtx1_fc (f : Ctx → Ctx) : (s.modCtx1 f).fc = s.fc := rfl
@[simp] theorem State.modCtx1_pw (f : Ctx → Ctx) : (s.modCtx1 f).pw = s.pw := rfl
@[simp] theorem State.modCtx1_gate (f : Ctx → Ctx) : (s.modCtx1 f).gate = s.gate := rfl
@[simp] theorem State.modCtx1_lg (f : Ctx → Ctx) : (s.modCtx1 f).lg = s.lg := rfl
@[simp] theorem State.modCtx1_hs (f : Ctx → Ctx) : (s.modCtx1 f).hs = s.hs := rfl
@[simp] theorem State.modCtx1_cap (f : Ctx → Ctx) : (s.modCtx1 f).cap = s.cap := rfl
@[simp] theorem State.modCtx1_bv (f : Ctx → Ctx) : (s.modCtx1 f).bv = s.bv := rfl
@[simp] theorem State.modCtx1_tst (f : Ctx → Ctx) : (s.modCtx1 f).tst = s.tst := rfl
@[simp] theorem State.modCtx1_fw (f : Ctx → Ctx) : (s.modCtx1 f).fw = s.fw := rfl
@[simp] theorem State.modCtx1_rp (f : Ctx → Ctx) : (s.modCtx1 f).rp = s.rp := rfl
@[simp] theorem State.modCtx1_out (f : Ctx → Ctx) : (s.modCtx1 f).out = s.out := rfl
@[simp] theorem State.modCtx1_freeIx (f : Ctx → Ctx) : (s.modCtx1 f).freeIx = s.freeIx := rfl
@[simp] theorem State.modCtx1_pending (f : Ctx → Ctx) : (s.modCtx1 f).pending = s.pending := rfl
@[simp] theorem State.modSync_profile (f : Sync → Sync) : (s.modSync f).profile = s.profile := rfl
@[simp] theorem State.modSync_pins (f : Sync → Sync) : (s.modSync f).pins = s.pins := rfl
@[simp] theorem State.modSync_sun (f : Sync → Sync) : (s.modSync f).sun = s.sun := rfl
@[simp] theorem State.modSync_org (f : Sync → Sync) : (s.modSync f).org = s.org := rfl
@[simp] theorem State.modSync_elect (f : Sync → Sync) : (s.modSync f).elect = s.elect := rfl
@[simp] theorem State.modSync_ports (f : Sync → Sync) : (s.modSync f).ports = s.ports := rfl
@[simp] theorem State.modSync_fab (f : Sync → Sync) : (s.modSync f).fab = s.fab := rfl
@[simp] theorem State.modSync_tr (f : Sync → Sync) : (s.modSync f).tr = s.tr := rfl
@[simp] theorem State.modSync_band (f : Sync → Sync) : (s.modSync f).band = s.band := rfl
@[simp] theorem State.modSync_ctx0 (f : Sync → Sync) : (s.modSync f).ctx0 = s.ctx0 := rfl
@[simp] theorem State.modSync_ctx1 (f : Sync → Sync) : (s.modSync f).ctx1 = s.ctx1 := rfl
@[simp] theorem State.modSync_sync (f : Sync → Sync) : (s.modSync f).sync = f s.sync := rfl
@[simp] theorem State.modSync_eng (f : Sync → Sync) : (s.modSync f).eng = s.eng := rfl
@[simp] theorem State.modSync_fc (f : Sync → Sync) : (s.modSync f).fc = s.fc := rfl
@[simp] theorem State.modSync_pw (f : Sync → Sync) : (s.modSync f).pw = s.pw := rfl
@[simp] theorem State.modSync_gate (f : Sync → Sync) : (s.modSync f).gate = s.gate := rfl
@[simp] theorem State.modSync_lg (f : Sync → Sync) : (s.modSync f).lg = s.lg := rfl
@[simp] theorem State.modSync_hs (f : Sync → Sync) : (s.modSync f).hs = s.hs := rfl
@[simp] theorem State.modSync_cap (f : Sync → Sync) : (s.modSync f).cap = s.cap := rfl
@[simp] theorem State.modSync_bv (f : Sync → Sync) : (s.modSync f).bv = s.bv := rfl
@[simp] theorem State.modSync_tst (f : Sync → Sync) : (s.modSync f).tst = s.tst := rfl
@[simp] theorem State.modSync_fw (f : Sync → Sync) : (s.modSync f).fw = s.fw := rfl
@[simp] theorem State.modSync_rp (f : Sync → Sync) : (s.modSync f).rp = s.rp := rfl
@[simp] theorem State.modSync_out (f : Sync → Sync) : (s.modSync f).out = s.out := rfl
@[simp] theorem State.modSync_freeIx (f : Sync → Sync) : (s.modSync f).freeIx = s.freeIx := rfl
@[simp] theorem State.modSync_pending (f : Sync → Sync) : (s.modSync f).pending = s.pending := rfl
@[simp] theorem State.modEng_profile (f : Engine → Engine) : (s.modEng f).profile = s.profile := rfl
@[simp] theorem State.modEng_pins (f : Engine → Engine) : (s.modEng f).pins = s.pins := rfl
@[simp] theorem State.modEng_sun (f : Engine → Engine) : (s.modEng f).sun = s.sun := rfl
@[simp] theorem State.modEng_org (f : Engine → Engine) : (s.modEng f).org = s.org := rfl
@[simp] theorem State.modEng_elect (f : Engine → Engine) : (s.modEng f).elect = s.elect := rfl
@[simp] theorem State.modEng_ports (f : Engine → Engine) : (s.modEng f).ports = s.ports := rfl
@[simp] theorem State.modEng_fab (f : Engine → Engine) : (s.modEng f).fab = s.fab := rfl
@[simp] theorem State.modEng_tr (f : Engine → Engine) : (s.modEng f).tr = s.tr := rfl
@[simp] theorem State.modEng_band (f : Engine → Engine) : (s.modEng f).band = s.band := rfl
@[simp] theorem State.modEng_ctx0 (f : Engine → Engine) : (s.modEng f).ctx0 = s.ctx0 := rfl
@[simp] theorem State.modEng_ctx1 (f : Engine → Engine) : (s.modEng f).ctx1 = s.ctx1 := rfl
@[simp] theorem State.modEng_sync (f : Engine → Engine) : (s.modEng f).sync = s.sync := rfl
@[simp] theorem State.modEng_eng (f : Engine → Engine) : (s.modEng f).eng = f s.eng := rfl
@[simp] theorem State.modEng_fc (f : Engine → Engine) : (s.modEng f).fc = s.fc := rfl
@[simp] theorem State.modEng_pw (f : Engine → Engine) : (s.modEng f).pw = s.pw := rfl
@[simp] theorem State.modEng_gate (f : Engine → Engine) : (s.modEng f).gate = s.gate := rfl
@[simp] theorem State.modEng_lg (f : Engine → Engine) : (s.modEng f).lg = s.lg := rfl
@[simp] theorem State.modEng_hs (f : Engine → Engine) : (s.modEng f).hs = s.hs := rfl
@[simp] theorem State.modEng_cap (f : Engine → Engine) : (s.modEng f).cap = s.cap := rfl
@[simp] theorem State.modEng_bv (f : Engine → Engine) : (s.modEng f).bv = s.bv := rfl
@[simp] theorem State.modEng_tst (f : Engine → Engine) : (s.modEng f).tst = s.tst := rfl
@[simp] theorem State.modEng_fw (f : Engine → Engine) : (s.modEng f).fw = s.fw := rfl
@[simp] theorem State.modEng_rp (f : Engine → Engine) : (s.modEng f).rp = s.rp := rfl
@[simp] theorem State.modEng_out (f : Engine → Engine) : (s.modEng f).out = s.out := rfl
@[simp] theorem State.modEng_freeIx (f : Engine → Engine) : (s.modEng f).freeIx = s.freeIx := rfl
@[simp] theorem State.modEng_pending (f : Engine → Engine) : (s.modEng f).pending = s.pending := rfl
@[simp] theorem State.modFc_profile (f : Collector → Collector) : (s.modFc f).profile = s.profile := rfl
@[simp] theorem State.modFc_pins (f : Collector → Collector) : (s.modFc f).pins = s.pins := rfl
@[simp] theorem State.modFc_sun (f : Collector → Collector) : (s.modFc f).sun = s.sun := rfl
@[simp] theorem State.modFc_org (f : Collector → Collector) : (s.modFc f).org = s.org := rfl
@[simp] theorem State.modFc_elect (f : Collector → Collector) : (s.modFc f).elect = s.elect := rfl
@[simp] theorem State.modFc_ports (f : Collector → Collector) : (s.modFc f).ports = s.ports := rfl
@[simp] theorem State.modFc_fab (f : Collector → Collector) : (s.modFc f).fab = s.fab := rfl
@[simp] theorem State.modFc_tr (f : Collector → Collector) : (s.modFc f).tr = s.tr := rfl
@[simp] theorem State.modFc_band (f : Collector → Collector) : (s.modFc f).band = s.band := rfl
@[simp] theorem State.modFc_ctx0 (f : Collector → Collector) : (s.modFc f).ctx0 = s.ctx0 := rfl
@[simp] theorem State.modFc_ctx1 (f : Collector → Collector) : (s.modFc f).ctx1 = s.ctx1 := rfl
@[simp] theorem State.modFc_sync (f : Collector → Collector) : (s.modFc f).sync = s.sync := rfl
@[simp] theorem State.modFc_eng (f : Collector → Collector) : (s.modFc f).eng = s.eng := rfl
@[simp] theorem State.modFc_fc (f : Collector → Collector) : (s.modFc f).fc = f s.fc := rfl
@[simp] theorem State.modFc_pw (f : Collector → Collector) : (s.modFc f).pw = s.pw := rfl
@[simp] theorem State.modFc_gate (f : Collector → Collector) : (s.modFc f).gate = s.gate := rfl
@[simp] theorem State.modFc_lg (f : Collector → Collector) : (s.modFc f).lg = s.lg := rfl
@[simp] theorem State.modFc_hs (f : Collector → Collector) : (s.modFc f).hs = s.hs := rfl
@[simp] theorem State.modFc_cap (f : Collector → Collector) : (s.modFc f).cap = s.cap := rfl
@[simp] theorem State.modFc_bv (f : Collector → Collector) : (s.modFc f).bv = s.bv := rfl
@[simp] theorem State.modFc_tst (f : Collector → Collector) : (s.modFc f).tst = s.tst := rfl
@[simp] theorem State.modFc_fw (f : Collector → Collector) : (s.modFc f).fw = s.fw := rfl
@[simp] theorem State.modFc_rp (f : Collector → Collector) : (s.modFc f).rp = s.rp := rfl
@[simp] theorem State.modFc_out (f : Collector → Collector) : (s.modFc f).out = s.out := rfl
@[simp] theorem State.modFc_freeIx (f : Collector → Collector) : (s.modFc f).freeIx = s.freeIx := rfl
@[simp] theorem State.modFc_pending (f : Collector → Collector) : (s.modFc f).pending = s.pending := rfl
@[simp] theorem State.modPw_profile (f : Power → Power) : (s.modPw f).profile = s.profile := rfl
@[simp] theorem State.modPw_pins (f : Power → Power) : (s.modPw f).pins = s.pins := rfl
@[simp] theorem State.modPw_sun (f : Power → Power) : (s.modPw f).sun = s.sun := rfl
@[simp] theorem State.modPw_org (f : Power → Power) : (s.modPw f).org = s.org := rfl
@[simp] theorem State.modPw_elect (f : Power → Power) : (s.modPw f).elect = s.elect := rfl
@[simp] theorem State.modPw_ports (f : Power → Power) : (s.modPw f).ports = s.ports := rfl
@[simp] theorem State.modPw_fab (f : Power → Power) : (s.modPw f).fab = s.fab := rfl
@[simp] theorem State.modPw_tr (f : Power → Power) : (s.modPw f).tr = s.tr := rfl
@[simp] theorem State.modPw_band (f : Power → Power) : (s.modPw f).band = s.band := rfl
@[simp] theorem State.modPw_ctx0 (f : Power → Power) : (s.modPw f).ctx0 = s.ctx0 := rfl
@[simp] theorem State.modPw_ctx1 (f : Power → Power) : (s.modPw f).ctx1 = s.ctx1 := rfl
@[simp] theorem State.modPw_sync (f : Power → Power) : (s.modPw f).sync = s.sync := rfl
@[simp] theorem State.modPw_eng (f : Power → Power) : (s.modPw f).eng = s.eng := rfl
@[simp] theorem State.modPw_fc (f : Power → Power) : (s.modPw f).fc = s.fc := rfl
@[simp] theorem State.modPw_pw (f : Power → Power) : (s.modPw f).pw = f s.pw := rfl
@[simp] theorem State.modPw_gate (f : Power → Power) : (s.modPw f).gate = s.gate := rfl
@[simp] theorem State.modPw_lg (f : Power → Power) : (s.modPw f).lg = s.lg := rfl
@[simp] theorem State.modPw_hs (f : Power → Power) : (s.modPw f).hs = s.hs := rfl
@[simp] theorem State.modPw_cap (f : Power → Power) : (s.modPw f).cap = s.cap := rfl
@[simp] theorem State.modPw_bv (f : Power → Power) : (s.modPw f).bv = s.bv := rfl
@[simp] theorem State.modPw_tst (f : Power → Power) : (s.modPw f).tst = s.tst := rfl
@[simp] theorem State.modPw_fw (f : Power → Power) : (s.modPw f).fw = s.fw := rfl
@[simp] theorem State.modPw_rp (f : Power → Power) : (s.modPw f).rp = s.rp := rfl
@[simp] theorem State.modPw_out (f : Power → Power) : (s.modPw f).out = s.out := rfl
@[simp] theorem State.modPw_freeIx (f : Power → Power) : (s.modPw f).freeIx = s.freeIx := rfl
@[simp] theorem State.modPw_pending (f : Power → Power) : (s.modPw f).pending = s.pending := rfl
@[simp] theorem State.modGate_profile (f : Gate → Gate) : (s.modGate f).profile = s.profile := rfl
@[simp] theorem State.modGate_pins (f : Gate → Gate) : (s.modGate f).pins = s.pins := rfl
@[simp] theorem State.modGate_sun (f : Gate → Gate) : (s.modGate f).sun = s.sun := rfl
@[simp] theorem State.modGate_org (f : Gate → Gate) : (s.modGate f).org = s.org := rfl
@[simp] theorem State.modGate_elect (f : Gate → Gate) : (s.modGate f).elect = s.elect := rfl
@[simp] theorem State.modGate_ports (f : Gate → Gate) : (s.modGate f).ports = s.ports := rfl
@[simp] theorem State.modGate_fab (f : Gate → Gate) : (s.modGate f).fab = s.fab := rfl
@[simp] theorem State.modGate_tr (f : Gate → Gate) : (s.modGate f).tr = s.tr := rfl
@[simp] theorem State.modGate_band (f : Gate → Gate) : (s.modGate f).band = s.band := rfl
@[simp] theorem State.modGate_ctx0 (f : Gate → Gate) : (s.modGate f).ctx0 = s.ctx0 := rfl
@[simp] theorem State.modGate_ctx1 (f : Gate → Gate) : (s.modGate f).ctx1 = s.ctx1 := rfl
@[simp] theorem State.modGate_sync (f : Gate → Gate) : (s.modGate f).sync = s.sync := rfl
@[simp] theorem State.modGate_eng (f : Gate → Gate) : (s.modGate f).eng = s.eng := rfl
@[simp] theorem State.modGate_fc (f : Gate → Gate) : (s.modGate f).fc = s.fc := rfl
@[simp] theorem State.modGate_pw (f : Gate → Gate) : (s.modGate f).pw = s.pw := rfl
@[simp] theorem State.modGate_gate (f : Gate → Gate) : (s.modGate f).gate = f s.gate := rfl
@[simp] theorem State.modGate_lg (f : Gate → Gate) : (s.modGate f).lg = s.lg := rfl
@[simp] theorem State.modGate_hs (f : Gate → Gate) : (s.modGate f).hs = s.hs := rfl
@[simp] theorem State.modGate_cap (f : Gate → Gate) : (s.modGate f).cap = s.cap := rfl
@[simp] theorem State.modGate_bv (f : Gate → Gate) : (s.modGate f).bv = s.bv := rfl
@[simp] theorem State.modGate_tst (f : Gate → Gate) : (s.modGate f).tst = s.tst := rfl
@[simp] theorem State.modGate_fw (f : Gate → Gate) : (s.modGate f).fw = s.fw := rfl
@[simp] theorem State.modGate_rp (f : Gate → Gate) : (s.modGate f).rp = s.rp := rfl
@[simp] theorem State.modGate_out (f : Gate → Gate) : (s.modGate f).out = s.out := rfl
@[simp] theorem State.modGate_freeIx (f : Gate → Gate) : (s.modGate f).freeIx = s.freeIx := rfl
@[simp] theorem State.modGate_pending (f : Gate → Gate) : (s.modGate f).pending = s.pending := rfl
@[simp] theorem State.modLg_profile (f : Ledger → Ledger) : (s.modLg f).profile = s.profile := rfl
@[simp] theorem State.modLg_pins (f : Ledger → Ledger) : (s.modLg f).pins = s.pins := rfl
@[simp] theorem State.modLg_sun (f : Ledger → Ledger) : (s.modLg f).sun = s.sun := rfl
@[simp] theorem State.modLg_org (f : Ledger → Ledger) : (s.modLg f).org = s.org := rfl
@[simp] theorem State.modLg_elect (f : Ledger → Ledger) : (s.modLg f).elect = s.elect := rfl
@[simp] theorem State.modLg_ports (f : Ledger → Ledger) : (s.modLg f).ports = s.ports := rfl
@[simp] theorem State.modLg_fab (f : Ledger → Ledger) : (s.modLg f).fab = s.fab := rfl
@[simp] theorem State.modLg_tr (f : Ledger → Ledger) : (s.modLg f).tr = s.tr := rfl
@[simp] theorem State.modLg_band (f : Ledger → Ledger) : (s.modLg f).band = s.band := rfl
@[simp] theorem State.modLg_ctx0 (f : Ledger → Ledger) : (s.modLg f).ctx0 = s.ctx0 := rfl
@[simp] theorem State.modLg_ctx1 (f : Ledger → Ledger) : (s.modLg f).ctx1 = s.ctx1 := rfl
@[simp] theorem State.modLg_sync (f : Ledger → Ledger) : (s.modLg f).sync = s.sync := rfl
@[simp] theorem State.modLg_eng (f : Ledger → Ledger) : (s.modLg f).eng = s.eng := rfl
@[simp] theorem State.modLg_fc (f : Ledger → Ledger) : (s.modLg f).fc = s.fc := rfl
@[simp] theorem State.modLg_pw (f : Ledger → Ledger) : (s.modLg f).pw = s.pw := rfl
@[simp] theorem State.modLg_gate (f : Ledger → Ledger) : (s.modLg f).gate = s.gate := rfl
@[simp] theorem State.modLg_lg (f : Ledger → Ledger) : (s.modLg f).lg = f s.lg := rfl
@[simp] theorem State.modLg_hs (f : Ledger → Ledger) : (s.modLg f).hs = s.hs := rfl
@[simp] theorem State.modLg_cap (f : Ledger → Ledger) : (s.modLg f).cap = s.cap := rfl
@[simp] theorem State.modLg_bv (f : Ledger → Ledger) : (s.modLg f).bv = s.bv := rfl
@[simp] theorem State.modLg_tst (f : Ledger → Ledger) : (s.modLg f).tst = s.tst := rfl
@[simp] theorem State.modLg_fw (f : Ledger → Ledger) : (s.modLg f).fw = s.fw := rfl
@[simp] theorem State.modLg_rp (f : Ledger → Ledger) : (s.modLg f).rp = s.rp := rfl
@[simp] theorem State.modLg_out (f : Ledger → Ledger) : (s.modLg f).out = s.out := rfl
@[simp] theorem State.modLg_freeIx (f : Ledger → Ledger) : (s.modLg f).freeIx = s.freeIx := rfl
@[simp] theorem State.modLg_pending (f : Ledger → Ledger) : (s.modLg f).pending = s.pending := rfl
@[simp] theorem State.modHs_profile (f : Health → Health) : (s.modHs f).profile = s.profile := rfl
@[simp] theorem State.modHs_pins (f : Health → Health) : (s.modHs f).pins = s.pins := rfl
@[simp] theorem State.modHs_sun (f : Health → Health) : (s.modHs f).sun = s.sun := rfl
@[simp] theorem State.modHs_org (f : Health → Health) : (s.modHs f).org = s.org := rfl
@[simp] theorem State.modHs_elect (f : Health → Health) : (s.modHs f).elect = s.elect := rfl
@[simp] theorem State.modHs_ports (f : Health → Health) : (s.modHs f).ports = s.ports := rfl
@[simp] theorem State.modHs_fab (f : Health → Health) : (s.modHs f).fab = s.fab := rfl
@[simp] theorem State.modHs_tr (f : Health → Health) : (s.modHs f).tr = s.tr := rfl
@[simp] theorem State.modHs_band (f : Health → Health) : (s.modHs f).band = s.band := rfl
@[simp] theorem State.modHs_ctx0 (f : Health → Health) : (s.modHs f).ctx0 = s.ctx0 := rfl
@[simp] theorem State.modHs_ctx1 (f : Health → Health) : (s.modHs f).ctx1 = s.ctx1 := rfl
@[simp] theorem State.modHs_sync (f : Health → Health) : (s.modHs f).sync = s.sync := rfl
@[simp] theorem State.modHs_eng (f : Health → Health) : (s.modHs f).eng = s.eng := rfl
@[simp] theorem State.modHs_fc (f : Health → Health) : (s.modHs f).fc = s.fc := rfl
@[simp] theorem State.modHs_pw (f : Health → Health) : (s.modHs f).pw = s.pw := rfl
@[simp] theorem State.modHs_gate (f : Health → Health) : (s.modHs f).gate = s.gate := rfl
@[simp] theorem State.modHs_lg (f : Health → Health) : (s.modHs f).lg = s.lg := rfl
@[simp] theorem State.modHs_hs (f : Health → Health) : (s.modHs f).hs = f s.hs := rfl
@[simp] theorem State.modHs_cap (f : Health → Health) : (s.modHs f).cap = s.cap := rfl
@[simp] theorem State.modHs_bv (f : Health → Health) : (s.modHs f).bv = s.bv := rfl
@[simp] theorem State.modHs_tst (f : Health → Health) : (s.modHs f).tst = s.tst := rfl
@[simp] theorem State.modHs_fw (f : Health → Health) : (s.modHs f).fw = s.fw := rfl
@[simp] theorem State.modHs_rp (f : Health → Health) : (s.modHs f).rp = s.rp := rfl
@[simp] theorem State.modHs_out (f : Health → Health) : (s.modHs f).out = s.out := rfl
@[simp] theorem State.modHs_freeIx (f : Health → Health) : (s.modHs f).freeIx = s.freeIx := rfl
@[simp] theorem State.modHs_pending (f : Health → Health) : (s.modHs f).pending = s.pending := rfl
@[simp] theorem State.modCap_profile (f : List Capture → List Capture) : (s.modCap f).profile = s.profile := rfl
@[simp] theorem State.modCap_pins (f : List Capture → List Capture) : (s.modCap f).pins = s.pins := rfl
@[simp] theorem State.modCap_sun (f : List Capture → List Capture) : (s.modCap f).sun = s.sun := rfl
@[simp] theorem State.modCap_org (f : List Capture → List Capture) : (s.modCap f).org = s.org := rfl
@[simp] theorem State.modCap_elect (f : List Capture → List Capture) : (s.modCap f).elect = s.elect := rfl
@[simp] theorem State.modCap_ports (f : List Capture → List Capture) : (s.modCap f).ports = s.ports := rfl
@[simp] theorem State.modCap_fab (f : List Capture → List Capture) : (s.modCap f).fab = s.fab := rfl
@[simp] theorem State.modCap_tr (f : List Capture → List Capture) : (s.modCap f).tr = s.tr := rfl
@[simp] theorem State.modCap_band (f : List Capture → List Capture) : (s.modCap f).band = s.band := rfl
@[simp] theorem State.modCap_ctx0 (f : List Capture → List Capture) : (s.modCap f).ctx0 = s.ctx0 := rfl
@[simp] theorem State.modCap_ctx1 (f : List Capture → List Capture) : (s.modCap f).ctx1 = s.ctx1 := rfl
@[simp] theorem State.modCap_sync (f : List Capture → List Capture) : (s.modCap f).sync = s.sync := rfl
@[simp] theorem State.modCap_eng (f : List Capture → List Capture) : (s.modCap f).eng = s.eng := rfl
@[simp] theorem State.modCap_fc (f : List Capture → List Capture) : (s.modCap f).fc = s.fc := rfl
@[simp] theorem State.modCap_pw (f : List Capture → List Capture) : (s.modCap f).pw = s.pw := rfl
@[simp] theorem State.modCap_gate (f : List Capture → List Capture) : (s.modCap f).gate = s.gate := rfl
@[simp] theorem State.modCap_lg (f : List Capture → List Capture) : (s.modCap f).lg = s.lg := rfl
@[simp] theorem State.modCap_hs (f : List Capture → List Capture) : (s.modCap f).hs = s.hs := rfl
@[simp] theorem State.modCap_cap (f : List Capture → List Capture) : (s.modCap f).cap = f s.cap := rfl
@[simp] theorem State.modCap_bv (f : List Capture → List Capture) : (s.modCap f).bv = s.bv := rfl
@[simp] theorem State.modCap_tst (f : List Capture → List Capture) : (s.modCap f).tst = s.tst := rfl
@[simp] theorem State.modCap_fw (f : List Capture → List Capture) : (s.modCap f).fw = s.fw := rfl
@[simp] theorem State.modCap_rp (f : List Capture → List Capture) : (s.modCap f).rp = s.rp := rfl
@[simp] theorem State.modCap_out (f : List Capture → List Capture) : (s.modCap f).out = s.out := rfl
@[simp] theorem State.modCap_freeIx (f : List Capture → List Capture) : (s.modCap f).freeIx = s.freeIx := rfl
@[simp] theorem State.modCap_pending (f : List Capture → List Capture) : (s.modCap f).pending = s.pending := rfl
@[simp] theorem State.modBv_profile (f : Trace → Trace) : (s.modBv f).profile = s.profile := rfl
@[simp] theorem State.modBv_pins (f : Trace → Trace) : (s.modBv f).pins = s.pins := rfl
@[simp] theorem State.modBv_sun (f : Trace → Trace) : (s.modBv f).sun = s.sun := rfl
@[simp] theorem State.modBv_org (f : Trace → Trace) : (s.modBv f).org = s.org := rfl
@[simp] theorem State.modBv_elect (f : Trace → Trace) : (s.modBv f).elect = s.elect := rfl
@[simp] theorem State.modBv_ports (f : Trace → Trace) : (s.modBv f).ports = s.ports := rfl
@[simp] theorem State.modBv_fab (f : Trace → Trace) : (s.modBv f).fab = s.fab := rfl
@[simp] theorem State.modBv_tr (f : Trace → Trace) : (s.modBv f).tr = s.tr := rfl
@[simp] theorem State.modBv_band (f : Trace → Trace) : (s.modBv f).band = s.band := rfl
@[simp] theorem State.modBv_ctx0 (f : Trace → Trace) : (s.modBv f).ctx0 = s.ctx0 := rfl
@[simp] theorem State.modBv_ctx1 (f : Trace → Trace) : (s.modBv f).ctx1 = s.ctx1 := rfl
@[simp] theorem State.modBv_sync (f : Trace → Trace) : (s.modBv f).sync = s.sync := rfl
@[simp] theorem State.modBv_eng (f : Trace → Trace) : (s.modBv f).eng = s.eng := rfl
@[simp] theorem State.modBv_fc (f : Trace → Trace) : (s.modBv f).fc = s.fc := rfl
@[simp] theorem State.modBv_pw (f : Trace → Trace) : (s.modBv f).pw = s.pw := rfl
@[simp] theorem State.modBv_gate (f : Trace → Trace) : (s.modBv f).gate = s.gate := rfl
@[simp] theorem State.modBv_lg (f : Trace → Trace) : (s.modBv f).lg = s.lg := rfl
@[simp] theorem State.modBv_hs (f : Trace → Trace) : (s.modBv f).hs = s.hs := rfl
@[simp] theorem State.modBv_cap (f : Trace → Trace) : (s.modBv f).cap = s.cap := rfl
@[simp] theorem State.modBv_bv (f : Trace → Trace) : (s.modBv f).bv = f s.bv := rfl
@[simp] theorem State.modBv_tst (f : Trace → Trace) : (s.modBv f).tst = s.tst := rfl
@[simp] theorem State.modBv_fw (f : Trace → Trace) : (s.modBv f).fw = s.fw := rfl
@[simp] theorem State.modBv_rp (f : Trace → Trace) : (s.modBv f).rp = s.rp := rfl
@[simp] theorem State.modBv_out (f : Trace → Trace) : (s.modBv f).out = s.out := rfl
@[simp] theorem State.modBv_freeIx (f : Trace → Trace) : (s.modBv f).freeIx = s.freeIx := rfl
@[simp] theorem State.modBv_pending (f : Trace → Trace) : (s.modBv f).pending = s.pending := rfl
@[simp] theorem State.modTst_profile (f : TestPage → TestPage) : (s.modTst f).profile = s.profile := rfl
@[simp] theorem State.modTst_pins (f : TestPage → TestPage) : (s.modTst f).pins = s.pins := rfl
@[simp] theorem State.modTst_sun (f : TestPage → TestPage) : (s.modTst f).sun = s.sun := rfl
@[simp] theorem State.modTst_org (f : TestPage → TestPage) : (s.modTst f).org = s.org := rfl
@[simp] theorem State.modTst_elect (f : TestPage → TestPage) : (s.modTst f).elect = s.elect := rfl
@[simp] theorem State.modTst_ports (f : TestPage → TestPage) : (s.modTst f).ports = s.ports := rfl
@[simp] theorem State.modTst_fab (f : TestPage → TestPage) : (s.modTst f).fab = s.fab := rfl
@[simp] theorem State.modTst_tr (f : TestPage → TestPage) : (s.modTst f).tr = s.tr := rfl
@[simp] theorem State.modTst_band (f : TestPage → TestPage) : (s.modTst f).band = s.band := rfl
@[simp] theorem State.modTst_ctx0 (f : TestPage → TestPage) : (s.modTst f).ctx0 = s.ctx0 := rfl
@[simp] theorem State.modTst_ctx1 (f : TestPage → TestPage) : (s.modTst f).ctx1 = s.ctx1 := rfl
@[simp] theorem State.modTst_sync (f : TestPage → TestPage) : (s.modTst f).sync = s.sync := rfl
@[simp] theorem State.modTst_eng (f : TestPage → TestPage) : (s.modTst f).eng = s.eng := rfl
@[simp] theorem State.modTst_fc (f : TestPage → TestPage) : (s.modTst f).fc = s.fc := rfl
@[simp] theorem State.modTst_pw (f : TestPage → TestPage) : (s.modTst f).pw = s.pw := rfl
@[simp] theorem State.modTst_gate (f : TestPage → TestPage) : (s.modTst f).gate = s.gate := rfl
@[simp] theorem State.modTst_lg (f : TestPage → TestPage) : (s.modTst f).lg = s.lg := rfl
@[simp] theorem State.modTst_hs (f : TestPage → TestPage) : (s.modTst f).hs = s.hs := rfl
@[simp] theorem State.modTst_cap (f : TestPage → TestPage) : (s.modTst f).cap = s.cap := rfl
@[simp] theorem State.modTst_bv (f : TestPage → TestPage) : (s.modTst f).bv = s.bv := rfl
@[simp] theorem State.modTst_tst (f : TestPage → TestPage) : (s.modTst f).tst = f s.tst := rfl
@[simp] theorem State.modTst_fw (f : TestPage → TestPage) : (s.modTst f).fw = s.fw := rfl
@[simp] theorem State.modTst_rp (f : TestPage → TestPage) : (s.modTst f).rp = s.rp := rfl
@[simp] theorem State.modTst_out (f : TestPage → TestPage) : (s.modTst f).out = s.out := rfl
@[simp] theorem State.modTst_freeIx (f : TestPage → TestPage) : (s.modTst f).freeIx = s.freeIx := rfl
@[simp] theorem State.modTst_pending (f : TestPage → TestPage) : (s.modTst f).pending = s.pending := rfl
@[simp] theorem State.modFw_profile (f : Firmware → Firmware) : (s.modFw f).profile = s.profile := rfl
@[simp] theorem State.modFw_pins (f : Firmware → Firmware) : (s.modFw f).pins = s.pins := rfl
@[simp] theorem State.modFw_sun (f : Firmware → Firmware) : (s.modFw f).sun = s.sun := rfl
@[simp] theorem State.modFw_org (f : Firmware → Firmware) : (s.modFw f).org = s.org := rfl
@[simp] theorem State.modFw_elect (f : Firmware → Firmware) : (s.modFw f).elect = s.elect := rfl
@[simp] theorem State.modFw_ports (f : Firmware → Firmware) : (s.modFw f).ports = s.ports := rfl
@[simp] theorem State.modFw_fab (f : Firmware → Firmware) : (s.modFw f).fab = s.fab := rfl
@[simp] theorem State.modFw_tr (f : Firmware → Firmware) : (s.modFw f).tr = s.tr := rfl
@[simp] theorem State.modFw_band (f : Firmware → Firmware) : (s.modFw f).band = s.band := rfl
@[simp] theorem State.modFw_ctx0 (f : Firmware → Firmware) : (s.modFw f).ctx0 = s.ctx0 := rfl
@[simp] theorem State.modFw_ctx1 (f : Firmware → Firmware) : (s.modFw f).ctx1 = s.ctx1 := rfl
@[simp] theorem State.modFw_sync (f : Firmware → Firmware) : (s.modFw f).sync = s.sync := rfl
@[simp] theorem State.modFw_eng (f : Firmware → Firmware) : (s.modFw f).eng = s.eng := rfl
@[simp] theorem State.modFw_fc (f : Firmware → Firmware) : (s.modFw f).fc = s.fc := rfl
@[simp] theorem State.modFw_pw (f : Firmware → Firmware) : (s.modFw f).pw = s.pw := rfl
@[simp] theorem State.modFw_gate (f : Firmware → Firmware) : (s.modFw f).gate = s.gate := rfl
@[simp] theorem State.modFw_lg (f : Firmware → Firmware) : (s.modFw f).lg = s.lg := rfl
@[simp] theorem State.modFw_hs (f : Firmware → Firmware) : (s.modFw f).hs = s.hs := rfl
@[simp] theorem State.modFw_cap (f : Firmware → Firmware) : (s.modFw f).cap = s.cap := rfl
@[simp] theorem State.modFw_bv (f : Firmware → Firmware) : (s.modFw f).bv = s.bv := rfl
@[simp] theorem State.modFw_tst (f : Firmware → Firmware) : (s.modFw f).tst = s.tst := rfl
@[simp] theorem State.modFw_fw (f : Firmware → Firmware) : (s.modFw f).fw = f s.fw := rfl
@[simp] theorem State.modFw_rp (f : Firmware → Firmware) : (s.modFw f).rp = s.rp := rfl
@[simp] theorem State.modFw_out (f : Firmware → Firmware) : (s.modFw f).out = s.out := rfl
@[simp] theorem State.modFw_freeIx (f : Firmware → Firmware) : (s.modFw f).freeIx = s.freeIx := rfl
@[simp] theorem State.modFw_pending (f : Firmware → Firmware) : (s.modFw f).pending = s.pending := rfl
@[simp] theorem State.modRp_profile (f : RegPort → RegPort) : (s.modRp f).profile = s.profile := rfl
@[simp] theorem State.modRp_pins (f : RegPort → RegPort) : (s.modRp f).pins = s.pins := rfl
@[simp] theorem State.modRp_sun (f : RegPort → RegPort) : (s.modRp f).sun = s.sun := rfl
@[simp] theorem State.modRp_org (f : RegPort → RegPort) : (s.modRp f).org = s.org := rfl
@[simp] theorem State.modRp_elect (f : RegPort → RegPort) : (s.modRp f).elect = s.elect := rfl
@[simp] theorem State.modRp_ports (f : RegPort → RegPort) : (s.modRp f).ports = s.ports := rfl
@[simp] theorem State.modRp_fab (f : RegPort → RegPort) : (s.modRp f).fab = s.fab := rfl
@[simp] theorem State.modRp_tr (f : RegPort → RegPort) : (s.modRp f).tr = s.tr := rfl
@[simp] theorem State.modRp_band (f : RegPort → RegPort) : (s.modRp f).band = s.band := rfl
@[simp] theorem State.modRp_ctx0 (f : RegPort → RegPort) : (s.modRp f).ctx0 = s.ctx0 := rfl
@[simp] theorem State.modRp_ctx1 (f : RegPort → RegPort) : (s.modRp f).ctx1 = s.ctx1 := rfl
@[simp] theorem State.modRp_sync (f : RegPort → RegPort) : (s.modRp f).sync = s.sync := rfl
@[simp] theorem State.modRp_eng (f : RegPort → RegPort) : (s.modRp f).eng = s.eng := rfl
@[simp] theorem State.modRp_fc (f : RegPort → RegPort) : (s.modRp f).fc = s.fc := rfl
@[simp] theorem State.modRp_pw (f : RegPort → RegPort) : (s.modRp f).pw = s.pw := rfl
@[simp] theorem State.modRp_gate (f : RegPort → RegPort) : (s.modRp f).gate = s.gate := rfl
@[simp] theorem State.modRp_lg (f : RegPort → RegPort) : (s.modRp f).lg = s.lg := rfl
@[simp] theorem State.modRp_hs (f : RegPort → RegPort) : (s.modRp f).hs = s.hs := rfl
@[simp] theorem State.modRp_cap (f : RegPort → RegPort) : (s.modRp f).cap = s.cap := rfl
@[simp] theorem State.modRp_bv (f : RegPort → RegPort) : (s.modRp f).bv = s.bv := rfl
@[simp] theorem State.modRp_tst (f : RegPort → RegPort) : (s.modRp f).tst = s.tst := rfl
@[simp] theorem State.modRp_fw (f : RegPort → RegPort) : (s.modRp f).fw = s.fw := rfl
@[simp] theorem State.modRp_rp (f : RegPort → RegPort) : (s.modRp f).rp = f s.rp := rfl
@[simp] theorem State.modRp_out (f : RegPort → RegPort) : (s.modRp f).out = s.out := rfl
@[simp] theorem State.modRp_freeIx (f : RegPort → RegPort) : (s.modRp f).freeIx = s.freeIx := rfl
@[simp] theorem State.modRp_pending (f : RegPort → RegPort) : (s.modRp f).pending = s.pending := rfl
@[simp] theorem State.modOut_profile (f : List Out → List Out) : (s.modOut f).profile = s.profile := rfl
@[simp] theorem State.modOut_pins (f : List Out → List Out) : (s.modOut f).pins = s.pins := rfl
@[simp] theorem State.modOut_sun (f : List Out → List Out) : (s.modOut f).sun = s.sun := rfl
@[simp] theorem State.modOut_org (f : List Out → List Out) : (s.modOut f).org = s.org := rfl
@[simp] theorem State.modOut_elect (f : List Out → List Out) : (s.modOut f).elect = s.elect := rfl
@[simp] theorem State.modOut_ports (f : List Out → List Out) : (s.modOut f).ports = s.ports := rfl
@[simp] theorem State.modOut_fab (f : List Out → List Out) : (s.modOut f).fab = s.fab := rfl
@[simp] theorem State.modOut_tr (f : List Out → List Out) : (s.modOut f).tr = s.tr := rfl
@[simp] theorem State.modOut_band (f : List Out → List Out) : (s.modOut f).band = s.band := rfl
@[simp] theorem State.modOut_ctx0 (f : List Out → List Out) : (s.modOut f).ctx0 = s.ctx0 := rfl
@[simp] theorem State.modOut_ctx1 (f : List Out → List Out) : (s.modOut f).ctx1 = s.ctx1 := rfl
@[simp] theorem State.modOut_sync (f : List Out → List Out) : (s.modOut f).sync = s.sync := rfl
@[simp] theorem State.modOut_eng (f : List Out → List Out) : (s.modOut f).eng = s.eng := rfl
@[simp] theorem State.modOut_fc (f : List Out → List Out) : (s.modOut f).fc = s.fc := rfl
@[simp] theorem State.modOut_pw (f : List Out → List Out) : (s.modOut f).pw = s.pw := rfl
@[simp] theorem State.modOut_gate (f : List Out → List Out) : (s.modOut f).gate = s.gate := rfl
@[simp] theorem State.modOut_lg (f : List Out → List Out) : (s.modOut f).lg = s.lg := rfl
@[simp] theorem State.modOut_hs (f : List Out → List Out) : (s.modOut f).hs = s.hs := rfl
@[simp] theorem State.modOut_cap (f : List Out → List Out) : (s.modOut f).cap = s.cap := rfl
@[simp] theorem State.modOut_bv (f : List Out → List Out) : (s.modOut f).bv = s.bv := rfl
@[simp] theorem State.modOut_tst (f : List Out → List Out) : (s.modOut f).tst = s.tst := rfl
@[simp] theorem State.modOut_fw (f : List Out → List Out) : (s.modOut f).fw = s.fw := rfl
@[simp] theorem State.modOut_rp (f : List Out → List Out) : (s.modOut f).rp = s.rp := rfl
@[simp] theorem State.modOut_out (f : List Out → List Out) : (s.modOut f).out = f s.out := rfl
@[simp] theorem State.modOut_freeIx (f : List Out → List Out) : (s.modOut f).freeIx = s.freeIx := rfl
@[simp] theorem State.modOut_pending (f : List Out → List Out) : (s.modOut f).pending = s.pending := rfl

end Sys2Proof.Machine
end

