-- ==== Sys2Proof/Laws/Key.lean ====
section
/-!
SUPPORT. What almost every operation leaves alone, said once per operation: the profile, the queue, the sizes of
the fixed tables, the bytes of the banks, the C-pairs of the collector, and the pins fl_err_p, fl_err_n and fl_halt.
-/

namespace Sys2Proof.Machine

variable (s : State)

theorem State.modSun_key (f : Sun → Sun) : (s.modSun f).key = s.key := rfl
theorem State.modElect_key (f : Elect → Elect) : (s.modElect f).key = s.key := rfl
theorem State.modFab_key (f : Fabric → Fabric) : (s.modFab f).key = s.key := rfl
theorem State.modTr_key (f : Trellis → Trellis) : (s.modTr f).key = s.key := rfl
theorem State.modBand_key (f : Band → Band) : (s.modBand f).key = s.key := rfl
theorem State.modCtx0_key (f : Ctx → Ctx) : (s.modCtx0 f).key = s.key := rfl
theorem State.modCtx1_key (f : Ctx → Ctx) : (s.modCtx1 f).key = s.key := rfl
theorem State.modSync_key (f : Sync → Sync) : (s.modSync f).key = s.key := rfl
theorem State.modGate_key (f : Gate → Gate) : (s.modGate f).key = s.key := rfl
theorem State.modLg_key (f : Ledger → Ledger) : (s.modLg f).key = s.key := rfl
theorem State.modHs_key (f : Health → Health) : (s.modHs f).key = s.key := rfl
theorem State.modBv_key (f : Trace → Trace) : (s.modBv f).key = s.key := rfl
theorem State.modTst_key (f : TestPage → TestPage) : (s.modTst f).key = s.key := rfl
theorem State.modFw_key (f : Firmware → Firmware) : (s.modFw f).key = s.key := rfl
theorem State.modRp_key (f : RegPort → RegPort) : (s.modRp f).key = s.key := rfl
theorem State.modOut_key (f : List Out → List Out) : (s.modOut f).key = s.key := rfl
theorem State.modEng_key (f : Engine → Engine) : (s.modEng f).key = s.key := rfl
theorem State.modCap_key (f : List Capture → List Capture) : (s.modCap f).key = s.key := rfl
theorem State.modOrg_key (f : Org → Org) : (s.modOrg f).key = s.key := rfl
theorem State.modPins_key (f : Pins → Pins) (h : ∀ x, (f x).core = x.core) : (s.modPins f).key = s.key := by simp only [State.key, State.modPins, h]
theorem State.modFc_key (f : Collector → Collector) (h : ∀ x, (f x).core = x.core) : (s.modFc f).key = s.key := by simp only [State.key, State.modFc, h]
theorem State.modPw_key (f : Power → Power) (h : ∀ x, (f x).core = x.core) : (s.modPw f).key = s.key := by simp only [State.key, State.modPw, h]
theorem State.modPorts_key (f : List Port → List Port) (h : ∀ x, (f x).length = x.length) : (s.modPorts f).key = s.key := by simp only [State.key, State.modPorts, h]
theorem length_modify {p : Nat} {f : Port → Port} (x : List Port) : (x.modify p f).length = x.length := List.length_modify ..
theorem length_map {f : Port → Port} (x : List Port) : (x.map f).length = x.length := List.length_map ..
theorem modify_core {d : Nat} {f : Domain → Domain} (x : Power) : ({ x with doms := x.doms.modify d f } : Power).core = x.core := by simp only [Power.core, List.length_modify]
theorem elim_key {α : Type} {o : Option α} {a t : State} {f : α → State} (h : ∀ x, (f x).key = t.key) (g : a.key = t.key) : (o.elim a f).key = t.key := by cases o <;> simp [h, g]
theorem freeIx_key (n : Nat) : ({ s with freeIx := n } : State).key = s.key := rfl
theorem foldl_key {α : Type} (f : State → α → State) (l : List α) (h : ∀ s a, (f s a).key = s.key) : (l.foldl f s).key = s.key := by
  induction l generalizing s with
  | nil => rfl
  | cons a r ih => simp only [List.foldl_cons, ih, h]
theorem ite_key {c : Prop} [Decidable c] {a b t : State} (h : a.key = t.key) (g : b.key = t.key) : (if c then a else b).key = t.key := by split <;> assumption



-- Ops
theorem State.modPort_key (p : PortNo) (f : Port → Port) : (State.modPort s p f).key = s.key := by
  unfold State.modPort
  with_reducible repeat' first | rfl | refine (State.modPorts_key _ _ ?_).trans ?_ | exact length_map | exact length_modify
theorem State.modCtx_key (slot : Bool) (f : Ctx → Ctx) : (State.modCtx s slot f).key = s.key := by
  unfold State.modCtx
  with_reducible repeat' first | rfl | refine ite_key ?_ ?_ | refine (State.modCtx1_key ..).trans ?_ | refine (State.modCtx0_key ..).trans ?_
theorem State.drew_key  : (State.drew s).key = s.key := by
  unfold State.drew
  with_reducible repeat' first | rfl | refine (freeIx_key ..).trans ?_
theorem State.traced_key (stamp : HT80) (src : Nat) (port : PortNo) (data : List Byte) : (State.traced s stamp src port data).key = s.key := by
  unfold State.traced
  with_reducible repeat' first | rfl | refine ite_key ?_ ?_ | refine (State.modBv_key ..).trans ?_
theorem State.tracedMsg_key (stamp : HT80) (src : Nat) (p : PortNo) (seq : BitVec 5) (m : Msg) : (State.tracedMsg s stamp src p seq m).key = s.key := by
  unfold State.tracedMsg
  with_reducible repeat' first | rfl | refine (State.traced_key ..).trans ?_ | refine (foldl_key _ _ _ ?_).trans ?_ | (intro _ _)
theorem State.traceOut_key (stamp : HT80) (n0_ : Out) : (State.traceOut s stamp n0_).key = s.key := by
  unfold State.traceOut
  with_reducible repeat' first | rfl | refine ite_key ?_ ?_ | refine (State.tracedMsg_key ..).trans ?_ | refine (State.traced_key ..).trans ?_ | dsimp only | split
theorem State.emitAt_key (stamp : HT80) (o : Out) : (State.emitAt s stamp o).key = s.key := by
  unfold State.emitAt
  with_reducible repeat' first | rfl | refine (State.modOut_key ..).trans ?_ | refine (State.traceOut_key ..).trans ?_
theorem State.emit_key (o : Out) : (State.emit s o).key = s.key := by
  unfold State.emit
  with_reducible repeat' first | rfl | refine (State.emitAt_key ..).trans ?_
theorem State.modPart_key (t : PTag) (f : Part → Part) : (State.modPart s t f).key = s.key := by
  unfold State.modPart
  with_reducible repeat' first | rfl | refine (State.modFab_key ..).trans ?_
theorem State.raise_key (r : Report) : (State.raise s r).key = s.key := by
  unfold State.raise
  with_reducible repeat' first | rfl | refine (State.modFc_key _ _ ?_).trans ?_ | (intro _; rfl)
theorem State.raiseNow_key (code : BitVec 16) (loc : BitVec 24) (part : Option PTag) (det : BitVec 64) : (State.raiseNow s code loc part det).key = s.key := by
  unfold State.raiseNow
  with_reducible repeat' first | rfl | refine (State.raise_key ..).trans ?_
theorem State.hmSend_key (t : BitVec 6) (r : HmReq) : (State.hmSend s t r).key = s.key := by
  unfold State.hmSend
  with_reducible repeat' first | rfl | refine (State.modEng_key ..).trans ?_ | refine (State.emit_key ..).trans ?_
theorem State.hmIssue_key (r : HmReq) : (State.hmIssue s r).key = s.key := by
  unfold State.hmIssue
  with_reducible repeat' first | rfl | refine ite_key ?_ ?_ | refine (State.hmSend_key ..).trans ?_ | refine (State.modEng_key ..).trans ?_ | split
theorem State.hmNext_key  : (State.hmNext s).key = s.key := by
  unfold State.hmNext
  with_reducible repeat' first | rfl | refine ite_key ?_ ?_ | refine (State.modEng_key ..).trans ?_ | refine (State.hmSend_key ..).trans ?_ | split
theorem State.modRing_key (n : Nat) (f : Ring → Ring) : (State.modRing s n f).key = s.key := by
  unfold State.modRing
  with_reducible repeat' first | rfl | refine (State.modEng_key ..).trans ?_
theorem State.flushProd_key (n : BitVec 3) : (State.flushProd s n).key = s.key := by
  unfold State.flushProd
  with_reducible repeat' first | rfl | refine ite_key ?_ ?_ | refine (State.modRing_key ..).trans ?_ | refine (State.hmIssue_key ..).trans ?_ | dsimp only
theorem State.writeGroup_key (n : BitVec 3) (g : List (BitVec 256)) (num : Option Nat) : (State.writeGroup s n g num).key = s.key := by
  unfold State.writeGroup
  with_reducible repeat' first | rfl | refine ite_key ?_ ?_ | refine (State.modRing_key ..).trans ?_ | refine (State.hmIssue_key ..).trans ?_ | refine (foldl_key _ _ _ ?_).trans ?_ | (intro _ _) | dsimp only
theorem State.readDoorbell_key (n : Nat) : (State.readDoorbell s n).key = s.key := by
  unfold State.readDoorbell
  with_reducible repeat' first | rfl | refine ite_key ?_ ?_ | refine (State.modRing_key ..).trans ?_ | refine (State.hmIssue_key ..).trans ?_ | dsimp only
theorem State.loseGroup_key (n : BitVec 3) (g : List (BitVec 256)) (num : Option Nat) : (State.loseGroup s n g num).key = s.key := by
  unfold State.loseGroup
  with_reducible repeat' first | rfl | refine ite_key ?_ ?_ | refine (State.modRing_key ..).trans ?_ | refine (State.modEng_key ..).trans ?_ | refine (State.raiseNow_key ..).trans ?_ | refine (State.modSync_key ..).trans ?_ | dsimp only
theorem State.loseHeld_key (n : Nat) : (State.loseHeld s n).key = s.key := by
  unfold State.loseHeld
  with_reducible repeat' first | rfl | refine ite_key ?_ ?_ | refine (State.loseGroup_key ..).trans ?_ | refine (State.modRing_key ..).trans ?_ | refine (foldl_key _ _ _ ?_).trans ?_ | (intro _ _)
theorem State.putGroup_key (n : BitVec 3) (g : List (BitVec 256)) (num : Option Nat) : (State.putGroup s n g num).key = s.key := by
  unfold State.putGroup
  with_reducible repeat' first | rfl | refine ite_key ?_ ?_ | refine (State.modEng_key ..).trans ?_ | refine (State.modRing_key ..).trans ?_ | refine (State.writeGroup_key ..).trans ?_ | refine (State.readDoorbell_key ..).trans ?_ | refine (State.loseGroup_key ..).trans ?_ | dsimp only
theorem State.flushArea_key  : (State.flushArea s).key = s.key := by
  unfold State.flushArea
  with_reducible repeat' first | rfl | refine ite_key ?_ ?_ | refine (State.putGroup_key ..).trans ?_ | refine (State.modEng_key ..).trans ?_ | refine (foldl_key _ _ _ ?_).trans ?_ | (intro _ _)
theorem State.drainHeld_key (n : BitVec 3) : (State.drainHeld s n).key = s.key := by
  unfold State.drainHeld
  with_reducible repeat' first | rfl | refine ite_key ?_ ?_ | refine (State.modRing_key ..).trans ?_ | refine (State.writeGroup_key ..).trans ?_ | refine (foldl_key _ _ _ ?_).trans ?_ | (intro _ _) | dsimp only
theorem State.reply_key (stamp : HT80) (cls order : Nat) (g : List (BitVec 256)) (num : Option Nat) : (State.reply s stamp cls order g num).key = s.key := by
  unfold State.reply
  with_reducible repeat' first | rfl | refine (State.modEng_key ..).trans ?_
theorem State.flushAnswers_key  : (State.flushAnswers s).key = s.key := by
  unfold State.flushAnswers
  with_reducible repeat' first | rfl | refine (State.putGroup_key ..).trans ?_ | refine (State.modEng_key ..).trans ?_ | refine (foldl_key _ _ _ ?_).trans ?_ | (intro _ _) | split | dsimp only
theorem State.notice_key (num : Nat) (status : Byte) : (State.notice s num status).key = s.key := by
  unfold State.notice
  with_reducible repeat' first | rfl | refine (State.reply_key ..).trans ?_ | split
theorem State.flushEnds_key  : (State.flushEnds s).key = s.key := by
  unfold State.flushEnds
  with_reducible repeat' first | rfl | refine ite_key ?_ ?_ | refine (State.reply_key ..).trans ?_ | refine (State.modEng_key ..).trans ?_ | refine (foldl_key _ _ _ ?_).trans ?_ | (intro _ _) | split | dsimp only
theorem State.complete_key (num : Nat) (status : Byte) (cause : BitVec 16) (det : BitVec 80) (stamp : Option HT80) (ptag : Option PTag) (entry : Bool) : (State.complete s num status cause det stamp ptag entry).key = s.key := by
  unfold State.complete
  with_reducible repeat' first | rfl | refine ite_key ?_ ?_ | refine (State.modEng_key ..).trans ?_ | refine (State.reply_key ..).trans ?_ | refine (State.flushEnds_key ..).trans ?_ | split | dsimp only
theorem State.send_key (p : PortNo) (cls : Nat) (m : Msg) : (State.send s p cls m).key = s.key := by
  unfold State.send
  with_reducible repeat' first | rfl | refine ite_key ?_ ?_ | refine (State.modPort_key ..).trans ?_
theorem State.sendOn_key (ps : List PortNo) (cls : Nat) (m : Msg) : (State.sendOn s ps cls m).key = s.key := by
  unfold State.sendOn
  with_reducible repeat' first | rfl | refine (State.send_key ..).trans ?_ | refine (foldl_key _ _ _ ?_).trans ?_ | (intro _ _)
theorem State.sendExcept_key (p : Option PortNo) (cls : Nat) (m : Msg) : (State.sendExcept s p cls m).key = s.key := by
  unfold State.sendExcept
  with_reducible repeat' first | rfl | refine (State.sendOn_key ..).trans ?_
theorem State.odoCount_key (f : Odo → Odo) : (State.odoCount s f).key = s.key := by
  unfold State.odoCount
  with_reducible repeat' first | rfl | refine ite_key ?_ ?_ | refine (State.modLg_key ..).trans ?_
theorem State.linkUnits_key (p : PortNo) (n : Nat) : (State.linkUnits s p n).key = s.key := by
  unfold State.linkUnits
  with_reducible repeat' first | rfl | refine ite_key ?_ ?_ | refine (State.modPort_key ..).trans ?_
theorem State.rpOk_key (w : Word) : (State.rpOk s w).key = s.key := by
  unfold State.rpOk
  with_reducible repeat' first | rfl | refine (State.modRp_key ..).trans ?_
theorem State.rpErr_key  : (State.rpErr s).key = s.key := by
  unfold State.rpErr
  with_reducible repeat' first | rfl | refine (State.modRp_key ..).trans ?_

-- Rebase
theorem State.rebase_key (d : Tick) (h : HT80) : (State.rebase s d h).key = s.key := by
  simp only [State.key, State.rebase, Pins.core, Collector.core, Power.core, List.length_map]
theorem State.loadSun_key (t : HT80) : (State.loadSun s t).key = s.key := by
  unfold State.loadSun
  with_reducible repeat' first | rfl | refine (State.modSun_key ..).trans ?_ | refine (State.rebase_key ..).trans ?_ | dsimp only

-- Orangery
theorem State.modIn_key (n : Nat) (f : RefIn → RefIn) : (State.modIn s n f).key = s.key := by
  unfold State.modIn
  with_reducible repeat' first | rfl | refine (State.modOrg_key ..).trans ?_
theorem State.setRate_key (r : Int) : (State.setRate s r).key = s.key := by
  unfold State.setRate
  with_reducible repeat' first | rfl | refine ite_key ?_ ?_ | refine (State.modOrg_key ..).trans ?_ | dsimp only
theorem State.rampRate_key  : (State.rampRate s).key = s.key := by
  unfold State.rampRate
  with_reducible repeat' first | rfl | refine ite_key ?_ ?_ | refine (State.setRate_key ..).trans ?_
theorem State.stopAccel_key  : (State.stopAccel s).key = s.key := by
  unfold State.stopAccel
  with_reducible repeat' first | rfl | refine ite_key ?_ ?_ | refine (State.modOrg_key ..).trans ?_
theorem State.enterHoldover_key  : (State.enterHoldover s).key = s.key := by
  unfold State.enterHoldover
  with_reducible repeat' first | rfl | refine ite_key ?_ ?_ | refine (State.modSun_key ..).trans ?_ | refine (State.setRate_key ..).trans ?_ | refine (State.modOrg_key ..).trans ?_ | split | dsimp only
theorem State.enterLocked_key  : (State.enterLocked s).key = s.key := by
  unfold State.enterLocked
  with_reducible repeat' first | rfl | refine ite_key ?_ ?_ | refine (State.modSun_key ..).trans ?_ | refine (State.modOrg_key ..).trans ?_
theorem State.startAccel_key  : (State.startAccel s).key = s.key := by
  unfold State.startAccel
  with_reducible repeat' first | rfl | refine (State.modOrg_key ..).trans ?_
theorem State.phaseSample_key (err : Int) : (State.phaseSample s err).key = s.key := by
  unfold State.phaseSample
  with_reducible repeat' first | rfl | refine ite_key ?_ ?_ | refine (State.stopAccel_key ..).trans ?_ | refine (State.modOrg_key ..).trans ?_ | refine (State.setRate_key ..).trans ?_ | refine (State.drew_key ..).trans ?_ | refine (State.enterLocked_key ..).trans ?_ | split | dsimp only
theorem State.sendClaim_key  : (State.sendClaim s).key = s.key := by
  unfold State.sendClaim
  with_reducible repeat' first | rfl | refine ite_key ?_ ?_ | refine (State.modElect_key ..).trans ?_ | refine (State.sendExcept_key ..).trans ?_ | split | dsimp only
theorem State.requalify_key  : (State.requalify s).key = s.key := by
  unfold State.requalify
  with_reducible repeat' first | rfl | refine ite_key ?_ ?_ | refine (State.modOrg_key ..).trans ?_ | refine (State.sendClaim_key ..).trans ?_ | dsimp only
theorem State.runSelection_key  : (State.runSelection s).key = s.key := by
  unfold State.runSelection
  with_reducible repeat' first | rfl | refine ite_key ?_ ?_ | refine (State.modOrg_key ..).trans ?_ | split
theorem State.loseSelected_key  : (State.loseSelected s).key = s.key := by
  unfold State.loseSelected
  with_reducible repeat' first | rfl | refine (State.enterHoldover_key ..).trans ?_ | refine (State.modOrg_key ..).trans ?_
theorem State.unqualify_key (n : Nat) : (State.unqualify s n).key = s.key := by
  unfold State.unqualify
  with_reducible repeat' first | rfl | refine ite_key ?_ ?_ | refine (State.modIn_key ..).trans ?_ | refine (State.modOrg_key ..).trans ?_ | refine (State.loseSelected_key ..).trans ?_ | refine (State.runSelection_key ..).trans ?_ | dsimp only
theorem State.disqualify_key (n : Nat) (criterion : Byte) : (State.disqualify s n criterion).key = s.key := by
  unfold State.disqualify
  with_reducible repeat' first | rfl | refine ite_key ?_ ?_ | refine (State.raiseNow_key ..).trans ?_ | refine (State.unqualify_key ..).trans ?_
theorem State.refGood_key (n : Nat) : (State.refGood s n).key = s.key := by
  unfold State.refGood
  with_reducible repeat' first | rfl | refine ite_key ?_ ?_ | refine (State.modIn_key ..).trans ?_
theorem State.useEdge_key (n : Nat) (stamp : HT80) : (State.useEdge s n stamp).key = s.key := by
  unfold State.useEdge
  with_reducible repeat' first | rfl | refine ite_key ?_ ?_ | refine (State.modOrg_key ..).trans ?_ | refine (State.phaseSample_key ..).trans ?_ | split | dsimp only
theorem State.refEdge_key (n : Nat) (stamp : HT80) (width : BitVec 32) : (State.refEdge s n stamp width).key = s.key := by
  unfold State.refEdge
  with_reducible repeat' first | rfl | refine ite_key ?_ ?_ | refine (State.modIn_key ..).trans ?_ | refine (State.disqualify_key ..).trans ?_ | refine (State.drew_key ..).trans ?_ | refine (State.refGood_key ..).trans ?_ | refine (State.useEdge_key ..).trans ?_ | split | dsimp only
theorem State.raiseConflict_key (k : Nat) : (State.raiseConflict s k).key = s.key := by
  unfold State.raiseConflict
  with_reducible repeat' first | rfl | refine (State.raiseNow_key ..).trans ?_ | refine (State.modOrg_key ..).trans ?_ | split | dsimp only
theorem State.comparePair_key (k : Nat) : (State.comparePair s k).key = s.key := by
  unfold State.comparePair
  with_reducible repeat' first | rfl | refine ite_key ?_ ?_ | refine (State.modOrg_key ..).trans ?_ | refine (State.raiseConflict_key ..).trans ?_ | split | dsimp only
theorem State.applyDecl_key  : (State.applyDecl s).key = s.key := by
  unfold State.applyDecl
  with_reducible repeat' first | rfl | refine ite_key ?_ ?_ | refine (State.modOrg_key ..).trans ?_ | refine (State.unqualify_key ..).trans ?_ | refine (foldl_key _ _ _ ?_).trans ?_ | (intro _ _) | dsimp only
theorem State.commitSwitch_key (n : Nat) (m : Measure) : (State.commitSwitch s n m).key = s.key := by
  unfold State.commitSwitch
  with_reducible repeat' first | rfl | refine ite_key ?_ ?_ | refine elim_key ?_ ?_ | refine (State.modOrg_key ..).trans ?_ | refine (State.enterLocked_key ..).trans ?_ | refine (State.startAccel_key ..).trans ?_ | (intro _) | dsimp only
theorem State.writeAccel_key  : (State.writeAccel s).key = s.key := by
  unfold State.writeAccel
  with_reducible repeat' first | rfl | refine ite_key ?_ ?_ | refine (State.rpErr_key ..).trans ?_ | refine (State.rpOk_key ..).trans ?_ | refine (State.startAccel_key ..).trans ?_

-- Tree
theorem State.sendOffers_key  : (State.sendOffers s).key = s.key := by
  unfold State.sendOffers
  with_reducible repeat' first | rfl | refine ite_key ?_ ?_ | refine (State.modElect_key ..).trans ?_ | refine (State.sendExcept_key ..).trans ?_ | dsimp only
theorem State.withdraw_key  : (State.withdraw s).key = s.key := by
  unfold State.withdraw
  with_reducible repeat' first | rfl | refine (State.modElect_key ..).trans ?_ | refine (State.sendExcept_key ..).trans ?_ | dsimp only
theorem State.takeUtc_key (t : TreeMsg) : (State.takeUtc s t).key = s.key := by
  unfold State.takeUtc
  with_reducible repeat' first | rfl | refine ite_key ?_ ?_ | refine (State.modOrg_key ..).trans ?_ | refine (State.modSun_key ..).trans ?_
theorem State.setParent_key (p : PortNo) : (State.setParent s p).key = s.key := by
  unfold State.setParent
  with_reducible repeat' first | rfl | refine ite_key ?_ ?_ | refine (State.modElect_key ..).trans ?_ | refine (State.modOrg_key ..).trans ?_ | refine (State.sendOffers_key ..).trans ?_ | split | dsimp only
theorem State.seekParent_key  : (State.seekParent s).key = s.key := by
  unfold State.seekParent
  with_reducible repeat' first | rfl | refine ite_key ?_ ?_ | refine (State.setParent_key ..).trans ?_ | split
theorem State.loseParent_key  : (State.loseParent s).key = s.key := by
  unfold State.loseParent
  with_reducible repeat' first | rfl | refine (State.enterHoldover_key ..).trans ?_ | refine (State.modOrg_key ..).trans ?_ | refine (State.modElect_key ..).trans ?_ | refine (State.setParent_key ..).trans ?_ | refine (State.modPorts_key _ _ ?_).trans ?_ | refine (State.withdraw_key ..).trans ?_ | refine (State.sendClaim_key ..).trans ?_ | exact length_map | exact length_modify | split | dsimp only
theorem State.keepParent_key  : (State.keepParent s).key = s.key := by
  unfold State.keepParent
  with_reducible repeat' first | rfl | refine ite_key ?_ ?_ | refine elim_key ?_ ?_ | refine (State.loseParent_key ..).trans ?_ | (intro _) | split
theorem State.announceAll_key  : (State.announceAll s).key = s.key := by
  unfold State.announceAll
  with_reducible repeat' first | rfl | refine (State.sendExcept_key ..).trans ?_
theorem State.sendPair_key (p : PortNo) (d : DelayMsg) (a : AnnounceMsg) : (State.sendPair s p d a).key = s.key := by
  unfold State.sendPair
  with_reducible repeat' first | rfl | refine ite_key ?_ ?_ | refine (State.modPort_key ..).trans ?_
theorem State.mirror_key (m : MirrorMsg) : (State.mirror s m).key = s.key := by
  unfold State.mirror
  with_reducible repeat' first | rfl | refine ite_key ?_ ?_ | refine (State.send_key ..).trans ?_ | split
theorem State.modNode_key (h : BitVec 64) (f : NodeRow → NodeRow) : (State.modNode s h f).key = s.key := by
  unfold State.modNode
  with_reducible repeat' first | rfl | refine (State.modFab_key ..).trans ?_ | refine (State.mirror_key ..).trans ?_ | split | dsimp only
theorem State.forwardAssign_key (k : Nat) (m : AssignMsg) : (State.forwardAssign s k m).key = s.key := by
  unfold State.forwardAssign
  with_reducible repeat' first | rfl | refine ite_key ?_ ?_ | refine (State.modFab_key ..).trans ?_ | refine (State.send_key ..).trans ?_ | split
theorem State.sendAssign_key (r : NodeRow) : (State.sendAssign s r).key = s.key := by
  unfold State.sendAssign
  with_reducible repeat' first | rfl | refine (State.forwardAssign_key ..).trans ?_
theorem State.reassignBelow_key (r : NodeRow) : (State.reassignBelow s r).key = s.key := by
  unfold State.reassignBelow
  with_reducible repeat' first | rfl | refine elim_key ?_ ?_ | refine (State.modNode_key ..).trans ?_ | refine (State.sendAssign_key ..).trans ?_ | refine (foldl_key _ _ _ ?_).trans ?_ | (intro _ _) | (intro _) | dsimp only
theorem State.takeReport_key (d : DelayMsg) (a : AnnounceMsg) : (State.takeReport s d a).key = s.key := by
  unfold State.takeReport
  with_reducible repeat' first | rfl | refine ite_key ?_ ?_ | refine elim_key ?_ ?_ | refine (State.modFab_key ..).trans ?_ | refine (State.mirror_key ..).trans ?_ | refine (State.sendAssign_key ..).trans ?_ | refine (State.reassignBelow_key ..).trans ?_ | refine (State.raiseNow_key ..).trans ?_ | refine (State.modNode_key ..).trans ?_ | (intro _) | split | dsimp only
theorem State.checkMargins_key (s' : State) : (State.checkMargins s s').key = s'.key := by
  unfold State.checkMargins
  with_reducible repeat' first | rfl | refine ite_key ?_ ?_ | refine (State.raiseNow_key ..).trans ?_ | refine (foldl_key _ _ _ ?_).trans ?_ | (intro _ _) | split | dsimp only
theorem State.takeDelay_key (m : DelayMsg) : (State.takeDelay s m).key = s.key := by
  unfold State.takeDelay
  with_reducible repeat' first | rfl | refine ite_key ?_ ?_ | refine (State.modNode_key ..).trans ?_ | refine (State.modFab_key ..).trans ?_ | refine (foldl_key _ _ _ ?_).trans ?_ | (intro _ _) | split | dsimp only
theorem State.sendDelay_key (m : DelayMsg) : (State.sendDelay s m).key = s.key := by
  unfold State.sendDelay
  with_reducible repeat' first | rfl | refine ite_key ?_ ?_ | refine (State.checkMargins_key ..).trans ?_ | refine (State.takeDelay_key ..).trans ?_ | refine (State.send_key ..).trans ?_ | split
theorem State.reportDelay_key (p : PortNo) : (State.reportDelay s p).key = s.key := by
  unfold State.reportDelay
  with_reducible repeat' first | rfl | refine ite_key ?_ ?_ | refine (State.sendDelay_key ..).trans ?_ | refine (State.modPort_key ..).trans ?_ | dsimp only
theorem State.reportLtr_key  : (State.reportLtr s).key = s.key := by
  unfold State.reportLtr
  with_reducible repeat' first | rfl | refine ite_key ?_ ?_ | refine (State.sendDelay_key ..).trans ?_
theorem State.reportAll_key  : (State.reportAll s).key = s.key := by
  unfold State.reportAll
  with_reducible repeat' first | rfl | refine (State.reportDelay_key ..).trans ?_ | refine (State.reportLtr_key ..).trans ?_ | refine (foldl_key _ _ _ ?_).trans ?_ | (intro _ _)
theorem State.reportChild_key (q : PortNo) : (State.reportChild s q).key = s.key := by
  unfold State.reportChild
  with_reducible repeat' first | rfl | refine ite_key ?_ ?_ | refine (State.takeReport_key ..).trans ?_ | refine (State.sendPair_key ..).trans ?_ | split | dsimp only
theorem State.reportChildren_key  : (State.reportChildren s).key = s.key := by
  unfold State.reportChildren
  with_reducible repeat' first | rfl | refine (State.reportChild_key ..).trans ?_ | refine (foldl_key _ _ _ ?_).trans ?_ | (intro _ _)
theorem State.reportAnew_key  : (State.reportAnew s).key = s.key := by
  unfold State.reportAnew
  with_reducible repeat' first | rfl | refine ite_key ?_ ?_ | refine (State.modElect_key ..).trans ?_ | refine (State.reportChildren_key ..).trans ?_
theorem State.mirrorPart_key (t : PTag) : (State.mirrorPart s t).key = s.key := by
  unfold State.mirrorPart
  with_reducible repeat' first | rfl | refine (State.mirror_key ..).trans ?_ | refine (foldl_key _ _ _ ?_).trans ?_ | (intro _ _) | split
theorem State.mirrorAll_key  : (State.mirrorAll s).key = s.key := by
  unfold State.mirrorAll
  with_reducible repeat' first | rfl | refine (State.mirror_key ..).trans ?_ | refine (State.modFab_key ..).trans ?_ | refine (foldl_key _ _ _ ?_).trans ?_ | (intro _ _) | dsimp only
theorem State.chooseStandby_key  : (State.chooseStandby s).key = s.key := by
  unfold State.chooseStandby
  with_reducible repeat' first | rfl | refine (State.modElect_key ..).trans ?_ | refine (State.send_key ..).trans ?_ | refine (State.mirrorAll_key ..).trans ?_ | refine (State.raiseNow_key ..).trans ?_ | refine (State.modFab_key ..).trans ?_ | split | dsimp only
theorem State.stateLost_key  : (State.stateLost s).key = s.key := by
  unfold State.stateLost
  with_reducible repeat' first | rfl | refine ite_key ?_ ?_ | refine (State.raiseNow_key ..).trans ?_
theorem State.setRoot_key (r : NodeId) : (State.setRoot s r).key = s.key := by
  unfold State.setRoot
  with_reducible repeat' first | rfl | refine ite_key ?_ ?_ | refine (State.stateLost_key ..).trans ?_ | refine (State.modElect_key ..).trans ?_ | refine (State.modSun_key ..).trans ?_ | refine (State.announceAll_key ..).trans ?_ | dsimp only
theorem State.takeRoot_key  : (State.takeRoot s).key = s.key := by
  unfold State.takeRoot
  with_reducible repeat' first | rfl | refine ite_key ?_ ?_ | refine (State.modFab_key ..).trans ?_ | refine (State.modElect_key ..).trans ?_ | refine (State.modSun_key ..).trans ?_ | refine (State.setRoot_key ..).trans ?_ | refine (State.loseSelected_key ..).trans ?_ | refine (State.runSelection_key ..).trans ?_ | refine (State.sendClaim_key ..).trans ?_ | refine (State.sendOffers_key ..).trans ?_ | refine (State.chooseStandby_key ..).trans ?_ | refine (State.reportAnew_key ..).trans ?_ | split | dsimp only
theorem State.resign_key  : (State.resign s).key = s.key := by
  unfold State.resign
  with_reducible repeat' first | rfl | refine ite_key ?_ ?_ | refine (State.modSun_key ..).trans ?_ | refine (State.modElect_key ..).trans ?_ | refine (State.modOrg_key ..).trans ?_ | dsimp only
theorem State.yieldRoot_key  : (State.yieldRoot s).key = s.key := by
  unfold State.yieldRoot
  with_reducible repeat' first | rfl | refine (State.resign_key ..).trans ?_ | refine (State.sendExcept_key ..).trans ?_
theorem State.handOver_key  : (State.handOver s).key = s.key := by
  unfold State.handOver
  with_reducible repeat' first | rfl | refine ite_key ?_ ?_ | refine elim_key ?_ ?_ | refine (State.yieldRoot_key ..).trans ?_ | (intro _)
theorem State.takeOver_key  : (State.takeOver s).key = s.key := by
  unfold State.takeOver
  with_reducible repeat' first | rfl | refine ite_key ?_ ?_ | refine (State.takeRoot_key ..).trans ?_ | refine (State.modSun_key ..).trans ?_ | refine (State.modElect_key ..).trans ?_ | refine (State.loseParent_key ..).trans ?_ | dsimp only
theorem State.reelect_key  : (State.reelect s).key = s.key := by
  unfold State.reelect
  with_reducible repeat' first | rfl | refine ite_key ?_ ?_ | refine (State.yieldRoot_key ..).trans ?_ | split
theorem State.takeHandOver_key (p : PortNo) (m : ElectMsg) : (State.takeHandOver s p m).key = s.key := by
  unfold State.takeHandOver
  with_reducible repeat' first | rfl | refine ite_key ?_ ?_ | refine elim_key ?_ ?_ | refine (State.modElect_key ..).trans ?_ | refine (State.sendExcept_key ..).trans ?_ | refine (State.takeRoot_key ..).trans ?_ | refine (State.sendClaim_key ..).trans ?_ | (intro _) | split | dsimp only
theorem State.electRx_key (p : PortNo) (m : ElectMsg) : (State.electRx s p m).key = s.key := by
  unfold State.electRx
  with_reducible repeat' first | rfl | refine ite_key ?_ ?_ | refine elim_key ?_ ?_ | refine (State.modPort_key ..).trans ?_ | refine (State.chooseStandby_key ..).trans ?_ | refine (State.modSun_key ..).trans ?_ | refine (State.modElect_key ..).trans ?_ | refine (State.takeHandOver_key ..).trans ?_ | refine (State.sendExcept_key ..).trans ?_ | refine (State.handOver_key ..).trans ?_ | (intro _) | dsimp only
theorem State.treeRx_key (p : PortNo) (m : TreeMsg) : (State.treeRx s p m).key = s.key := by
  unfold State.treeRx
  with_reducible repeat' first | rfl | refine ite_key ?_ ?_ | refine (State.modPort_key ..).trans ?_ | refine (State.modSun_key ..).trans ?_ | refine (State.modElect_key ..).trans ?_ | refine (State.seekParent_key ..).trans ?_ | refine (State.setRoot_key ..).trans ?_ | refine (State.drew_key ..).trans ?_ | refine (State.resign_key ..).trans ?_ | refine (State.loseParent_key ..).trans ?_ | refine (State.send_key ..).trans ?_ | refine (State.takeUtc_key ..).trans ?_ | refine (State.sendOffers_key ..).trans ?_ | refine (State.reportAnew_key ..).trans ?_ | refine (State.setParent_key ..).trans ?_ | dsimp only
theorem State.announceRx_key (p : PortNo) (m : AnnounceMsg) : (State.announceRx s p m).key = s.key := by
  unfold State.announceRx
  with_reducible repeat' first | rfl | refine ite_key ?_ ?_ | refine (State.modPort_key ..).trans ?_ | refine (State.setRoot_key ..).trans ?_ | refine (State.takeReport_key ..).trans ?_ | refine (State.sendPair_key ..).trans ?_ | split | dsimp only
theorem State.assignRx_key (m : AssignMsg) : (State.assignRx s m).key = s.key := by
  unfold State.assignRx
  with_reducible repeat' first | rfl | refine ite_key ?_ ?_ | refine (State.modElect_key ..).trans ?_ | refine (State.setRoot_key ..).trans ?_ | refine (State.announceAll_key ..).trans ?_ | refine (State.sendOffers_key ..).trans ?_ | refine (State.reportAll_key ..).trans ?_ | refine (State.reportChildren_key ..).trans ?_ | refine (State.forwardAssign_key ..).trans ?_ | dsimp only

-- Links
theorem State.enterSt_key (p : PortNo) (st : LinkSt) : (State.enterSt s p st).key = s.key := by
  unfold State.enterSt
  with_reducible repeat' first | rfl | refine (State.modPort_key ..).trans ?_
theorem State.portGone_key (p : PortNo) (atOnce lost : Bool) : (State.portGone s p atOnce lost).key = s.key := by
  unfold State.portGone
  with_reducible repeat' first | rfl | refine ite_key ?_ ?_ | refine (State.odoCount_key ..).trans ?_ | refine (State.modElect_key ..).trans ?_ | refine (State.chooseStandby_key ..).trans ?_ | refine (State.takeOver_key ..).trans ?_ | refine (State.loseParent_key ..).trans ?_ | refine (State.sendDelay_key ..).trans ?_ | dsimp only
theorem State.portLost_key (p : PortNo) (reason : Nat) (dest : LinkSt) (ndReason : Byte) (fault : BitVec 16) : (State.portLost s p reason dest ndReason fault).key = s.key := by
  unfold State.portLost
  with_reducible repeat' first | rfl | refine ite_key ?_ ?_ | refine (State.modPort_key ..).trans ?_ | refine (State.raiseNow_key ..).trans ?_ | refine (State.portGone_key ..).trans ?_ | dsimp only
theorem State.portExit_key (p : PortNo) : (State.portExit s p).key = s.key := by
  unfold State.portExit
  with_reducible repeat' first | rfl | refine ite_key ?_ ?_ | refine (State.modPort_key ..).trans ?_ | refine (State.portGone_key ..).trans ?_ | dsimp only
theorem State.holdFresh_key  : (State.holdFresh s).key = s.key := by
  unfold State.holdFresh
  exact State.modPorts_key _ _ fun _ => by simp
theorem State.startOne_key (p : PortNo) : (State.startOne s p).key = s.key := by
  unfold State.startOne
  with_reducible repeat' first | rfl | refine ite_key ?_ ?_ | refine (State.modPort_key ..).trans ?_ | refine (State.emit_key ..).trans ?_ | split | dsimp only
theorem State.startAll_key  : (State.startAll s).key = s.key := by
  unfold State.startAll
  with_reducible repeat' first | rfl | refine (State.startOne_key ..).trans ?_ | refine (State.holdFresh_key ..).trans ?_ | refine (foldl_key _ _ _ ?_).trans ?_ | (intro _ _)
theorem State.laneTick_key (p : PortNo) : (State.laneTick s p).key = s.key := by
  unfold State.laneTick
  with_reducible repeat' first | rfl | refine ite_key ?_ ?_ | refine (State.modPort_key ..).trans ?_ | refine (State.startOne_key ..).trans ?_ | refine (State.emit_key ..).trans ?_ | dsimp only
theorem State.lanesTick_key  : (State.lanesTick s).key = s.key := by
  unfold State.lanesTick
  with_reducible repeat' first | rfl | refine (State.laneTick_key ..).trans ?_ | refine (State.holdFresh_key ..).trans ?_ | refine (foldl_key _ _ _ ?_).trans ?_ | (intro _ _)
theorem State.showMirror_key (m : Msg) : (State.showMirror s m).key = s.key := by
  unfold State.showMirror
  with_reducible repeat' first | rfl | refine ite_key ?_ ?_ | refine (State.mirror_key ..).trans ?_ | refine (State.modFab_key ..).trans ?_ | split
theorem State.ackUpTo_key (p : PortNo) (seq : BitVec 5) : (State.ackUpTo s p seq).key = s.key := by
  unfold State.ackUpTo
  with_reducible repeat' first | rfl | refine ite_key ?_ ?_ | refine (State.modPort_key ..).trans ?_ | refine (State.showMirror_key ..).trans ?_ | refine (State.modElect_key ..).trans ?_ | refine (State.modPorts_key _ _ ?_).trans ?_ | refine (foldl_key _ _ _ ?_).trans ?_ | exact length_map | exact length_modify | (intro _ _) | dsimp only
theorem State.replayFrom_key (p : PortNo) (seq : BitVec 5) : (State.replayFrom s p seq).key = s.key := by
  unfold State.replayFrom
  with_reducible repeat' first | rfl | refine ite_key ?_ ?_ | refine (State.modPort_key ..).trans ?_ | refine (State.emit_key ..).trans ?_ | refine (foldl_key _ _ _ ?_).trans ?_ | (intro _ _) | dsimp only
theorem State.accept_key (p : PortNo) : (State.accept s p).key = s.key := by
  unfold State.accept
  with_reducible repeat' first | rfl | refine (State.modPort_key ..).trans ?_ | refine (State.emit_key ..).trans ?_ | dsimp only
theorem State.nak_key (p : PortNo) : (State.nak s p).key = s.key := by
  unfold State.nak
  with_reducible repeat' first | rfl | refine ite_key ?_ ?_ | refine elim_key ?_ ?_ | refine (State.modPort_key ..).trans ?_ | refine (State.emit_key ..).trans ?_ | (intro _) | dsimp only
theorem State.received_key (p : PortNo) (m : Msg) : (State.received s p m).key = s.key := by
  unfold State.received
  with_reducible repeat' first | rfl | refine (State.tracedMsg_key ..).trans ?_ | refine (State.drew_key ..).trans ?_ | refine (State.modPort_key ..).trans ?_ | refine (State.accept_key ..).trans ?_ | dsimp only
theorem State.unknownFlit_key (p : PortNo) (type : Byte) : (State.unknownFlit s p type).key = s.key := by
  unfold State.unknownFlit
  with_reducible repeat' first | rfl | refine (State.modPort_key ..).trans ?_ | refine (State.raiseNow_key ..).trans ?_
theorem State.stepBy_key (theta : Int) : (State.stepBy s theta).key = s.key := by
  unfold State.stepBy
  with_reducible repeat' first | rfl | refine ite_key ?_ ?_ | refine (State.loadSun_key ..).trans ?_ | refine (State.modSun_key ..).trans ?_ | refine (State.modElect_key ..).trans ?_ | refine (State.startAccel_key ..).trans ?_ | dsimp only
theorem State.raiseMerge_key (theta : Int) : (State.raiseMerge s theta).key = s.key := by
  unfold State.raiseMerge
  with_reducible repeat' first | rfl | refine (State.modElect_key ..).trans ?_ | refine (State.raiseNow_key ..).trans ?_ | refine (foldl_key _ _ _ ?_).trans ?_ | (intro _ _) | dsimp only
theorem State.takeSample_key (p : PortNo) (d theta : Int) : (State.takeSample s p d theta).key = s.key := by
  unfold State.takeSample
  with_reducible repeat' first | rfl | refine ite_key ?_ ?_ | refine (State.modPort_key ..).trans ?_ | refine (State.modElect_key ..).trans ?_ | refine (State.raiseMerge_key ..).trans ?_ | refine (State.stepBy_key ..).trans ?_ | refine (State.startAccel_key ..).trans ?_ | refine (State.phaseSample_key ..).trans ?_ | refine (State.raiseNow_key ..).trans ?_ | dsimp only
theorem State.enterUp_key (p : PortNo) : (State.enterUp s p).key = s.key := by
  unfold State.enterUp
  with_reducible repeat' first | rfl | refine ite_key ?_ ?_ | refine (State.modPort_key ..).trans ?_ | refine (State.modElect_key ..).trans ?_ | refine (State.send_key ..).trans ?_ | refine (State.reportDelay_key ..).trans ?_ | dsimp only
theorem State.tryUp_key (p : PortNo) : (State.tryUp s p).key = s.key := by
  unfold State.tryUp
  with_reducible repeat' first | rfl | refine ite_key ?_ ?_ | refine (State.enterUp_key ..).trans ?_ | dsimp only
theorem State.trackQual_key (p : PortNo) : (State.trackQual s p).key = s.key := by
  unfold State.trackQual
  with_reducible repeat' first | rfl | refine ite_key ?_ ?_ | refine (State.modPort_key ..).trans ?_ | dsimp only
theorem State.afterBeat_key (p : PortNo) (m : BeatMsg) (newTp : Bool) : (State.afterBeat s p m newTp).key = s.key := by
  unfold State.afterBeat
  with_reducible repeat' first | rfl | refine ite_key ?_ ?_ | refine elim_key ?_ ?_ | refine (State.ackUpTo_key ..).trans ?_ | refine (State.modSun_key ..).trans ?_ | refine (State.modPort_key ..).trans ?_ | refine (State.takeSample_key ..).trans ?_ | refine (State.trackQual_key ..).trans ?_ | refine (State.reportChild_key ..).trans ?_ | refine (State.reportDelay_key ..).trans ?_ | refine (State.tryUp_key ..).trans ?_ | refine (State.keepParent_key ..).trans ?_ | refine (State.seekParent_key ..).trans ?_ | (intro _) | split | dsimp only
theorem State.negotiate_key (p : PortNo) (m : TrainMsg) : (State.negotiate s p m).key = s.key := by
  unfold State.negotiate
  with_reducible repeat' first | rfl | refine ite_key ?_ ?_ | refine (State.modPort_key ..).trans ?_ | refine (State.enterSt_key ..).trans ?_ | refine (State.raiseNow_key ..).trans ?_ | split | dsimp only
theorem State.measurePath_key (p : PortNo) : (State.measurePath s p).key = s.key := by
  unfold State.measurePath
  with_reducible repeat' first | rfl | refine (State.drew_key ..).trans ?_ | refine (State.modPort_key ..).trans ?_ | dsimp only
theorem State.recalibrate_key (p : PortNo) : (State.recalibrate s p).key = s.key := by
  unfold State.recalibrate
  with_reducible repeat' first | rfl | refine ite_key ?_ ?_ | refine (State.measurePath_key ..).trans ?_
theorem State.linkLevel_key (p : PortNo) (low : Bool) : (State.linkLevel s p low).key = s.key := by
  unfold State.linkLevel
  with_reducible repeat' first | rfl | refine (State.modPins_key _ _ ?_).trans ?_ | (intro _; rfl)

-- Objects
theorem State.askWord_key (t : HT80) (code arg : BitVec 4) (ptag : PTag) (obj : Option Nat) (desc : Option Nat) : (State.askWord s t code arg ptag obj desc).key = s.key := by
  unfold State.askWord
  with_reducible repeat' first | rfl | refine (State.modTr_key ..).trans ?_
theorem State.wake_key (chan : BitVec 4) : (State.wake s chan).key = s.key := by
  unfold State.wake
  with_reducible repeat' first | rfl | refine (State.askWord_key ..).trans ?_
theorem State.dropTimerWake_key (o : Nat) : (State.dropTimerWake s o).key = s.key := by
  unfold State.dropTimerWake
  with_reducible repeat' first | rfl | refine (State.modTr_key ..).trans ?_
theorem State.setObj_key (k : Bool) (o : Nat) (x : Obj) : (State.setObj s k o x).key = s.key := by
  unfold State.setObj
  with_reducible repeat' first | rfl | refine (State.modCtx_key ..).trans ?_
theorem State.askTimerWake_key (o : Nat) (x : Obj) : (State.askTimerWake s o x).key = s.key := by
  unfold State.askTimerWake
  with_reducible repeat' first | rfl | refine ite_key ?_ ?_ | refine (State.askWord_key ..).trans ?_ | dsimp only
theorem State.expireObj_key (k : Bool) (o : Nat) : (State.expireObj s k o).key = s.key := by
  unfold State.expireObj
  with_reducible repeat' first | rfl | refine ite_key ?_ ?_ | refine (State.setObj_key ..).trans ?_ | refine (State.raiseNow_key ..).trans ?_ | split | dsimp only

-- Digest
theorem State.record_key (r : BitVec 256) : (State.record s r).key = s.key := by
  unfold State.record
  with_reducible repeat' first | rfl | refine ite_key ?_ ?_ | refine (State.putGroup_key ..).trans ?_
theorem State.takeDig_key (k : Bool) (upTo : HT80) : (State.takeDig s k upTo).key = s.key := by
  unfold State.takeDig
  with_reducible repeat' first | rfl | refine ite_key ?_ ?_ | refine (State.modCtx_key ..).trans ?_ | refine (State.record_key ..).trans ?_ | refine (foldl_key _ _ _ ?_).trans ?_ | (intro _ _) | split | dsimp only
theorem State.takeTick_key  : (State.takeTick s).key = s.key := by
  unfold State.takeTick
  with_reducible repeat' first | rfl | refine elim_key ?_ ?_ | refine (State.takeDig_key ..).trans ?_ | (intro _)
theorem State.modCapIn_key (n : Nat) (f : Capture → Capture) : (State.modCapIn s n f).key = s.key := by
  unfold State.modCapIn
  with_reducible repeat' first | rfl | refine (State.modCap_key ..).trans ?_
theorem State.inject_key (k : Bool) (input : BitVec 3) (edge : Bool) (ofs : HT80) (clamped : Bool) : (State.inject s k input edge ofs clamped).key = s.key := by
  unfold State.inject
  with_reducible repeat' first | rfl | refine ite_key ?_ ?_ | refine (State.modCapIn_key ..).trans ?_ | refine (State.modCtx_key ..).trans ?_ | refine (State.record_key ..).trans ?_ | refine (State.modSync_key ..).trans ?_ | dsimp only
theorem State.checkOrder_key (k : Bool) (step : BitVec 32) (ofs : Option HT80) : (State.checkOrder s k step ofs).key = s.key := by
  unfold State.checkOrder
  with_reducible repeat' first | rfl | refine ite_key ?_ ?_ | refine (State.raiseNow_key ..).trans ?_ | split | dsimp only
theorem State.diverge_key (k : Bool) (step : BitVec 64) : (State.diverge s k step).key = s.key := by
  unfold State.diverge
  with_reducible repeat' first | rfl | refine (State.modCtx_key ..).trans ?_ | refine (State.modSync_key ..).trans ?_ | refine (State.raiseNow_key ..).trans ?_ | dsimp only
theorem State.injectRest_key (k : Bool) (n_ : Nat) : (State.injectRest s k n_).key = s.key := by
  induction n_ generalizing s with
  | zero => rfl
  | succ k ih =>
    unfold State.injectRest
    with_reducible repeat' first | refine (ih ..).trans ?_ | rfl | refine ite_key ?_ ?_ | refine (State.checkOrder_key ..).trans ?_ | refine (State.modSync_key ..).trans ?_ | refine (State.inject_key ..).trans ?_ | split
theorem State.replayCheck_key (k : Bool) (step : BitVec 64) (d0 : BitVec 64) : (State.replayCheck s k step d0).key = s.key := by
  unfold State.replayCheck
  with_reducible repeat' first | rfl | refine ite_key ?_ ?_ | refine (State.modSync_key ..).trans ?_ | refine (State.diverge_key ..).trans ?_ | refine (State.raiseNow_key ..).trans ?_ | split | dsimp only
theorem State.replayEnd_key (step : BitVec 64) : (State.replayEnd s step).key = s.key := by
  unfold State.replayEnd
  with_reducible repeat' first | rfl | refine ite_key ?_ ?_ | refine (State.modSync_key ..).trans ?_ | refine (State.complete_key ..).trans ?_ | split

-- Lanes
theorem State.modUnit_key (level : Level) (a : CellAddr) (f : TUnit → TUnit) : (State.modUnit s level a f).key = s.key := by
  unfold State.modUnit
  with_reducible repeat' first | rfl | refine ite_key ?_ ?_ | refine (State.modTr_key ..).trans ?_ | dsimp only
theorem State.enqueue_key (level : Level) (a : CellAddr) (ports : List (Option Byte)) (child : Byte) (fwd : Bool) (k : Packet) : (State.enqueue s level a ports child fwd k).key = s.key := by
  unfold State.enqueue
  with_reducible repeat' first | rfl | refine (State.modUnit_key ..).trans ?_ | refine (State.modTr_key ..).trans ?_ | refine (foldl_key _ _ _ ?_).trans ?_ | (intro _ _) | dsimp only
theorem State.sendUp_key (level : Level) (a : CellAddr) (k : Packet) : (State.sendUp s level a k).key = s.key := by
  unfold State.sendUp
  with_reducible repeat' first | rfl | refine (State.enqueue_key ..).trans ?_
theorem State.sendDown_key (regions : List Nat) (k : Packet) : (State.sendDown s regions k).key = s.key := by
  unfold State.sendDown
  with_reducible repeat' first | rfl | refine (State.enqueue_key ..).trans ?_
theorem State.credited_key (level : Level) (a : CellAddr) (src : Option Byte) (classU : Bool) (cred : Nat) : (State.credited s level a src classU cred).key = s.key := by
  unfold State.credited
  with_reducible repeat' first | rfl | refine (State.modUnit_key ..).trans ?_ | dsimp only
theorem State.bufferFreed_key (level : Level) (a : CellAddr) (src : Option Byte) (classU : Bool) (words : Nat) : (State.bufferFreed s level a src classU words).key = s.key := by
  unfold State.bufferFreed
  with_reducible repeat' first | rfl | refine (State.modUnit_key ..).trans ?_ | dsimp only
theorem State.laneCycle_key (c : BitVec 64) (level : Level) (a : CellAddr) (port : Option Byte) (classU : Bool) : (State.laneCycle s c level a port classU).key = s.key := by
  unfold State.laneCycle
  with_reducible repeat' first | rfl | refine (State.modUnit_key ..).trans ?_ | refine (State.emit_key ..).trans ?_ | split | dsimp only
theorem State.upCycle_key (c : BitVec 64) (level : Level) (a : CellAddr) : (State.upCycle s c level a).key = s.key := by
  unfold State.upCycle
  with_reducible repeat' first | rfl | refine ite_key ?_ ?_ | refine (State.modUnit_key ..).trans ?_ | refine (State.emit_key ..).trans ?_ | split | dsimp only
theorem State.lanesCycle_key (c : BitVec 64) : (State.lanesCycle s c).key = s.key := by
  unfold State.lanesCycle
  with_reducible repeat' first | rfl | refine (State.upCycle_key ..).trans ?_ | refine (State.laneCycle_key ..).trans ?_ | refine (foldl_key _ _ _ ?_).trans ?_ | (intro _ _) | dsimp only
theorem State.rootCycle_key (c : BitVec 64) : (State.rootCycle s c).key = s.key := by
  unfold State.rootCycle
  with_reducible repeat' first | rfl | refine (State.emit_key ..).trans ?_ | refine (State.modTr_key ..).trans ?_ | refine (foldl_key _ _ _ ?_).trans ?_ | (intro _ _) | dsimp only
theorem State.holdCycle_key (c : BitVec 64) : (State.holdCycle s c).key = s.key := by
  unfold State.holdCycle
  with_reducible repeat' first | rfl | refine ite_key ?_ ?_ | refine (State.modTr_key ..).trans ?_ | dsimp only
theorem State.requestHold_key (level : Level) (a : CellAddr) (b : Bool) : (State.requestHold s level a b).key = s.key := by
  unfold State.requestHold
  with_reducible repeat' first | rfl | refine ite_key ?_ ?_ | refine (State.modUnit_key ..).trans ?_ | refine (State.emit_key ..).trans ?_ | refine (foldl_key _ _ _ ?_).trans ?_ | (intro _ _) | dsimp only

-- Barriers
theorem State.writeArea_key (a : Arm) (r : Rel) : (State.writeArea s a r).key = s.key := by
  unfold State.writeArea
  with_reducible repeat' first | rfl | refine ite_key ?_ ?_ | refine (State.record_key ..).trans ?_ | refine (State.hmIssue_key ..).trans ?_ | refine (foldl_key _ _ _ ?_).trans ?_ | (intro _ _) | dsimp only
theorem State.sendResults_key (a : Arm) (rec : Record) : (State.sendResults s a rec).key = s.key := by
  unfold State.sendResults
  with_reducible repeat' first | rfl | refine ite_key ?_ ?_ | refine (State.sendDown_key ..).trans ?_ | refine (foldl_key _ _ _ ?_).trans ?_ | (intro _ _) | dsimp only
theorem State.acceptDigest_key (k : Bool) (rec : Record) : (State.acceptDigest s k rec).key = s.key := by
  unfold State.acceptDigest
  with_reducible repeat' first | rfl | refine ite_key ?_ ?_ | refine (State.modCtx_key ..).trans ?_ | refine (State.modSync_key ..).trans ?_ | refine (State.raiseNow_key ..).trans ?_ | split | dsimp only
theorem State.acceptRelease_key (k : Bool) (bid : Byte) (t : HT80) (red : Bool) (rec : Record) : (State.acceptRelease s k bid t red rec).key = s.key := by
  unfold State.acceptRelease
  with_reducible repeat' first | rfl | refine ite_key ?_ ?_ | refine (State.expireObj_key ..).trans ?_ | refine (State.modCtx_key ..).trans ?_ | refine (State.setObj_key ..).trans ?_ | refine (State.acceptDigest_key ..).trans ?_ | refine (State.modBand_key ..).trans ?_ | refine (State.askWord_key ..).trans ?_ | refine (State.sendResults_key ..).trans ?_ | refine (State.writeArea_key ..).trans ?_ | split | dsimp only
theorem State.passRelease_key (t : PTag) (m : BarMsg) : (State.passRelease s t m).key = s.key := by
  unfold State.passRelease
  with_reducible repeat' first | rfl | refine (State.sendOn_key ..).trans ?_ | refine (State.acceptRelease_key ..).trans ?_ | refine (State.record_key ..).trans ?_ | refine (State.modPart_key ..).trans ?_ | split | dsimp only
theorem State.completeRound_key (t : PTag) (bid : Byte) (tc : HT80) (n_ : Nat) : (State.completeRound s t bid tc n_).key = s.key := by
  induction n_ generalizing s tc with
  | zero => rfl
  | succ k ih =>
    unfold State.completeRound
    with_reducible repeat' first | refine (ih ..).trans ?_ | rfl | refine ite_key ?_ ?_ | refine (State.modPart_key ..).trans ?_ | refine (State.passRelease_key ..).trans ?_ | refine (State.send_key ..).trans ?_ | split
theorem State.arriveAt_key (t : PTag) (a : Arrival) (tc : HT80) : (State.arriveAt s t a tc).key = s.key := by
  unfold State.arriveAt
  with_reducible repeat' first | rfl | refine ite_key ?_ ?_ | refine (State.modPart_key ..).trans ?_ | refine (State.raiseNow_key ..).trans ?_ | refine (State.completeRound_key ..).trans ?_ | split | dsimp only
theorem State.stepArrive_key (k : Bool) : (State.stepArrive s k).key = s.key := by
  unfold State.stepArrive
  with_reducible repeat' first | rfl | refine ite_key ?_ ?_ | refine (State.takeDig_key ..).trans ?_ | refine (State.injectRest_key ..).trans ?_ | refine (State.modCtx_key ..).trans ?_ | refine (State.replayCheck_key ..).trans ?_ | refine (State.replayEnd_key ..).trans ?_ | refine (State.modBand_key ..).trans ?_ | dsimp only
theorem State.localArrive_key (k : Bool) (bid : Byte) : (State.localArrive s k bid).key = s.key := by
  unfold State.localArrive
  with_reducible repeat' first | rfl | refine ite_key ?_ ?_ | refine (State.setObj_key ..).trans ?_ | refine (State.stepArrive_key ..).trans ?_ | refine (State.modCtx_key ..).trans ?_ | refine (State.arriveAt_key ..).trans ?_ | split | dsimp only
theorem State.checkLocal_key (k : Bool) (bid : Byte) : (State.checkLocal s k bid).key = s.key := by
  unfold State.checkLocal
  with_reducible repeat' first | rfl | refine ite_key ?_ ?_ | refine (State.localArrive_key ..).trans ?_ | split | dsimp only
theorem State.objMisuse_key (k : Bool) (o : Nat) (op : Byte) (src : Nat) (rank : BitVec 32) : (State.objMisuse s k o op src rank).key = s.key := by
  unfold State.objMisuse
  with_reducible repeat' first | rfl | refine ite_key ?_ ?_ | refine (State.modSync_key ..).trans ?_ | refine (State.raiseNow_key ..).trans ?_
theorem State.objOp_key (k : Bool) (o : Nat) (op : Byte) (operand : BitVec 32) (src : Nat) (rank : BitVec 32) : (State.objOp s k o op operand src rank).key = s.key := by
  unfold State.objOp
  with_reducible repeat' first | rfl | refine ite_key ?_ ?_ | refine (State.modSync_key ..).trans ?_ | refine (State.expireObj_key ..).trans ?_ | refine (State.objMisuse_key ..).trans ?_ | refine (State.setObj_key ..).trans ?_ | refine (State.modCtx_key ..).trans ?_ | refine (State.dropTimerWake_key ..).trans ?_ | refine (State.askTimerWake_key ..).trans ?_ | refine (State.wake_key ..).trans ?_ | refine (State.checkLocal_key ..).trans ?_ | dsimp only
theorem State.post_key (e : PostEv) : (State.post s e).key = s.key := by
  unfold State.post
  with_reducible repeat' first | rfl | refine (State.modSync_key ..).trans ?_
theorem State.applyPosts_key  : (State.applyPosts s).key = s.key := by
  unfold State.applyPosts
  with_reducible repeat' first | rfl | refine (State.objOp_key ..).trans ?_ | refine (State.modSync_key ..).trans ?_ | refine (foldl_key _ _ _ ?_).trans ?_ | (intro _ _) | dsimp only
theorem State.expireAll_key (k : Bool) : (State.expireAll s k).key = s.key := by
  unfold State.expireAll
  with_reducible repeat' first | rfl | refine (State.expireObj_key ..).trans ?_ | refine (foldl_key _ _ _ ?_).trans ?_ | (intro _ _)

-- Trellis
theorem State.unseat_key (region : BitVec 7) : (State.unseat s region).key = s.key := by
  unfold State.unseat
  with_reducible repeat' first | rfl | refine ite_key ?_ ?_ | refine (State.modTr_key ..).trans ?_
theorem State.loseRegion_key (g : BitVec 7) : (State.loseRegion s g).key = s.key := by
  unfold State.loseRegion
  with_reducible repeat' first | rfl | refine ite_key ?_ ?_ | refine (State.modTr_key ..).trans ?_ | refine (State.unseat_key ..).trans ?_
theorem State.unitFault_key (level : Level) (a : CellAddr) (code : BitVec 16) (det : BitVec 64) : (State.unitFault s level a code det).key = s.key := by
  unfold State.unitFault
  with_reducible repeat' first | rfl | refine ite_key ?_ ?_ | refine (State.raiseNow_key ..).trans ?_ | refine (State.modUnit_key ..).trans ?_ | refine (State.sendUp_key ..).trans ?_ | dsimp only
theorem sendWord_fst (x : Act) : (State.sendWord s x).1.key = s.key := by
  unfold State.sendWord
  dsimp only
  split
  · exact State.modTr_key ..
  · exact State.raiseNow_key ..
theorem State.actionSample_key (ix : BitVec 32) : (State.actionSample s ix).key = s.key := by
  unfold State.actionSample
  split
  · rfl
  · refine ite_key ((ite_key (sendWord_fst ..) rfl).trans (State.modTr_key ..)) rfl
theorem State.arriveUp_key (level : Level) (a : CellAddr) (ch : BitVec 4) : (State.arriveUp s level a ch).key = s.key := by
  unfold State.arriveUp
  with_reducible repeat' first | rfl | refine (State.modUnit_key ..).trans ?_
theorem State.unitComplete_key (level : Level) (a : CellAddr) (ch : BitVec 4) : (State.unitComplete s level a ch).key = s.key := by
  unfold State.unitComplete
  with_reducible repeat' first | rfl | refine ite_key ?_ ?_ | refine (State.modUnit_key ..).trans ?_ | refine (State.arriveUp_key ..).trans ?_ | refine (State.sendUp_key ..).trans ?_ | refine (foldl_key _ _ _ ?_).trans ?_ | (intro _ _) | dsimp only
theorem State.unitArrive_key (level : Level) (a : CellAddr) (child : Nat) (ch : BitVec 4) : (State.unitArrive s level a child ch).key = s.key := by
  unfold State.unitArrive
  with_reducible repeat' first | rfl | refine (State.modUnit_key ..).trans ?_ | refine (State.unitComplete_key ..).trans ?_ | dsimp only
theorem State.unitMismatch_key (level : Level) (a : CellAddr) (c : Contrib) : (State.unitMismatch s level a c).key = s.key := by
  unfold State.unitMismatch
  with_reducible repeat' first | rfl | refine (State.unitFault_key ..).trans ?_
theorem State.unitContrib_key (level : Level) (a : CellAddr) (child : Nat) (k : Packet) : (State.unitContrib s level a child k).key = s.key := by
  unfold State.unitContrib
  with_reducible repeat' first | rfl | refine ite_key ?_ ?_ | refine (State.modUnit_key ..).trans ?_ | refine (State.unitMismatch_key ..).trans ?_ | refine (State.unitArrive_key ..).trans ?_ | split | dsimp only
theorem State.dropNoctx_key  : (State.dropNoctx s).key = s.key := by
  unfold State.dropNoctx
  with_reducible repeat' first | rfl | refine (State.modSync_key ..).trans ?_
theorem State.dropOps_key  : (State.dropOps s).key = s.key := by
  unfold State.dropOps
  with_reducible repeat' first | rfl | refine (State.modSync_key ..).trans ?_
theorem State.regionTerm_key (k : Bool) (r : Nat) (bid : Byte) (slot : Byte) (data : BitVec 128) : (State.regionTerm s k r bid slot data).key = s.key := by
  unfold State.regionTerm
  with_reducible repeat' first | rfl | refine ite_key ?_ ?_ | refine (State.modCtx_key ..).trans ?_
theorem State.leafArrive_key (r : Nat) (ch : BitVec 4) (word : Bool) : (State.leafArrive s r ch word).key = s.key := by
  unfold State.leafArrive
  with_reducible repeat' first | rfl | refine ite_key ?_ ?_ | refine (State.dropNoctx_key ..).trans ?_ | refine (State.dropOps_key ..).trans ?_ | refine (State.regionTerm_key ..).trans ?_ | refine (State.modCtx_key ..).trans ?_ | refine (State.checkLocal_key ..).trans ?_ | split | dsimp only
theorem State.leafContrib_key (r : Nat) (k : Packet) : (State.leafContrib s r k).key = s.key := by
  unfold State.leafContrib
  with_reducible repeat' first | rfl | refine ite_key ?_ ?_ | refine (State.modSync_key ..).trans ?_ | refine (State.regionTerm_key ..).trans ?_ | refine (State.modCtx_key ..).trans ?_ | refine (State.raiseNow_key ..).trans ?_ | refine (State.leafArrive_key ..).trans ?_ | split | dsimp only
theorem State.leafPost_key (k : Packet) : (State.leafPost s k).key = s.key := by
  unfold State.leafPost
  with_reducible repeat' first | rfl | refine (State.dropNoctx_key ..).trans ?_ | refine (State.post_key ..).trans ?_ | split | dsimp only
theorem State.access_key (write : Bool) (level : Level) (a : CellAddr) (ix : BitVec 7) (value : BitVec 32) (scope : Option Level) (desc : Option Nat) : (State.access s write level a ix value scope desc).key = s.key := by
  unfold State.access
  with_reducible repeat' first | rfl | refine ite_key ?_ ?_ | refine (State.complete_key ..).trans ?_ | refine (State.sendDown_key ..).trans ?_ | refine (State.modTr_key ..).trans ?_ | split | dsimp only
theorem State.ackAccess_key (write dump : Bool) (level : Level) (u : CellAddr) (words : List (BitVec 20)) : (State.ackAccess s write dump level u words).key = s.key := by
  unfold State.ackAccess
  with_reducible repeat' first | rfl | refine ite_key ?_ ?_ | refine (State.modTr_key ..).trans ?_ | refine (State.complete_key ..).trans ?_ | split | dsimp only
theorem State.forwardCopy_key (level : Level) (a : CellAddr) (slot : BitVec 6) (fire : BitVec 64) (w : BitVec 28) : (State.forwardCopy s level a slot fire w).key = s.key := by
  unfold State.forwardCopy
  with_reducible repeat' first | rfl | refine ite_key ?_ ?_ | refine (State.emit_key ..).trans ?_ | refine (foldl_key _ _ _ ?_).trans ?_ | (intro _ _) | dsimp only
theorem State.takeWord_key (level : Level) (a : CellAddr) (start : BitVec 64) (first : Bool) (w : BitVec 20) : (State.takeWord s level a start first w).key = s.key := by
  unfold State.takeWord
  with_reducible repeat' first | rfl | refine ite_key ?_ ?_ | refine (State.unitFault_key ..).trans ?_ | refine (State.unseat_key ..).trans ?_ | refine (State.modUnit_key ..).trans ?_ | split | dsimp only
theorem State.downWord_key (level : Level) (a : CellAddr) (slot : BitVec 6) (x y : BitVec 28) : (State.downWord s level a slot x y).key = s.key := by
  unfold State.downWord
  with_reducible repeat' first | rfl | refine ite_key ?_ ?_ | refine (State.forwardCopy_key ..).trans ?_ | refine (State.unitFault_key ..).trans ?_ | refine (State.unseat_key ..).trans ?_ | refine (State.takeWord_key ..).trans ?_ | split | dsimp only
theorem State.upWordRx_key (level : Level) (a : CellAddr) (child : BitVec 7) (x y : BitVec 28) : (State.upWordRx s level a child x y).key = s.key := by
  unfold State.upWordRx
  with_reducible repeat' first | rfl | refine ite_key ?_ ?_ | refine (State.unitFault_key ..).trans ?_ | refine (State.unseat_key ..).trans ?_ | refine (State.leafArrive_key ..).trans ?_ | refine (State.unitArrive_key ..).trans ?_ | split | dsimp only
theorem State.answer_key (level : Level) (a : CellAddr) (k : Packet) : (State.answer s level a k).key = s.key := by
  unfold State.answer
  with_reducible repeat' first | rfl | refine ite_key ?_ ?_ | refine (State.sendUp_key ..).trans ?_ | refine (State.modUnit_key ..).trans ?_ | dsimp only
theorem State.passOn_key (level : Level) (a : CellAddr) (src : Option Byte) (ports : List (Option Byte)) (k : Packet) : (State.passOn s level a src ports k).key = s.key := by
  unfold State.passOn
  with_reducible repeat' first | rfl | refine ite_key ?_ ?_ | refine elim_key ?_ ?_ | refine (State.bufferFreed_key ..).trans ?_ | refine (State.enqueue_key ..).trans ?_ | (intro _)
theorem State.unknownKind_key (level : Level) (a : CellAddr) (k : Packet) : (State.unknownKind s level a k).key = s.key := by
  unfold State.unknownKind
  with_reducible repeat' first | rfl | refine ite_key ?_ ?_ | refine (State.unitFault_key ..).trans ?_
theorem State.takePacket_key (level : Level) (a : CellAddr) (src : Option Byte) (k : Packet) : (State.takePacket s level a src k).key = s.key := by
  unfold State.takePacket
  with_reducible repeat' first | rfl | refine ite_key ?_ ?_ | refine (State.credited_key ..).trans ?_ | refine (State.bufferFreed_key ..).trans ?_ | refine (State.passOn_key ..).trans ?_ | refine (State.answer_key ..).trans ?_ | refine (State.emit_key ..).trans ?_ | refine (State.ackAccess_key ..).trans ?_ | refine (State.modTr_key ..).trans ?_ | refine (State.leafContrib_key ..).trans ?_ | refine (State.unitContrib_key ..).trans ?_ | refine (State.leafPost_key ..).trans ?_ | refine (State.unknownKind_key ..).trans ?_ | split | dsimp only
theorem State.packetRx_key (level : Level) (a : CellAddr) (src : Option Byte) (classU : Bool) (words : List (BitVec 28)) : (State.packetRx s level a src classU words).key = s.key := by
  unfold State.packetRx
  with_reducible repeat' first | rfl | refine ite_key ?_ ?_ | refine (State.bufferFreed_key ..).trans ?_ | refine (State.takePacket_key ..).trans ?_ | refine (State.unitFault_key ..).trans ?_ | dsimp only
theorem State.cellArrive_key (a : CellAddr) (ch : BitVec 4) (word : Bool) : (State.cellArrive s a ch word).key = s.key := by
  unfold State.cellArrive
  with_reducible repeat' first | rfl | refine ite_key ?_ ?_ | refine (State.modUnit_key ..).trans ?_ | refine (State.arriveUp_key ..).trans ?_ | dsimp only
theorem State.fireEdge_key (fire : BitVec 64) (a : Act) (stamp : HT80) : (State.fireEdge s fire a stamp).key = s.key := by
  unfold State.fireEdge
  with_reducible repeat' first | rfl | refine ite_key ?_ ?_ | refine (State.modTr_key ..).trans ?_ | refine (State.modCtx_key ..).trans ?_ | refine (State.complete_key ..).trans ?_ | split | dsimp only
theorem State.wordEdge_key (x : BitVec 64 × Act) : (State.wordEdge s x).key = s.key := by
  unfold State.wordEdge
  with_reducible repeat' first | rfl | refine ite_key ?_ ?_ | refine (State.modTr_key ..).trans ?_ | refine (State.drew_key ..).trans ?_ | refine (State.fireEdge_key ..).trans ?_ | dsimp only
theorem State.wordEdges_key  : (State.wordEdges s).key = s.key := by
  unfold State.wordEdges
  with_reducible repeat' first | rfl | refine (State.wordEdge_key ..).trans ?_ | refine (State.modTr_key ..).trans ?_ | refine (foldl_key _ _ _ ?_).trans ?_ | (intro _ _) | dsimp only
theorem State.presentOne_key (a : CellAddr) (p : Pend) : (State.presentOne s a p).key = s.key := by
  unfold State.presentOne
  with_reducible repeat' first | rfl | refine ite_key ?_ ?_ | refine (State.emit_key ..).trans ?_ | refine (State.modUnit_key ..).trans ?_ | refine (State.arriveUp_key ..).trans ?_ | split | dsimp only
theorem State.clearFirst_key (region : Option (BitVec 7)) : (State.clearFirst s region).key = s.key := by
  unfold State.clearFirst
  with_reducible repeat' first | rfl | refine ite_key ?_ ?_ | refine elim_key ?_ ?_ | refine (State.modTr_key ..).trans ?_ | (intro _)
theorem State.activated_key  : (State.activated s).key = s.key := by
  unfold State.activated
  with_reducible repeat' first | rfl | refine ite_key ?_ ?_ | refine (State.clearFirst_key ..).trans ?_ | refine (State.modCtx0_key ..).trans ?_ | refine (State.modCtx1_key ..).trans ?_ | dsimp only
theorem State.seatingEnd_key (m : SeatMeas) : (State.seatingEnd s m).key = s.key := by
  unfold State.seatingEnd
  with_reducible repeat' first | rfl | refine ite_key ?_ ?_ | refine (State.modTr_key ..).trans ?_ | refine (State.clearFirst_key ..).trans ?_ | split | dsimp only
theorem State.startSeat_key (part : Bool) : (State.startSeat s part).key = s.key := by
  unfold State.startSeat
  with_reducible repeat' first | rfl | refine ite_key ?_ ?_ | refine (State.modTr_key ..).trans ?_ | refine (State.rpOk_key ..).trans ?_ | refine (State.rpErr_key ..).trans ?_
theorem State.startCopy_key  : (State.startCopy s).key = s.key := by
  unfold State.startCopy
  with_reducible repeat' first | rfl | refine ite_key ?_ ?_ | refine (State.rpErr_key ..).trans ?_ | refine (State.modTr_key ..).trans ?_ | refine (State.rpOk_key ..).trans ?_
theorem State.setTrEn_key (en : Bool) : (State.setTrEn s en).key = s.key := by
  unfold State.setTrEn
  with_reducible repeat' first | rfl | refine ite_key ?_ ?_ | refine (State.rpErr_key ..).trans ?_ | refine (State.modTr_key ..).trans ?_ | refine (State.rpOk_key ..).trans ?_
theorem State.writeTrCtl_key (w : Word) : (State.writeTrCtl s w).key = s.key := by
  unfold State.writeTrCtl
  have hf : ∀ (l : List (State → State)) (t : State), (∀ g ∈ l, ∀ t, (g t).key = t.key) →
      (l.foldl (fun t g => if t.rp.err then t else g t) t).key = t.key := by
    intro l
    induction l with
    | nil => intro t _; rfl
    | cons a r ih =>
      intro t h
      rw [List.foldl_cons, ih _ fun g hg => h g (List.mem_cons_of_mem _ hg)]
      exact ite_key rfl (h a List.mem_cons_self t)
  refine ite_key (State.rpErr_key ..) (ite_key (State.rpErr_key s) ((hf _ _ ?_).trans ((State.modTr_key ..).trans (State.setTrEn_key ..))))
  intro g hg t
  simp only [List.mem_append, List.mem_ite_nil_right, List.mem_singleton] at hg
  rcases hg with (((⟨_, rfl⟩ | ⟨_, rfl⟩) | ⟨_, rfl⟩) | ⟨_, rfl⟩) | ⟨_, rfl⟩
  · exact State.startSeat_key ..
  · exact State.startSeat_key ..
  · exact State.startCopy_key ..
  · exact (State.rpOk_key ..).trans (State.modTr_key ..)
  · exact (State.rpOk_key ..).trans (State.modTr_key ..)

-- Bandstand
theorem State.insert_key (e : Entry) : (State.insert s e).key = s.key := by
  unfold State.insert
  with_reducible repeat' first | rfl | refine ite_key ?_ ?_ | refine (State.modBand_key ..).trans ?_ | dsimp only
theorem State.freeEntry_key (q : BitVec 32) : (State.freeEntry s q).key = s.key := by
  unfold State.freeEntry
  with_reducible repeat' first | rfl | refine (State.modBand_key ..).trans ?_
theorem State.entryDone_key (e : Entry) : (State.entryDone s e).key = s.key := by
  unfold State.entryDone
  with_reducible repeat' first | rfl | refine ite_key ?_ ?_ | refine (State.complete_key ..).trans ?_ | split
theorem State.discardEntry_key (e : Entry) (reason : Nat) (cause : BitVec 16) : (State.discardEntry s e reason cause).key = s.key := by
  unfold State.discardEntry
  with_reducible repeat' first | rfl | refine (State.complete_key ..).trans ?_ | refine (State.reply_key ..).trans ?_ | split
theorem State.discardAll_key (t : PTag) (reason : Nat) (cause : BitVec 16) : (State.discardAll s t reason cause).key = s.key := by
  unfold State.discardAll
  with_reducible repeat' first | rfl | refine (State.modBand_key ..).trans ?_ | refine (State.discardEntry_key ..).trans ?_ | refine (State.modTr_key ..).trans ?_ | refine (State.complete_key ..).trans ?_ | refine (foldl_key _ _ _ ?_).trans ?_ | (intro _ _) | dsimp only
theorem State.launchFault_key (e : Entry) (cause : Nat) (det : BitVec 64) : (State.launchFault s e cause det).key = s.key := by
  unfold State.launchFault
  with_reducible repeat' first | rfl | refine (State.freeEntry_key ..).trans ?_ | refine (State.raiseNow_key ..).trans ?_
theorem State.launchOne_key (e : Entry) : (State.launchOne s e).key = s.key := by
  unfold State.launchOne
  with_reducible repeat' first | rfl | refine ite_key ?_ ?_ | refine (State.launchFault_key ..).trans ?_ | refine (State.modBand_key ..).trans ?_ | refine (State.modFc_key _ _ ?_).trans ?_ | refine (State.modCtx_key ..).trans ?_ | (intro _; rfl) | split
  all_goals exact (sendWord_fst ..).trans ((State.freeEntry_key ..).trans (State.modBand_key ..))
theorem State.driveWin_key  : (State.driveWin s).key = s.key := by
  unfold State.driveWin
  with_reducible repeat' first | rfl | refine ite_key ?_ ?_ | refine (State.modPins_key _ _ ?_).trans ?_ | (intro _; rfl)
theorem State.askWindow_key (w k : Nat) : (State.askWindow s w k).key = s.key := by
  unfold State.askWindow
  with_reducible repeat' first | rfl | refine ite_key ?_ ?_ | refine (State.askWord_key ..).trans ?_ | dsimp only
theorem State.enterSched_key (w : Nat) : (State.enterSched s w).key = s.key := by
  unfold State.enterSched
  with_reducible repeat' first | rfl | refine ite_key ?_ ?_ | refine (State.modTr_key ..).trans ?_ | refine (State.modBand_key ..).trans ?_ | refine (State.askWord_key ..).trans ?_ | refine (State.askWindow_key ..).trans ?_ | split | dsimp only
theorem State.idleDescent_key  : (State.idleDescent s).key = s.key := by
  unfold State.idleDescent
  with_reducible repeat' first | rfl | refine ite_key ?_ ?_ | refine (State.modBand_key ..).trans ?_
theorem State.startRamp_key (e : Entry) : (State.startRamp s e).key = s.key := by
  unfold State.startRamp
  with_reducible repeat' first | rfl | refine ite_key ?_ ?_ | refine (State.modBand_key ..).trans ?_
theorem State.bandTick_key  : (State.bandTick s).key = s.key := by
  unfold State.bandTick
  with_reducible repeat' first | rfl | refine ite_key ?_ ?_ | refine elim_key ?_ ?_ | refine (State.startRamp_key ..).trans ?_ | refine (State.modBand_key ..).trans ?_ | refine (foldl_key _ _ _ ?_).trans ?_ | (intro _ _) | (intro _) | dsimp only
theorem State.lendFall_key (inserted : Bool) : (State.lendFall s inserted).key = s.key := by
  unfold State.lendFall
  with_reducible repeat' first | rfl | refine ite_key ?_ ?_ | refine (State.modPins_key _ _ ?_).trans ?_ | refine (State.modBand_key ..).trans ?_ | (intro _; rfl) | dsimp only
theorem State.stopWindow_key (n : Nat) (opens : Bool) : (State.stopWindow s n opens).key = s.key := by
  unfold State.stopWindow
  with_reducible repeat' first | rfl | refine ite_key ?_ ?_ | refine (State.modCapIn_key ..).trans ?_
theorem State.swapLeaf_key (t : PTag) : (State.swapLeaf s t).key = s.key := by
  unfold State.swapLeaf
  with_reducible repeat' first | rfl | refine (State.modCtx_key ..).trans ?_ | refine (State.modBand_key ..).trans ?_ | refine (State.enterSched_key ..).trans ?_ | refine (State.driveWin_key ..).trans ?_ | refine (foldl_key _ _ _ ?_).trans ?_ | (intro _ _) | split | dsimp only
theorem State.swapDone_key (t : PTag) (a : SwapArm) : (State.swapDone s t a).key = s.key := by
  unfold State.swapDone
  with_reducible repeat' first | rfl | refine (State.complete_key ..).trans ?_ | split
theorem State.stopReplay_key (t : PTag) : (State.stopReplay s t).key = s.key := by
  unfold State.stopReplay
  with_reducible repeat' first | rfl | refine ite_key ?_ ?_ | refine elim_key ?_ ?_ | refine (State.modSync_key ..).trans ?_ | (intro _)
theorem State.replayG0_key (k : Bool) (n : BitVec 64) (gv : Bool) : (State.replayG0 s k n gv).key = s.key := by
  unfold State.replayG0
  with_reducible repeat' first | rfl | refine ite_key ?_ ?_ | refine (State.modSync_key ..).trans ?_ | refine (State.diverge_key ..).trans ?_ | split | dsimp only
theorem State.recordStep_key (k : Bool) (r : StepRep) : (State.recordStep s k r).key = s.key := by
  unfold State.recordStep
  with_reducible repeat' first | rfl | refine ite_key ?_ ?_ | refine (State.record_key ..).trans ?_ | refine (State.modSync_key ..).trans ?_ | refine (foldl_key _ _ _ ?_).trans ?_ | (intro _ _) | dsimp only
theorem State.endStep_key (k : Bool) (a : Arm) (r : Rel) : (State.endStep s k a r).key = s.key := by
  unfold State.endStep
  with_reducible repeat' first | rfl | refine ite_key ?_ ?_ | refine elim_key ?_ ?_ | refine (State.replayG0_key ..).trans ?_ | refine (State.reply_key ..).trans ?_ | refine (State.recordStep_key ..).trans ?_ | refine (State.modBand_key ..).trans ?_ | refine (State.expireAll_key ..).trans ?_ | refine (State.dropTimerWake_key ..).trans ?_ | refine (State.modCtx_key ..).trans ?_ | refine (State.askTimerWake_key ..).trans ?_ | refine (foldl_key _ _ _ ?_).trans ?_ | (intro _ _) | (intro _) | dsimp only
theorem State.releaseNow_key (k : Bool) (a : Arm) (r : Rel) : (State.releaseNow s k a r).key = s.key := by
  unfold State.releaseNow
  with_reducible repeat' first | rfl | refine ite_key ?_ ?_ | refine (State.modCtx_key ..).trans ?_ | refine (State.setObj_key ..).trans ?_ | refine (State.endStep_key ..).trans ?_ | refine (State.reply_key ..).trans ?_ | refine (State.checkLocal_key ..).trans ?_ | dsimp only
theorem State.objDue_key (o : Nat) (f : ObjType → Bool) : (State.objDue s o f).key = s.key := by
  unfold State.objDue
  with_reducible repeat' first | rfl | refine ite_key ?_ ?_ | refine (State.expireObj_key ..).trans ?_ | split

-- Dump
theorem State.pumpDump_key (n_ : Nat) : (State.pumpDump s n_).key = s.key := by
  induction n_ generalizing s with
  | zero => rfl
  | succ k ih =>
    unfold State.pumpDump
    with_reducible repeat' first | refine (ih ..).trans ?_ | rfl | refine ite_key ?_ ?_ | refine (State.modEng_key ..).trans ?_ | refine (State.drew_key ..).trans ?_ | refine (State.writeGroup_key ..).trans ?_ | split
theorem State.readUnits_key  : (State.readUnits s).key = s.key := by
  unfold State.readUnits
  with_reducible repeat' first | rfl | refine (State.access_key ..).trans ?_ | refine (foldl_key _ _ _ ?_).trans ?_ | (intro _ _)
theorem State.startDump_key (j : DumpJob) : (State.startDump s j).key = s.key := by
  unfold State.startDump
  with_reducible repeat' first | rfl | refine ite_key ?_ ?_ | refine (State.modEng_key ..).trans ?_ | refine (State.modCtx_key ..).trans ?_ | refine (State.readUnits_key ..).trans ?_ | refine (State.pumpDump_key ..).trans ?_ | split | dsimp only
theorem State.autoDump_key (k : Bool) : (State.autoDump s k).key = s.key := by
  unfold State.autoDump
  with_reducible repeat' first | rfl | refine ite_key ?_ ?_ | refine (State.modEng_key ..).trans ?_ | refine (State.modCtx_key ..).trans ?_ | refine (State.startDump_key ..).trans ?_
theorem State.endDump_key (status : Byte) : (State.endDump s status).key = s.key := by
  unfold State.endDump
  with_reducible repeat' first | rfl | refine ite_key ?_ ?_ | refine elim_key ?_ ?_ | refine (State.modEng_key ..).trans ?_ | refine (State.modCtx_key ..).trans ?_ | refine (State.complete_key ..).trans ?_ | refine (State.startDump_key ..).trans ?_ | (intro _) | split | dsimp only

-- Fabric
theorem State.countStale_key (t : PTag) : (State.countStale s t).key = s.key := by
  unfold State.countStale
  with_reducible repeat' first | rfl | refine ite_key ?_ ?_ | refine (State.modSync_key ..).trans ?_ | refine (State.modFab_key ..).trans ?_
theorem State.partDown_key (p : Part) (op : PartOp) (m : PartMsg) : (State.partDown s p op m).key = s.key := by
  unfold State.partDown
  with_reducible repeat' first | rfl | refine (State.sendOn_key ..).trans ?_
theorem State.endSlot_key (k : Bool) (stamp : HT80) (fault : BitVec 16) : (State.endSlot s k stamp fault).key = s.key := by
  unfold State.endSlot
  with_reducible repeat' first | rfl | refine ite_key ?_ ?_ | refine elim_key ?_ ?_ | refine (State.modCtx_key ..).trans ?_ | refine (State.modTr_key ..).trans ?_ | refine (State.stopReplay_key ..).trans ?_ | refine (State.modBand_key ..).trans ?_ | refine (State.idleDescent_key ..).trans ?_ | (intro _) | dsimp only
theorem State.tryCloseAck_key (t : PTag) : (State.tryCloseAck s t).key = s.key := by
  unfold State.tryCloseAck
  with_reducible repeat' first | rfl | refine ite_key ?_ ?_ | refine (State.modPart_key ..).trans ?_ | refine (State.send_key ..).trans ?_ | split | dsimp only
theorem State.unstage_key (t : PTag) : (State.unstage s t).key = s.key := by
  unfold State.unstage
  with_reducible repeat' first | rfl | refine (State.modFab_key ..).trans ?_
theorem State.endPart_key (t : PTag) (stamp : HT80) (fault : BitVec 16) : (State.endPart s t stamp fault).key = s.key := by
  unfold State.endPart
  with_reducible repeat' first | rfl | refine ite_key ?_ ?_ | refine (State.unstage_key ..).trans ?_ | refine (State.modPart_key ..).trans ?_ | refine (State.endSlot_key ..).trans ?_ | refine (State.discardAll_key ..).trans ?_ | refine (State.complete_key ..).trans ?_ | refine (State.modEng_key ..).trans ?_ | refine (State.autoDump_key ..).trans ?_ | refine (State.mirrorPart_key ..).trans ?_ | refine (State.flushEnds_key ..).trans ?_ | refine (State.tryCloseAck_key ..).trans ?_ | refine (foldl_key _ _ _ ?_).trans ?_ | (intro _ _) | split | dsimp only
theorem State.faultPart_key (t : PTag) (stamp : HT80) (fault : BitVec 16) : (State.faultPart s t stamp fault).key = s.key := by
  unfold State.faultPart
  with_reducible repeat' first | rfl | refine ite_key ?_ ?_ | refine (State.endPart_key ..).trans ?_ | refine (State.modPart_key ..).trans ?_
theorem State.mirrorFree_key (p : Part) : (State.mirrorFree s p).key = s.key := by
  unfold State.mirrorFree
  with_reducible repeat' first | rfl | refine (State.mirror_key ..).trans ?_ | refine (foldl_key _ _ _ ?_).trans ?_ | (intro _ _)
theorem State.dropPart_key (t : PTag) : (State.dropPart s t).key = s.key := by
  unfold State.dropPart
  with_reducible repeat' first | rfl | refine (State.modFab_key ..).trans ?_
theorem State.cancelHere_key (t : PTag) : (State.cancelHere s t).key = s.key := by
  unfold State.cancelHere
  with_reducible repeat' first | rfl | refine (State.modCtx_key ..).trans ?_ | refine (State.modPart_key ..).trans ?_ | refine (State.complete_key ..).trans ?_ | refine (foldl_key _ _ _ ?_).trans ?_ | (intro _ _) | split | dsimp only
theorem State.refuseHere_key (t : PTag) (cause : BitVec 16) : (State.refuseHere s t cause).key = s.key := by
  unfold State.refuseHere
  with_reducible repeat' first | rfl | refine ite_key ?_ ?_ | refine (State.complete_key ..).trans ?_ | refine (State.cancelHere_key ..).trans ?_ | refine (State.modCtx_key ..).trans ?_ | refine (State.mirrorFree_key ..).trans ?_ | refine (State.dropPart_key ..).trans ?_ | refine (State.raiseNow_key ..).trans ?_ | refine (State.faultPart_key ..).trans ?_ | refine (foldl_key _ _ _ ?_).trans ?_ | (intro _ _) | split | dsimp only
theorem State.commitHere_key (t : PTag) (m : PartMsg) : (State.commitHere s t m).key = s.key := by
  unfold State.commitHere
  with_reducible repeat' first | rfl | refine ite_key ?_ ?_ | refine (State.modPart_key ..).trans ?_
theorem State.noteRuns_key (p : Part) : (State.noteRuns s p).key = s.key := by
  unfold State.noteRuns
  with_reducible repeat' first | rfl | refine (State.modFab_key ..).trans ?_ | refine (foldl_key _ _ _ ?_).trans ?_ | (intro _ _) | dsimp only
theorem State.stageEntry_key (m : MirrorMsg) : (State.stageEntry s m).key = s.key := by
  unfold State.stageEntry
  with_reducible repeat' first | rfl | refine ite_key ?_ ?_ | refine (State.modFab_key ..).trans ?_ | split | dsimp only
theorem State.answerOpener_key (op : PartOp) (m : PartMsg) (cause : BitVec 16) : (State.answerOpener s op m cause).key = s.key := by
  unfold State.answerOpener
  with_reducible repeat' first | rfl | refine ite_key ?_ ?_ | refine (State.sendOn_key ..).trans ?_ | refine (State.refuseHere_key ..).trans ?_ | refine (State.notice_key ..).trans ?_ | refine (foldl_key _ _ _ ?_).trans ?_ | (intro _ _) | split | dsimp only
theorem State.refuseOpen_key (m : PartMsg) (cause : BitVec 16) : (State.refuseOpen s m cause).key = s.key := by
  unfold State.refuseOpen
  with_reducible repeat' first | rfl | refine (State.unstage_key ..).trans ?_ | refine (State.answerOpener_key ..).trans ?_
theorem State.rootCommit_key (t : PTag) : (State.rootCommit s t).key = s.key := by
  unfold State.rootCommit
  with_reducible repeat' first | rfl | refine ite_key ?_ ?_ | refine (State.noteRuns_key ..).trans ?_ | refine (State.unstage_key ..).trans ?_ | refine (State.partDown_key ..).trans ?_ | refine (State.commitHere_key ..).trans ?_ | split | dsimp only
theorem State.rootRefuse_key (t : PTag) (cause : BitVec 16) : (State.rootRefuse s t cause).key = s.key := by
  unfold State.rootRefuse
  with_reducible repeat' first | rfl | refine ite_key ?_ ?_ | refine (State.unstage_key ..).trans ?_ | refine (State.partDown_key ..).trans ?_ | refine (State.refuseHere_key ..).trans ?_ | split
theorem State.rootClose_key (m : PartMsg) : (State.rootClose s m).key = s.key := by
  unfold State.rootClose
  with_reducible repeat' first | rfl | refine ite_key ?_ ?_ | refine (State.countStale_key ..).trans ?_ | refine (State.unstage_key ..).trans ?_ | refine (State.partDown_key ..).trans ?_ | refine (State.refuseHere_key ..).trans ?_ | refine (State.mirrorPart_key ..).trans ?_ | refine (State.modPart_key ..).trans ?_ | split | dsimp only
theorem State.toRoot_key (op : PartOp) (m : PartMsg) : (State.toRoot s op m).key = s.key := by
  unfold State.toRoot
  with_reducible repeat' first | rfl | refine ite_key ?_ ?_ | refine (State.rootCommit_key ..).trans ?_ | refine (State.rootRefuse_key ..).trans ?_ | refine (State.rootClose_key ..).trans ?_ | refine (State.send_key ..).trans ?_ | split
theorem State.partUp_key (p : Part) (op : PartOp) (m : PartMsg) : (State.partUp s p op m).key = s.key := by
  unfold State.partUp
  with_reducible repeat' first | rfl | refine (State.send_key ..).trans ?_ | refine (State.toRoot_key ..).trans ?_ | split
theorem State.tryAck_key (t : PTag) : (State.tryAck s t).key = s.key := by
  unfold State.tryAck
  with_reducible repeat' first | rfl | refine ite_key ?_ ?_ | refine (State.modPart_key ..).trans ?_ | refine (State.partUp_key ..).trans ?_ | split
theorem State.bindMember_key (t : PTag) : (State.bindMember s t).key = s.key := by
  unfold State.bindMember
  with_reducible repeat' first | rfl | refine (State.modEng_key ..).trans ?_ | refine (State.modCtx_key ..).trans ?_ | split | dsimp only
theorem State.refuseUp_key (p : Part) (cause : BitVec 16) : (State.refuseUp s p cause).key = s.key := by
  unfold State.refuseUp
  with_reducible repeat' first | rfl | refine (State.partUp_key ..).trans ?_
theorem State.memberTurn_key (t : PTag) : (State.memberTurn s t).key = s.key := by
  unfold State.memberTurn
  with_reducible repeat' first | rfl | refine ite_key ?_ ?_ | refine (State.modPart_key ..).trans ?_ | refine (State.modBand_key ..).trans ?_ | refine (State.refuseUp_key ..).trans ?_ | refine (State.bindMember_key ..).trans ?_ | split | dsimp only
theorem State.unreadTurn_key  : (State.unreadTurn s).key = s.key := by
  unfold State.unreadTurn
  with_reducible repeat' first | rfl | refine (State.memberTurn_key ..).trans ?_ | refine (foldl_key _ _ _ ?_).trans ?_ | (intro _ _)
theorem State.acceptOpen_key (p0 : Part) (m : PartMsg) : (State.acceptOpen s p0 m).key = s.key := by
  unfold State.acceptOpen
  with_reducible repeat' first | rfl | refine ite_key ?_ ?_ | refine (State.modFab_key ..).trans ?_ | refine (State.refuseUp_key ..).trans ?_ | refine (State.partDown_key ..).trans ?_ | refine (State.memberTurn_key ..).trans ?_ | refine (State.tryAck_key ..).trans ?_ | split | dsimp only
theorem State.rootStart_key (m : PartMsg) (members : List NodeId) (moved : Bool) (free : BitVec 32) : (State.rootStart s m members moved free).key = s.key := by
  unfold State.rootStart
  with_reducible repeat' first | rfl | refine ite_key ?_ ?_ | refine elim_key ?_ ?_ | refine (State.modFab_key ..).trans ?_ | refine (State.sendOn_key ..).trans ?_ | refine (State.mirror_key ..).trans ?_ | refine (State.acceptOpen_key ..).trans ?_ | refine (State.partDown_key ..).trans ?_ | refine (State.mirrorPart_key ..).trans ?_ | refine (foldl_key _ _ _ ?_).trans ?_ | (intro _ _) | (intro _) | dsimp only
theorem State.rootOpen_key (m : PartMsg) : (State.rootOpen s m).key = s.key := by
  unfold State.rootOpen
  with_reducible repeat' first | rfl | refine ite_key ?_ ?_ | refine elim_key ?_ ?_ | refine (State.refuseOpen_key ..).trans ?_ | refine (State.raiseNow_key ..).trans ?_ | refine (State.drew_key ..).trans ?_ | refine (State.modFab_key ..).trans ?_ | refine (State.answerOpener_key ..).trans ?_ | refine (State.rootStart_key ..).trans ?_ | (intro _) | split | dsimp only
theorem State.tryDeferred_key (d : Deferred) : (State.tryDeferred s d).key = s.key := by
  unfold State.tryDeferred
  with_reducible repeat' first | rfl | refine ite_key ?_ ?_ | refine (State.drew_key ..).trans ?_ | refine (State.modFab_key ..).trans ?_ | refine (State.refuseOpen_key ..).trans ?_ | refine (State.rootStart_key ..).trans ?_ | split | dsimp only
theorem State.runDefer_key  : (State.runDefer s).key = s.key := by
  unfold State.runDefer
  with_reducible repeat' first | rfl | refine ite_key ?_ ?_ | refine (State.tryDeferred_key ..).trans ?_ | refine (foldl_key _ _ _ ?_).trans ?_ | (intro _ _)
theorem State.openMember_key (k : Bool) (p : Part) : (State.openMember s k p).key = s.key := by
  unfold State.openMember
  with_reducible repeat' first | rfl | refine ite_key ?_ ?_ | refine (State.modCtx_key ..).trans ?_ | refine (State.activated_key ..).trans ?_ | refine (State.modSync_key ..).trans ?_ | refine (State.modBand_key ..).trans ?_ | refine (State.record_key ..).trans ?_ | refine (State.complete_key ..).trans ?_ | refine (foldl_key _ _ _ ?_).trans ?_ | (intro _ _) | dsimp only

-- LinkRx
theorem State.tableFullFault_key (t : PTag) (a : Action) : (State.tableFullFault s t a).key = s.key := by
  unfold State.tableFullFault
  with_reducible repeat' first | rfl | refine (State.raiseNow_key ..).trans ?_
theorem State.insertLaunch_key (p : PortNo) (m : LaunchMsg) : (State.insertLaunch s p m).key = s.key := by
  unfold State.insertLaunch
  with_reducible repeat' first | rfl | refine ite_key ?_ ?_ | refine elim_key ?_ ?_ | refine (State.raiseNow_key ..).trans ?_ | refine (State.tableFullFault_key ..).trans ?_ | refine (State.insert_key ..).trans ?_ | refine (State.lendFall_key ..).trans ?_ | (intro _) | dsimp only
theorem State.takeLaunch_key (p : PortNo) (x : Part) (m : LaunchMsg) : (State.takeLaunch s p x m).key = s.key := by
  unfold State.takeLaunch
  with_reducible repeat' first | rfl | refine ite_key ?_ ?_ | refine (State.sendOn_key ..).trans ?_ | refine (State.insertLaunch_key ..).trans ?_ | dsimp only
theorem State.armSwap_key (p : PortNo) (x : Part) (m : SwapMsg) : (State.armSwap s p x m).key = s.key := by
  unfold State.armSwap
  with_reducible repeat' first | rfl | refine ite_key ?_ ?_ | refine (State.raiseNow_key ..).trans ?_ | refine (State.tableFullFault_key ..).trans ?_ | refine (State.modPart_key ..).trans ?_ | refine (State.mirrorPart_key ..).trans ?_ | refine (State.insert_key ..).trans ?_ | refine (State.askWord_key ..).trans ?_ | dsimp only
theorem State.takeSwap_key (p : PortNo) (x : Part) (m : SwapMsg) : (State.takeSwap s p x m).key = s.key := by
  unfold State.takeSwap
  with_reducible repeat' first | rfl | refine ite_key ?_ ?_ | refine (State.sendOn_key ..).trans ?_ | refine (State.armSwap_key ..).trans ?_ | dsimp only
theorem State.takeParkHere_key (m : ParkMsg) : (State.takeParkHere s m).key = s.key := by
  unfold State.takeParkHere
  with_reducible repeat' first | rfl | refine ite_key ?_ ?_ | refine (State.raiseNow_key ..).trans ?_ | refine (State.tableFullFault_key ..).trans ?_ | refine (State.insert_key ..).trans ?_ | refine (State.askWord_key ..).trans ?_ | split | dsimp only
theorem State.takePark_key (x : Part) (m : ParkMsg) : (State.takePark s x m).key = s.key := by
  unfold State.takePark
  with_reducible repeat' first | rfl | refine ite_key ?_ ?_ | refine (State.sendOn_key ..).trans ?_ | refine (State.takeParkHere_key ..).trans ?_ | dsimp only
theorem State.takeArrive_key (p : PortNo) (x : Part) (m : BarMsg) (tc : HT80) : (State.takeArrive s p x m tc).key = s.key := by
  unfold State.takeArrive
  with_reducible repeat' first | rfl | refine ite_key ?_ ?_ | refine (State.sendOn_key ..).trans ?_ | refine (State.arriveAt_key ..).trans ?_ | refine (State.record_key ..).trans ?_ | dsimp only
theorem State.takeRelease_key (p : PortNo) (x : Part) (m : BarMsg) : (State.takeRelease s p x m).key = s.key := by
  unfold State.takeRelease
  with_reducible repeat' first | rfl | refine ite_key ?_ ?_ | refine (State.modPart_key ..).trans ?_ | refine (State.sendOn_key ..).trans ?_ | refine (State.raiseNow_key ..).trans ?_ | refine (State.passRelease_key ..).trans ?_ | refine (State.completeRound_key ..).trans ?_ | split | dsimp only
theorem State.deliver_key (m : SignalMsg) : (State.deliver s m).key = s.key := by
  unfold State.deliver
  with_reducible repeat' first | rfl | refine ite_key ?_ ?_ | refine (State.countStale_key ..).trans ?_ | refine (State.post_key ..).trans ?_ | refine (State.modSync_key ..).trans ?_ | refine (State.raiseNow_key ..).trans ?_ | split | dsimp only
theorem State.hubSignal_key (x : Part) (m : SignalMsg) : (State.hubSignal s x m).key = s.key := by
  unfold State.hubSignal
  with_reducible repeat' first | rfl | refine ite_key ?_ ?_ | refine (State.raiseNow_key ..).trans ?_ | refine (State.sendOn_key ..).trans ?_ | split
theorem State.leafSignal_key (x : Part) (port : Option PortNo) (m : SignalMsg) : (State.leafSignal s x port m).key = s.key := by
  unfold State.leafSignal
  with_reducible repeat' first | rfl | refine ite_key ?_ ?_ | refine (State.deliver_key ..).trans ?_ | refine (State.drew_key ..).trans ?_ | refine (State.sendOn_key ..).trans ?_ | refine (State.countStale_key ..).trans ?_ | refine (State.send_key ..).trans ?_ | split | dsimp only
theorem State.mirrorEntry_key (m : MirrorMsg) : (State.mirrorEntry s m).key = s.key := by
  unfold State.mirrorEntry
  with_reducible repeat' first | rfl | refine ite_key ?_ ?_ | refine (State.modFab_key ..).trans ?_ | split | dsimp only
theorem State.mirrorRank_key (m : MirrorMsg) : (State.mirrorRank s m).key = s.key := by
  unfold State.mirrorRank
  with_reducible repeat' first | rfl | refine ite_key ?_ ?_ | refine (State.modFab_key ..).trans ?_ | dsimp only
theorem State.mirrorNode_key (m : MirrorMsg) : (State.mirrorNode s m).key = s.key := by
  unfold State.mirrorNode
  with_reducible repeat' first | rfl | refine ite_key ?_ ?_ | refine (State.modFab_key ..).trans ?_ | refine (State.modElect_key ..).trans ?_ | dsimp only
theorem State.takeMirror_key (p : PortNo) (m : MirrorMsg) : (State.takeMirror s p m).key = s.key := by
  unfold State.takeMirror
  with_reducible repeat' first | rfl | refine ite_key ?_ ?_ | refine (State.stageEntry_key ..).trans ?_ | refine (State.mirrorEntry_key ..).trans ?_ | refine (State.sendOn_key ..).trans ?_ | refine (State.mirror_key ..).trans ?_ | refine (State.mirrorNode_key ..).trans ?_ | refine (State.mirrorRank_key ..).trans ?_ | split | dsimp only
theorem State.passDown_key (op : PartOp) (m : PartMsg) : (State.passDown s op m).key = s.key := by
  unfold State.passDown
  with_reducible repeat' first | rfl | refine (State.send_key ..).trans ?_ | refine (State.countStale_key ..).trans ?_ | split
theorem State.takeOpen_key (p : PortNo) (m : PartMsg) : (State.takeOpen s p m).key = s.key := by
  unfold State.takeOpen
  with_reducible repeat' first | rfl | refine ite_key ?_ ?_ | refine (State.rootOpen_key ..).trans ?_ | refine (State.sendOn_key ..).trans ?_ | refine (State.acceptOpen_key ..).trans ?_ | refine (State.passDown_key ..).trans ?_ | refine (State.countStale_key ..).trans ?_ | split
theorem State.takeOpenAck_key (p : PortNo) (m : PartMsg) : (State.takeOpenAck s p m).key = s.key := by
  unfold State.takeOpenAck
  with_reducible repeat' first | rfl | refine ite_key ?_ ?_ | refine (State.countStale_key ..).trans ?_ | refine (State.partDown_key ..).trans ?_ | refine (State.commitHere_key ..).trans ?_ | refine (State.modPart_key ..).trans ?_ | refine (State.tryAck_key ..).trans ?_ | refine (State.toRoot_key ..).trans ?_ | refine (State.passDown_key ..).trans ?_ | split
theorem State.takeDeferred_key (p : PortNo) (m : PartMsg) : (State.takeDeferred s p m).key = s.key := by
  unfold State.takeDeferred
  with_reducible repeat' first | rfl | refine ite_key ?_ ?_ | refine (State.sendOn_key ..).trans ?_ | refine (State.notice_key ..).trans ?_ | refine (foldl_key _ _ _ ?_).trans ?_ | (intro _ _) | dsimp only
theorem State.takeRefused_key (p : PortNo) (m : PartMsg) : (State.takeRefused s p m).key = s.key := by
  unfold State.takeRefused
  with_reducible repeat' first | rfl | refine ite_key ?_ ?_ | refine (State.countStale_key ..).trans ?_ | refine (State.partDown_key ..).trans ?_ | refine (State.refuseHere_key ..).trans ?_ | refine (State.send_key ..).trans ?_ | refine (State.sendOn_key ..).trans ?_ | refine (State.toRoot_key ..).trans ?_ | split | dsimp only
theorem State.takeClose_key (p : PortNo) (m : PartMsg) : (State.takeClose s p m).key = s.key := by
  unfold State.takeClose
  with_reducible repeat' first | rfl | refine ite_key ?_ ?_ | refine (State.countStale_key ..).trans ?_ | refine (State.partDown_key ..).trans ?_ | refine (State.modPart_key ..).trans ?_ | refine (State.passDown_key ..).trans ?_ | refine (State.toRoot_key ..).trans ?_ | split
theorem State.takeCloseAck_key (p : PortNo) (m : PartMsg) : (State.takeCloseAck s p m).key = s.key := by
  unfold State.takeCloseAck
  with_reducible repeat' first | rfl | refine (State.modPart_key ..).trans ?_ | refine (State.tryCloseAck_key ..).trans ?_ | refine (State.countStale_key ..).trans ?_ | split
theorem State.takePartFault_key (p : PortNo) (m : PartMsg) : (State.takePartFault s p m).key = s.key := by
  unfold State.takePartFault
  with_reducible repeat' first | rfl | refine ite_key ?_ ?_ | refine (State.countStale_key ..).trans ?_ | refine (State.raise_key ..).trans ?_ | refine (State.sendOn_key ..).trans ?_ | refine (State.faultPart_key ..).trans ?_ | split | dsimp only
theorem State.takeDelayOn_key (p : PortNo) (m : DelayMsg) : (State.takeDelayOn s p m).key = s.key := by
  unfold State.takeDelayOn
  with_reducible repeat' first | rfl | refine (State.modPort_key ..).trans ?_ | refine (State.sendDelay_key ..).trans ?_ | dsimp only
theorem State.stompCopies_key (p : PortNo) (head : Flit) : (State.stompCopies s p head).key = s.key := by
  unfold State.stompCopies
  with_reducible repeat' first | rfl | refine ite_key ?_ ?_ | refine (State.modPort_key ..).trans ?_ | refine (foldl_key _ _ _ ?_).trans ?_ | (intro _ _) | split | dsimp only

-- Rings
theorem State.flushCons_key (n : Nat) : (State.flushCons s n).key = s.key := by
  unfold State.flushCons
  with_reducible repeat' first | rfl | refine ite_key ?_ ?_ | refine (State.modRing_key ..).trans ?_ | refine (State.hmIssue_key ..).trans ?_ | dsimp only
theorem State.fetchMore_key (n : Nat) (n_ : Nat) : (State.fetchMore s n n_).key = s.key := by
  induction n_ generalizing s with
  | zero => rfl
  | succ k ih =>
    unfold State.fetchMore
    with_reducible repeat' first | refine (ih ..).trans ?_ | rfl | refine ite_key ?_ ?_ | refine (State.modRing_key ..).trans ?_ | refine (State.hmIssue_key ..).trans ?_
theorem State.nextSeq_key  : (State.nextSeq s).key = s.key := by
  unfold State.nextSeq
  with_reducible repeat' first | rfl | refine (State.modFc_key _ _ ?_).trans ?_ | (intro _; rfl)
theorem State.event_key (r : EvRec) : (State.event s r).key = s.key := by
  unfold State.event
  with_reducible repeat' first | rfl | refine (State.putGroup_key ..).trans ?_
theorem State.readFailed_key (k : HmKind) : (State.readFailed s k).key = s.key := by
  unfold State.readFailed
  with_reducible repeat' first | rfl | refine (State.complete_key ..).trans ?_ | refine (State.unreadTurn_key ..).trans ?_ | split
theorem State.haltRing_key (n : Nat) (err : BitVec 2) (cause : Nat) : (State.haltRing s n err cause).key = s.key := by
  unfold State.haltRing
  with_reducible repeat' first | rfl | refine ite_key ?_ ?_ | refine elim_key ?_ ?_ | refine (State.raiseNow_key ..).trans ?_ | refine (State.modRing_key ..).trans ?_ | refine (State.loseHeld_key ..).trans ?_ | refine (State.modEng_key ..).trans ?_ | refine (State.nextSeq_key ..).trans ?_ | refine (State.readFailed_key ..).trans ?_ | refine (State.event_key ..).trans ?_ | refine (foldl_key _ _ _ ?_).trans ?_ | (intro _ _) | (intro _) | dsimp only
theorem State.feedReplay_key (n_ : Nat) : (State.feedReplay s n_).key = s.key := by
  induction n_ generalizing s with
  | zero => rfl
  | succ k ih =>
    unfold State.feedReplay
    with_reducible repeat' first | refine (ih ..).trans ?_ | rfl | refine (State.modRing_key ..).trans ?_ | refine (State.modSync_key ..).trans ?_ | split | ((conv => (lhs; arg 1; whnf)); split)
theorem State.replayOn_key  : (State.replayOn s).key = s.key := by
  unfold State.replayOn
  with_reducible repeat' first | rfl | refine (State.feedReplay_key ..).trans ?_ | refine (State.flushCons_key ..).trans ?_ | refine (State.fetchMore_key ..).trans ?_
theorem State.dropReads_key (n : Nat) : (State.dropReads s n).key = s.key := by
  unfold State.dropReads
  with_reducible repeat' first | rfl | refine (State.modEng_key ..).trans ?_ | split | dsimp only
theorem State.setRingEn_key (n : Nat) (en : Bool) : (State.setRingEn s n en).key = s.key := by
  unfold State.setRingEn
  with_reducible repeat' first | rfl | refine ite_key ?_ ?_ | refine (State.dropReads_key ..).trans ?_ | refine (State.modRing_key ..).trans ?_ | refine (State.drainHeld_key ..).trans ?_ | refine (State.pumpDump_key ..).trans ?_ | refine (State.loseHeld_key ..).trans ?_ | dsimp only
theorem State.writeRingCtl_key (n : Nat) (w : Word) : (State.writeRingCtl s n w).key = s.key := by
  unfold State.writeRingCtl
  with_reducible repeat' first | rfl | refine ite_key ?_ ?_ | refine (State.rpErr_key ..).trans ?_ | refine (State.modRing_key ..).trans ?_ | refine (State.setRingEn_key ..).trans ?_ | refine (State.rpOk_key ..).trans ?_
theorem State.nudge_key (w : Word) : (State.nudge s w).key = s.key := by
  unfold State.nudge
  with_reducible repeat' first | rfl | refine ite_key ?_ ?_ | refine (State.readDoorbell_key ..).trans ?_ | refine (State.rpOk_key ..).trans ?_ | refine (foldl_key _ _ _ ?_).trans ?_ | (intro _ _)

-- Descriptors
theorem State.pull_key (u : Bool) (d : Desc) : (State.pull s u d).key = s.key := by
  unfold State.pull
  with_reducible repeat' first | rfl | refine (State.modRing_key ..).trans ?_ | refine (State.modEng_key ..).trans ?_ | refine (State.flushCons_key ..).trans ?_ | refine (State.fetchMore_key ..).trans ?_ | dsimp only
theorem State.ends_key (n : Nat) (st : Byte) : (State.ends s n st).key = s.key := by
  unfold State.ends
  with_reducible repeat' first | rfl | refine (State.complete_key ..).trans ?_
theorem State.launchLocal_key (d : Desc) (n : Nat) : (State.launchLocal s d n).key = s.key := by
  unfold State.launchLocal
  with_reducible repeat' first | rfl | refine ite_key ?_ ?_ | refine (State.ends_key ..).trans ?_ | refine (State.insert_key ..).trans ?_ | refine (State.lendFall_key ..).trans ?_ | split | dsimp only
theorem State.launchFabric_key (d : Desc) (n : Nat) : (State.launchFabric s d n).key = s.key := by
  unfold State.launchFabric
  with_reducible repeat' first | rfl | refine ite_key ?_ ?_ | refine (State.ends_key ..).trans ?_ | refine (State.takeLaunch_key ..).trans ?_ | refine (State.sendOn_key ..).trans ?_ | split | dsimp only
theorem State.cfgTrellis_key (level : Level) (a : CellAddr) (scope : Option Level) (ix : Nat) (v : BitVec 32) : (State.cfgTrellis s level a scope ix v).key = s.key := by
  unfold State.cfgTrellis
  with_reducible repeat' first | rfl | refine ite_key ?_ ?_ | refine (State.modTr_key ..).trans ?_ | split | dsimp only
theorem State.modTaken_key (n : Nat) (f : Taken → Taken) : (State.modTaken s n f).key = s.key := by
  unfold State.modTaken
  with_reducible repeat' first | rfl | refine (State.modEng_key ..).trans ?_
theorem State.readMembers_key (x : Taken) (first : Nat) : (State.readMembers s x first).key = s.key := by
  unfold State.readMembers
  with_reducible repeat' first | rfl | refine ite_key ?_ ?_ | refine (State.readFailed_key ..).trans ?_ | refine (State.hmIssue_key ..).trans ?_ | dsimp only
theorem State.sendOpen_key (x : Taken) (b : OpenBlock) : (State.sendOpen s x b).key = s.key := by
  unfold State.sendOpen
  with_reducible repeat' first | rfl | refine ite_key ?_ ?_ | refine (State.rootOpen_key ..).trans ?_ | refine (State.sendOn_key ..).trans ?_ | dsimp only
theorem State.openBlockRead_key (n : Nat) (lo hi : BitVec 512) : (State.openBlockRead s n lo hi).key = s.key := by
  unfold State.openBlockRead
  with_reducible repeat' first | rfl | refine ite_key ?_ ?_ | refine (State.ends_key ..).trans ?_ | refine (State.modTaken_key ..).trans ?_ | refine (State.readMembers_key ..).trans ?_ | split | dsimp only
theorem State.openHalf_key (n : Nat) (half : Bool) (data : BitVec 512) : (State.openHalf s n half data).key = s.key := by
  unfold State.openHalf
  with_reducible repeat' first | rfl | refine ite_key ?_ ?_ | refine (State.modTaken_key ..).trans ?_ | refine (State.openBlockRead_key ..).trans ?_ | refine (State.unreadTurn_key ..).trans ?_ | split
theorem State.membersRead_key (n first : Nat) (data : BitVec 512) : (State.membersRead s n first data).key = s.key := by
  unfold State.membersRead
  with_reducible repeat' first | rfl | refine ite_key ?_ ?_ | refine (State.stageEntry_key ..).trans ?_ | refine (State.sendOn_key ..).trans ?_ | refine (State.mirror_key ..).trans ?_ | refine (State.modTaken_key ..).trans ?_ | refine (State.readMembers_key ..).trans ?_ | refine (State.sendOpen_key ..).trans ?_ | refine (foldl_key _ _ _ ?_).trans ?_ | (intro _ _) | split | dsimp only
theorem State.parkFrom_key (d : Desc) (n : Nat) : (State.parkFrom s d n).key = s.key := by
  unfold State.parkFrom
  with_reducible repeat' first | rfl | refine ite_key ?_ ?_ | refine elim_key ?_ ?_ | refine (State.ends_key ..).trans ?_ | refine (State.drew_key ..).trans ?_ | refine (State.complete_key ..).trans ?_ | refine (State.takePark_key ..).trans ?_ | (intro _) | split | dsimp only

-- SyncRegs
theorem State.winNone_key  : (State.winNone s).key = s.key := by
  unfold State.winNone
  with_reducible repeat' first | rfl | refine (State.modSync_key ..).trans ?_ | refine (State.rpErr_key ..).trans ?_
theorem State.winPost_key (o : BitVec 12) (op : Byte) (operand : BitVec 32) : (State.winPost s o op operand).key = s.key := by
  unfold State.winPost
  with_reducible repeat' first | rfl | refine ite_key ?_ ?_ | refine (State.winNone_key ..).trans ?_ | refine (State.rpErr_key ..).trans ?_ | refine (State.rpOk_key ..).trans ?_ | refine (State.post_key ..).trans ?_ | split
theorem State.winCfg_key (o : BitVec 12) (w : Word) : (State.winCfg s o w).key = s.key := by
  unfold State.winCfg
  with_reducible repeat' first | rfl | refine ite_key ?_ ?_ | refine (State.applyPosts_key ..).trans ?_ | refine (State.winNone_key ..).trans ?_ | refine (State.rpErr_key ..).trans ?_ | refine (State.dropTimerWake_key ..).trans ?_ | refine (State.setObj_key ..).trans ?_ | refine (State.rpOk_key ..).trans ?_ | split | dsimp only
theorem State.winTimeout_key (o : BitVec 12) (w : Word) : (State.winTimeout s o w).key = s.key := by
  unfold State.winTimeout
  with_reducible repeat' first | rfl | refine ite_key ?_ ?_ | refine (State.applyPosts_key ..).trans ?_ | refine (State.winNone_key ..).trans ?_ | refine (State.rpErr_key ..).trans ?_ | refine (State.setObj_key ..).trans ?_ | refine (State.rpOk_key ..).trans ?_ | split | dsimp only
theorem State.writeSoWin_key (w : Word) : (State.writeSoWin s w).key = s.key := by
  unfold State.writeSoWin
  with_reducible repeat' first | rfl | refine ite_key ?_ ?_ | refine (State.modSync_key ..).trans ?_ | refine (State.rpOk_key ..).trans ?_ | dsimp only
theorem State.writeBsCtl_key (w : Word) : (State.writeBsCtl s w).key = s.key := by
  unfold State.writeBsCtl
  with_reducible repeat' first | rfl | refine ite_key ?_ ?_ | refine (State.modBand_key ..).trans ?_ | refine (State.rpOk_key ..).trans ?_
theorem State.writeBsLoad_key (w : Word) : (State.writeBsLoad s w).key = s.key := by
  unfold State.writeBsLoad
  with_reducible repeat' first | rfl | refine ite_key ?_ ?_ | refine (State.modBand_key ..).trans ?_ | refine (State.rpOk_key ..).trans ?_
theorem State.writeDgCtl_key (w : Word) : (State.writeDgCtl s w).key = s.key := by
  unfold State.writeDgCtl
  with_reducible repeat' first | rfl | refine ite_key ?_ ?_ | refine (State.rpErr_key ..).trans ?_ | refine (State.modSync_key ..).trans ?_ | refine (State.rpOk_key ..).trans ?_ | dsimp only
theorem State.writeDgStat2_key (w : Word) : (State.writeDgStat2 s w).key = s.key := by
  unfold State.writeDgStat2
  with_reducible repeat' first | rfl | refine ite_key ?_ ?_ | refine (State.modSync_key ..).trans ?_ | refine (State.rpOk_key ..).trans ?_
theorem State.writeLayerHi_key (w : Word) : (State.writeLayerHi s w).key = s.key := by
  unfold State.writeLayerHi
  with_reducible repeat' first | rfl | refine (State.modSync_key ..).trans ?_ | refine (State.rpErr_key ..).trans ?_ | refine (State.modCtx_key ..).trans ?_ | refine (State.rpOk_key ..).trans ?_ | split

-- Grotto
theorem State.lgSend_key (cmd : Byte) (addr : Option Nat) (page : Option Page) : (State.lgSend s cmd addr page).key = s.key := by
  unfold State.lgSend
  with_reducible repeat' first | rfl | refine (State.emit_key ..).trans ?_
theorem State.lgProgram_key (addr : Nat) (p : Page) : (State.lgProgram s addr p).key = s.key := by
  unfold State.lgProgram
  with_reducible repeat' first | rfl | refine (State.lgSend_key ..).trans ?_
theorem State.lgErase_key (sector : Nat) : (State.lgErase s sector).key = s.key := by
  unfold State.lgErase
  with_reducible repeat' first | rfl | refine (State.lgSend_key ..).trans ?_
theorem State.lgRead_key (addr : Nat) : (State.lgRead s addr).key = s.key := by
  unfold State.lgRead
  with_reducible repeat' first | rfl | refine (State.lgSend_key ..).trans ?_
theorem State.beforeRecord_key  : (State.beforeRecord s).key = s.key := by
  unfold State.beforeRecord
  with_reducible repeat' first | rfl | refine ite_key ?_ ?_ | refine (State.modGate_key ..).trans ?_ | refine (State.modLg_key ..).trans ?_ | refine (State.raiseNow_key ..).trans ?_ | dsimp only
theorem State.startRecord_key (j : Job) : (State.startRecord s j).key = s.key := by
  unfold State.startRecord
  with_reducible repeat' first | rfl | refine (State.beforeRecord_key ..).trans ?_ | refine (State.modLg_key ..).trans ?_ | refine (State.lgProgram_key ..).trans ?_ | split | dsimp only
theorem State.loseSvc_key (q : SvcReq) : (State.loseSvc s q).key = s.key := by
  unfold State.loseSvc
  with_reducible repeat' first | rfl | refine elim_key ?_ ?_ | refine (State.modLg_key ..).trans ?_ | refine (State.raiseNow_key ..).trans ?_ | refine (State.complete_key ..).trans ?_ | (intro _) | dsimp only
theorem State.startJob_key  : (State.startJob s).key = s.key := by
  unfold State.startJob
  with_reducible repeat' first | rfl | refine ite_key ?_ ?_ | refine (State.startRecord_key ..).trans ?_ | refine (State.loseSvc_key ..).trans ?_ | refine (State.modLg_key ..).trans ?_ | refine (foldl_key _ _ _ ?_).trans ?_ | (intro _ _) | split | dsimp only
theorem State.startOdo_key  : (State.startOdo s).key = s.key := by
  unfold State.startOdo
  with_reducible repeat' first | rfl | refine ite_key ?_ ?_ | refine (State.modLg_key ..).trans ?_ | refine (State.startRecord_key ..).trans ?_
theorem State.svc_key (code : BitVec 16) (note : BitVec 256) (desc : Option Nat) : (State.svc s code note desc).key = s.key := by
  unfold State.svc
  with_reducible repeat' first | rfl | refine ite_key ?_ ?_ | refine (State.modLg_key ..).trans ?_ | refine (State.startJob_key ..).trans ?_
theorem State.tookPage_key (j : Job) (p : Page) : (State.tookPage s j p).key = s.key := by
  unfold State.tookPage
  with_reducible repeat' first | rfl | refine ite_key ?_ ?_ | refine elim_key ?_ ?_ | refine (State.lgRead_key ..).trans ?_ | refine (State.modLg_key ..).trans ?_ | refine (State.lgErase_key ..).trans ?_ | (intro _) | dsimp only
theorem State.recordDone_key (j : Job) : (State.recordDone s j).key = s.key := by
  unfold State.recordDone
  with_reducible repeat' first | rfl | refine elim_key ?_ ?_ | refine (State.tookPage_key ..).trans ?_ | refine (State.modLg_key ..).trans ?_ | refine (State.svc_key ..).trans ?_ | refine (State.complete_key ..).trans ?_ | (intro _) | split | dsimp only
theorem State.nextPage_key (j : Job) : (State.nextPage s j).key = s.key := by
  unfold State.nextPage
  with_reducible repeat' first | rfl | refine (State.lgProgram_key ..).trans ?_
theorem State.recordFailed_key (j : Job) : (State.recordFailed s j).key = s.key := by
  unfold State.recordFailed
  with_reducible repeat' first | rfl | refine ite_key ?_ ?_ | refine elim_key ?_ ?_ | refine (State.tookPage_key ..).trans ?_ | refine (State.modLg_key ..).trans ?_ | refine (State.svc_key ..).trans ?_ | refine (State.complete_key ..).trans ?_ | refine (State.nextPage_key ..).trans ?_ | refine (State.raiseNow_key ..).trans ?_ | refine (State.loseSvc_key ..).trans ?_ | (intro _) | split | dsimp only
theorem State.pageDone_key (ok : Bool) : (State.pageDone s ok).key = s.key := by
  unfold State.pageDone
  with_reducible repeat' first | rfl | refine ite_key ?_ ?_ | refine (State.recordDone_key ..).trans ?_ | refine (State.startJob_key ..).trans ?_ | refine (State.recordFailed_key ..).trans ?_ | split
theorem State.eraseDone_key  : (State.eraseDone s).key = s.key := by
  unfold State.eraseDone
  with_reducible repeat' first | rfl | refine (State.modLg_key ..).trans ?_ | refine (State.startJob_key ..).trans ?_ | split
theorem State.drainLedger_key  : (State.drainLedger s).key = s.key := by
  unfold State.drainLedger
  with_reducible repeat' first | rfl | refine (State.drew_key ..).trans ?_ | refine (State.eraseDone_key ..).trans ?_ | refine (State.pageDone_key ..).trans ?_ | refine (State.modLg_key ..).trans ?_ | refine (State.startJob_key ..).trans ?_ | refine (foldl_key _ _ _ ?_).trans ?_ | (intro _ _)
theorem State.grottoPfail_key  : (State.grottoPfail s).key = s.key := by
  unfold State.grottoPfail
  with_reducible repeat' first | rfl | refine elim_key ?_ ?_ | refine (State.odoCount_key ..).trans ?_ | refine (State.modLg_key ..).trans ?_ | refine (State.complete_key ..).trans ?_ | refine (foldl_key _ _ _ ?_).trans ?_ | (intro _ _) | (intro _) | dsimp only
theorem State.writeLgCtl_key (w : Word) : (State.writeLgCtl s w).key = s.key := by
  unfold State.writeLgCtl
  with_reducible repeat' first | rfl | refine ite_key ?_ ?_ | refine elim_key ?_ ?_ | refine (State.modLg_key ..).trans ?_ | refine (State.rpOk_key ..).trans ?_ | refine (State.startJob_key ..).trans ?_ | (intro _) | dsimp only
theorem State.writeLgCfg_key (w : Word) : (State.writeLgCfg s w).key = s.key := by
  unfold State.writeLgCfg
  with_reducible repeat' first | rfl | refine ite_key ?_ ?_ | refine (State.modLg_key ..).trans ?_ | refine (State.rpOk_key ..).trans ?_ | refine (State.rpErr_key ..).trans ?_
theorem State.writeLgStat_key (w : Word) : (State.writeLgStat s w).key = s.key := by
  unfold State.writeLgStat
  with_reducible repeat' first | rfl | refine ite_key ?_ ?_ | refine (State.modLg_key ..).trans ?_ | refine (State.rpOk_key ..).trans ?_
theorem State.scanFlash_key  : (State.scanFlash s).key = s.key := by
  unfold State.scanFlash
  with_reducible repeat' first | rfl | refine ite_key ?_ ?_ | refine elim_key ?_ ?_ | refine (State.raiseNow_key ..).trans ?_ | refine (State.modLg_key ..).trans ?_ | refine (State.svc_key ..).trans ?_ | refine (State.modGate_key ..).trans ?_ | refine (State.modHs_key ..).trans ?_ | refine (State.startJob_key ..).trans ?_ | refine (foldl_key _ _ _ ?_).trans ?_ | (intro _ _) | (intro _) | dsimp only
theorem State.writeRdSel_key (w : Word) : (State.writeRdSel s w).key = s.key := by
  unfold State.writeRdSel
  with_reducible repeat' first | rfl | refine ite_key ?_ ?_ | refine elim_key ?_ ?_ | refine (State.rpErr_key ..).trans ?_ | refine (State.modLg_key ..).trans ?_ | refine (State.lgRead_key ..).trans ?_ | refine (State.rpOk_key ..).trans ?_ | (intro _) | dsimp only

-- Health
theorem State.modScore_key (i : Nat) (f : Score → Score) : (State.modScore s i f).key = s.key := by
  unfold State.modScore
  with_reducible repeat' first | rfl | refine (State.modHs_key ..).trans ?_
theorem State.advise_key (i : Nat) (x : Score) : (State.advise s i x).key = s.key := by
  unfold State.advise
  with_reducible repeat' first | rfl | refine ite_key ?_ ?_ | refine (State.raiseNow_key ..).trans ?_ | refine (State.send_key ..).trans ?_ | split | dsimp only
theorem State.evalOne_key (i : Nat) : (State.evalOne s i).key = s.key := by
  unfold State.evalOne
  with_reducible repeat' first | rfl | refine ite_key ?_ ?_ | refine (State.modScore_key ..).trans ?_ | refine (State.advise_key ..).trans ?_ | dsimp only
theorem State.evaluate_key  : (State.evaluate s).key = s.key := by
  unfold State.evaluate
  with_reducible repeat' first | rfl | refine ite_key ?_ ?_ | refine (State.modHs_key ..).trans ?_
theorem State.settleVerdicts_key  : (State.settleVerdicts s).key = s.key := by
  unfold State.settleVerdicts
  with_reducible repeat' first | rfl | refine ite_key ?_ ?_ | refine (State.evalOne_key ..).trans ?_ | refine (State.modHs_key ..).trans ?_ | refine (foldl_key _ _ _ ?_).trans ?_ | (intro _ _)
theorem State.charge_key (i n : Nat) : (State.charge s i n).key = s.key := by
  unfold State.charge
  with_reducible repeat' first | rfl | refine ite_key ?_ ?_ | refine (State.modScore_key ..).trans ?_
theorem State.chargeHard_key (i : Nat) (code : BitVec 16) : (State.chargeHard s i code).key = s.key := by
  unfold State.chargeHard
  with_reducible repeat' first | rfl | refine ite_key ?_ ?_ | refine (State.modScore_key ..).trans ?_ | refine (State.svc_key ..).trans ?_ | refine (State.evaluate_key ..).trans ?_ | dsimp only
theorem State.chargeFault_key (code : BitVec 16) (loc : BitVec 24) (det : BitVec 64) : (State.chargeFault s code loc det).key = s.key := by
  unfold State.chargeFault
  with_reducible repeat' first | rfl | refine ite_key ?_ ?_ | refine (State.linkUnits_key ..).trans ?_ | refine (State.charge_key ..).trans ?_ | refine (State.chargeHard_key ..).trans ?_ | dsimp only
theorem State.writeSpares_key (w : Word) : (State.writeSpares s w).key = s.key := by
  unfold State.writeSpares
  with_reducible repeat' first | rfl | refine (State.modHs_key ..).trans ?_ | refine (State.evaluate_key ..).trans ?_ | refine (State.rpOk_key ..).trans ?_
theorem State.writeFloor_key (w : Word) : (State.writeFloor s w).key = s.key := by
  unfold State.writeFloor
  with_reducible repeat' first | rfl | refine (State.modHs_key ..).trans ?_ | refine (State.evaluate_key ..).trans ?_ | refine (State.rpOk_key ..).trans ?_
theorem State.clearHard_key  : (State.clearHard s).key = s.key := by
  unfold State.clearHard
  with_reducible repeat' first | rfl | refine ite_key ?_ ?_ | refine (State.modScore_key ..).trans ?_ | refine (State.svc_key ..).trans ?_ | refine (foldl_key _ _ _ ?_).trans ?_ | (intro _ _)
theorem State.writeHsCtl_key (w : Word) : (State.writeHsCtl s w).key = s.key := by
  unfold State.writeHsCtl
  with_reducible repeat' first | rfl | refine ite_key ?_ ?_ | refine (State.rpErr_key ..).trans ?_ | refine (State.modHs_key ..).trans ?_ | refine (State.clearHard_key ..).trans ?_ | refine (State.rpOk_key ..).trans ?_ | dsimp only
theorem State.writeHalflife_key (w : Word) : (State.writeHalflife s w).key = s.key := by
  unfold State.writeHalflife
  with_reducible repeat' first | rfl | refine ite_key ?_ ?_ | refine (State.modHs_key ..).trans ?_ | refine (State.rpOk_key ..).trans ?_ | dsimp only
theorem State.takeHealth_key (p : PortNo) (m : HealthMsg) : (State.takeHealth s p m).key = s.key := by
  unfold State.takeHealth
  with_reducible repeat' first | rfl | refine ite_key ?_ ?_ | refine (State.modPort_key ..).trans ?_ | refine (State.drew_key ..).trans ?_ | refine (State.raiseNow_key ..).trans ?_ | refine (State.send_key ..).trans ?_ | split | dsimp only

-- Gatehouse
theorem State.ghEnd_key (r : BitVec 4) : (State.ghEnd s r).key = s.key := by
  unfold State.ghEnd
  with_reducible repeat' first | rfl | refine (State.modGate_key ..).trans ?_ | refine (State.rpOk_key ..).trans ?_
theorem State.ghUse_key  : (State.ghUse s).key = s.key := by
  unfold State.ghUse
  with_reducible repeat' first | rfl | refine (State.modGate_key ..).trans ?_
theorem State.endSession_key (dest : Life) : (State.endSession s dest).key = s.key := by
  unfold State.endSession
  with_reducible repeat' first | rfl | refine ite_key ?_ ?_ | refine (State.modPw_key _ _ ?_).trans ?_ | refine (State.modBv_key ..).trans ?_ | refine (State.modGate_key ..).trans ?_ | (intro _; rfl) | dsimp only
theorem State.ghFail_key  : (State.ghFail s).key = s.key := by
  unfold State.ghFail
  with_reducible repeat' first | rfl | refine ite_key ?_ ?_ | refine (State.modGate_key ..).trans ?_ | refine (State.raiseNow_key ..).trans ?_ | refine (State.svc_key ..).trans ?_ | refine (State.ghEnd_key ..).trans ?_ | dsimp only
theorem State.ghChal_key  : (State.ghChal s).key = s.key := by
  unfold State.ghChal
  with_reducible repeat' first | rfl | refine ite_key ?_ ?_ | refine (State.ghEnd_key ..).trans ?_ | refine (State.modGate_key ..).trans ?_
theorem State.ghOpen_key (scope : BitVec 3) : (State.ghOpen s scope).key = s.key := by
  unfold State.ghOpen
  with_reducible repeat' first | rfl | refine ite_key ?_ ?_ | refine (State.ghEnd_key ..).trans ?_ | refine (State.ghUse_key ..).trans ?_ | refine (State.ghFail_key ..).trans ?_ | refine (State.modGate_key ..).trans ?_ | refine (State.svc_key ..).trans ?_ | split | dsimp only
theorem State.closeSession_key (reason : Nat) : (State.closeSession s reason).key = s.key := by
  unfold State.closeSession
  with_reducible repeat' first | rfl | refine (State.svc_key ..).trans ?_ | refine (State.endSession_key ..).trans ?_
theorem State.ghExit_key  : (State.ghExit s).key = s.key := by
  unfold State.ghExit
  with_reducible repeat' first | rfl | refine ite_key ?_ ?_ | refine (State.ghEnd_key ..).trans ?_ | refine (State.closeSession_key ..).trans ?_
theorem State.ghRekey_key  : (State.ghRekey s).key = s.key := by
  unfold State.ghRekey
  with_reducible repeat' first | rfl | refine ite_key ?_ ?_ | refine (State.ghEnd_key ..).trans ?_ | refine (State.ghUse_key ..).trans ?_ | refine (State.modGate_key ..).trans ?_ | split | dsimp only
theorem State.headerWritten_key (a : Bool) (p : Page) : (State.headerWritten s a p).key = s.key := by
  unfold State.headerWritten
  with_reducible repeat' first | rfl | refine ite_key ?_ ?_ | refine (State.lgErase_key ..).trans ?_ | refine (State.lgProgram_key ..).trans ?_ | refine (State.lgRead_key ..).trans ?_ | refine (State.drew_key ..).trans ?_ | refine (State.modLg_key ..).trans ?_ | dsimp only
theorem State.headerFailed_key (a : Bool) : (State.headerFailed s a).key = s.key := by
  unfold State.headerFailed
  with_reducible repeat' first | rfl | refine (State.headerWritten_key ..).trans ?_ | refine (State.modLg_key ..).trans ?_ | refine (State.modGate_key ..).trans ?_ | refine (State.ghEnd_key ..).trans ?_ | dsimp only
theorem State.ghConfirm_key  : (State.ghConfirm s).key = s.key := by
  unfold State.ghConfirm
  with_reducible repeat' first | rfl | refine ite_key ?_ ?_ | refine (State.ghEnd_key ..).trans ?_ | refine (State.modGate_key ..).trans ?_ | refine (State.ghUse_key ..).trans ?_ | refine (State.ghFail_key ..).trans ?_ | refine (State.beforeRecord_key ..).trans ?_ | refine (State.headerFailed_key ..).trans ?_ | refine (State.headerWritten_key ..).trans ?_ | refine (State.svc_key ..).trans ?_ | refine (State.endSession_key ..).trans ?_ | split | dsimp only
theorem State.ghRetire_key  : (State.ghRetire s).key = s.key := by
  unfold State.ghRetire
  with_reducible repeat' first | rfl | refine ite_key ?_ ?_ | refine (State.ghEnd_key ..).trans ?_ | refine (State.svc_key ..).trans ?_ | refine (State.drainLedger_key ..).trans ?_ | refine (State.modLg_key ..).trans ?_ | refine (State.lgProgram_key ..).trans ?_ | refine (State.modGate_key ..).trans ?_ | refine (State.endSession_key ..).trans ?_ | dsimp only
theorem State.ghShip_key  : (State.ghShip s).key = s.key := by
  unfold State.ghShip
  with_reducible repeat' first | rfl | refine ite_key ?_ ?_ | refine (State.ghEnd_key ..).trans ?_ | refine (State.beforeRecord_key ..).trans ?_ | refine (State.headerFailed_key ..).trans ?_ | refine (State.headerWritten_key ..).trans ?_ | refine (State.modGate_key ..).trans ?_ | refine (State.svc_key ..).trans ?_ | dsimp only
theorem State.ghFuseId_key  : (State.ghFuseId s).key = s.key := by
  unfold State.ghFuseId
  with_reducible repeat' first | rfl | refine ite_key ?_ ?_ | refine (State.ghEnd_key ..).trans ?_ | refine (State.modGate_key ..).trans ?_ | dsimp only
theorem State.ghFuseKey_key  : (State.ghFuseKey s).key = s.key := by
  unfold State.ghFuseKey
  with_reducible repeat' first | rfl | refine ite_key ?_ ?_ | refine (State.ghEnd_key ..).trans ?_ | refine (State.lgErase_key ..).trans ?_ | refine (State.modGate_key ..).trans ?_ | refine (State.modLg_key ..).trans ?_ | refine (State.svc_key ..).trans ?_ | refine (foldl_key _ _ _ ?_).trans ?_ | (intro _ _) | dsimp only
theorem State.writeGhCmd_key (w : Word) : (State.writeGhCmd s w).key = s.key := by
  unfold State.writeGhCmd
  with_reducible repeat' first | rfl | refine ite_key ?_ ?_ | refine (State.ghChal_key ..).trans ?_ | refine (State.ghOpen_key ..).trans ?_ | refine (State.ghExit_key ..).trans ?_ | refine (State.ghRekey_key ..).trans ?_ | refine (State.ghRetire_key ..).trans ?_ | refine (State.ghShip_key ..).trans ?_ | refine (State.ghConfirm_key ..).trans ?_ | refine (State.ghFuseId_key ..).trans ?_ | refine (State.ghFuseKey_key ..).trans ?_ | refine (State.ghEnd_key ..).trans ?_ | dsimp only
theorem State.writeResp_key (k : Nat) (w : Word) : (State.writeResp s k w).key = s.key := by
  unfold State.writeResp
  with_reducible repeat' first | rfl | refine (State.modGate_key ..).trans ?_ | refine (State.rpOk_key ..).trans ?_ | dsimp only

-- Faults
theorem State.touch_key (r : Report) (t : PTag) : (State.touch s r t).key = s.key := by
  unfold State.touch
  with_reducible repeat' first | rfl | refine ite_key ?_ ?_ | refine (State.sendOn_key ..).trans ?_ | refine (State.faultPart_key ..).trans ?_ | split | dsimp only
theorem State.trySafe_key  : (State.trySafe s).key = s.key := by
  unfold State.trySafe
  with_reducible repeat' first | rfl | refine ite_key ?_ ?_ | refine (State.ends_key ..).trans ?_ | refine (State.modFc_key _ _ ?_).trans ?_ | refine (State.nextSeq_key ..).trans ?_ | refine (State.event_key ..).trans ?_ | (intro _; rfl) | dsimp only
theorem State.silence_key  : (State.silence s).key = s.key := by
  unfold State.silence
  with_reducible repeat' first | rfl | refine ite_key ?_ ?_ | refine (State.modPorts_key _ _ ?_).trans ?_ | exact length_map | exact length_modify
theorem State.faultDetail_key (r : Report) (ev : EvRec) : (State.faultDetail s r ev).key = s.key := by
  unfold State.faultDetail
  with_reducible repeat' first | rfl | refine (State.modFc_key _ _ ?_).trans ?_ | refine (State.putGroup_key ..).trans ?_ | (intro _; rfl) | split
theorem State.hush_key  : (State.hush s).key = s.key := by
  unfold State.hush
  with_reducible repeat' first | rfl | refine (State.modEng_key ..).trans ?_

-- Firmware
theorem State.dropImageReads_key  : (State.dropImageReads s).key = s.key := by
  unfold State.dropImageReads
  with_reducible repeat' first | rfl | refine (State.modEng_key ..).trans ?_ | split | dsimp only
theorem State.imageAsk_key (core : Bool) : (State.imageAsk s core).key = s.key := by
  unfold State.imageAsk
  with_reducible repeat' first | rfl | refine ite_key ?_ ?_ | refine elim_key ?_ ?_ | refine (State.modFw_key ..).trans ?_ | refine (State.hmIssue_key ..).trans ?_ | (intro _)
theorem State.imageFetch_key (n0_ : Nat) : (State.imageFetch s n0_).key = s.key := by
  induction n0_ generalizing s with
  | zero => rfl
  | succ k ih =>
    unfold State.imageFetch
    with_reducible repeat' first | refine (ih ..).trans ?_ | rfl | refine (State.imageAsk_key ..).trans ?_ | split
theorem State.writeFw_key (f : Firmware → Firmware) : (State.writeFw s f).key = s.key := by
  unfold State.writeFw
  with_reducible repeat' first | rfl | refine ite_key ?_ ?_ | refine (State.rpErr_key ..).trans ?_ | refine (State.modFw_key ..).trans ?_ | refine (State.rpOk_key ..).trans ?_
theorem State.fwReset_key  : (State.fwReset s).key = s.key := by
  unfold State.fwReset
  with_reducible repeat' first | rfl | refine (State.modFw_key ..).trans ?_ | refine (State.dropImageReads_key ..).trans ?_
theorem State.calibrated_key (failed : Option Byte) : (State.calibrated s failed).key = s.key := by
  unfold State.calibrated
  with_reducible repeat' first | rfl | refine (State.modFw_key ..).trans ?_ | refine (State.drew_key ..).trans ?_ | refine (State.raiseNow_key ..).trans ?_ | split | dsimp only

-- Power
theorem State.modDom_key (d : Nat) (f : Domain → Domain) : (State.modDom s d f).key = s.key := by
  unfold State.modDom
  with_reducible repeat' first | rfl | refine (State.modPw_key _ _ ?_).trans ?_ | exact modify_core
theorem State.orgOff_key  : (State.orgOff s).key = s.key := by
  unfold State.orgOff
  with_reducible repeat' first | rfl | refine ite_key ?_ ?_ | refine (State.enterHoldover_key ..).trans ?_ | refine (State.modOrg_key ..).trans ?_ | dsimp only
theorem State.healthOff_key  : (State.healthOff s).key = s.key := by
  unfold State.healthOff
  with_reducible repeat' first | rfl | refine (State.modHs_key ..).trans ?_
theorem State.syncOff_key  : (State.syncOff s).key = s.key := by
  unfold State.syncOff
  with_reducible repeat' first | rfl | refine (State.modCtx0_key ..).trans ?_ | refine (State.modCtx1_key ..).trans ?_ | refine (State.modSync_key ..).trans ?_
theorem State.combineOff_key  : (State.combineOff s).key = s.key := by
  unfold State.combineOff
  with_reducible repeat' first | rfl | refine (State.modFab_key ..).trans ?_
theorem State.bandOff_key  : (State.bandOff s).key = s.key := by
  unfold State.bandOff
  with_reducible repeat' first | rfl | refine (State.modBand_key ..).trans ?_ | refine (State.modTr_key ..).trans ?_ | refine (State.modPins_key _ _ ?_).trans ?_ | (intro _; rfl) | dsimp only
theorem State.belvedereOff_key  : (State.belvedereOff s).key = s.key := by
  unfold State.belvedereOff
  with_reducible repeat' first | rfl | refine (State.modBv_key ..).trans ?_ | refine (State.modEng_key ..).trans ?_ | refine (State.endDump_key ..).trans ?_ | refine (State.modCtx0_key ..).trans ?_ | refine (State.modCtx1_key ..).trans ?_ | dsimp only
theorem State.startWake_key (d : Nat) : (State.startWake s d).key = s.key := by
  unfold State.startWake
  with_reducible repeat' first | rfl | refine (State.modDom_key ..).trans ?_
theorem State.domIsOff_key (d : Nat) : (State.domIsOff s d).key = s.key := by
  unfold State.domIsOff
  with_reducible repeat' first | rfl | refine ite_key ?_ ?_ | refine (State.modDom_key ..).trans ?_ | refine (State.startWake_key ..).trans ?_ | dsimp only
theorem State.writePdStat_key (d : Nat) (w : Word) : (State.writePdStat s d w).key = s.key := by
  unfold State.writePdStat
  with_reducible repeat' first | rfl | refine ite_key ?_ ?_ | refine (State.rpErr_key ..).trans ?_ | refine (State.modDom_key ..).trans ?_ | refine (State.rpOk_key ..).trans ?_
theorem State.writePfailCtl_key (w : Word) : (State.writePfailCtl s w).key = s.key := by
  unfold State.writePfailCtl
  with_reducible repeat' first | rfl | refine ite_key ?_ ?_ | refine (State.modPw_key _ _ ?_).trans ?_ | refine (State.rpOk_key ..).trans ?_ | (intro _; rfl) | dsimp only
theorem State.writeEnvCtl_key (w : Word) : (State.writeEnvCtl s w).key = s.key := by
  unfold State.writeEnvCtl
  with_reducible repeat' first | rfl | refine ite_key ?_ ?_ | refine (State.rpOk_key ..).trans ?_ | refine (State.rpErr_key ..).trans ?_ | refine (State.modBand_key ..).trans ?_
theorem State.writeLendCtl_key (w : Word) : (State.writeLendCtl s w).key = s.key := by
  unfold State.writeLendCtl
  with_reducible repeat' first | rfl | refine ite_key ?_ ?_ | refine (State.rpOk_key ..).trans ?_ | refine (State.modBand_key ..).trans ?_ | refine (State.lendFall_key ..).trans ?_
theorem State.writeOwner_key (b : Nat) (code : BitVec 4) : (State.writeOwner s b code).key = s.key := by
  unfold State.writeOwner
  with_reducible repeat' first | rfl | refine ite_key ?_ ?_ | refine (State.rpErr_key ..).trans ?_ | refine (State.modPw_key _ _ ?_).trans ?_ | refine (State.rpOk_key ..).trans ?_ | (intro _; rfl) | dsimp only

-- HostMem
theorem State.doorbellRead_key (n : BitVec 3) (data : BitVec 512) : (State.doorbellRead s n data).key = s.key := by
  unfold State.doorbellRead
  with_reducible repeat' first | rfl | refine ite_key ?_ ?_ | refine (State.haltRing_key ..).trans ?_ | refine (State.modRing_key ..).trans ?_ | refine (State.fetchMore_key ..).trans ?_ | refine (State.drainHeld_key ..).trans ?_ | refine (State.loseHeld_key ..).trans ?_ | refine (State.pumpDump_key ..).trans ?_ | dsimp only
theorem State.entryRead_key (n : BitVec 3) (ix : BitVec 32) (data : BitVec 512) : (State.entryRead s n ix data).key = s.key := by
  unfold State.entryRead
  with_reducible repeat' first | rfl | refine ite_key ?_ ?_ | refine (State.modRing_key ..).trans ?_ | refine (State.replayOn_key ..).trans ?_ | dsimp only
theorem State.recordWritten_key (n : BitVec 3) (num : Option Nat) : (State.recordWritten s n num).key = s.key := by
  unfold State.recordWritten
  with_reducible repeat' first | rfl | refine ite_key ?_ ?_ | refine elim_key ?_ ?_ | refine (State.modEng_key ..).trans ?_ | refine (State.flushProd_key ..).trans ?_ | refine (State.flushEnds_key ..).trans ?_ | refine (State.trySafe_key ..).trans ?_ | refine (State.endDump_key ..).trans ?_ | (intro _) | dsimp only

-- Capture
theorem State.foldEdge_key (n : BitVec 3) (falling : Bool) (stamp : HT80) : (State.foldEdge s n falling stamp).key = s.key := by
  unfold State.foldEdge
  with_reducible repeat' first | rfl | refine ite_key ?_ ?_ | refine (State.modCtx_key ..).trans ?_ | split
theorem State.takeEdge_key (n : BitVec 3) (falling : Bool) (stamp : HT80) : (State.takeEdge s n falling stamp).key = s.key := by
  unfold State.takeEdge
  with_reducible repeat' first | rfl | refine ite_key ?_ ?_ | refine (State.modSync_key ..).trans ?_ | refine (State.modCapIn_key ..).trans ?_ | refine (State.foldEdge_key ..).trans ?_ | dsimp only
theorem State.settleEdges_key  : (State.settleEdges s).key = s.key := by
  unfold State.settleEdges
  with_reducible repeat' first | rfl | refine (State.takeEdge_key ..).trans ?_ | refine (State.modCapIn_key ..).trans ?_ | refine (foldl_key _ _ _ ?_).trans ?_ | (intro _ _)
theorem State.writeCapCtl_key (n : Nat) (w : Word) : (State.writeCapCtl s n w).key = s.key := by
  unfold State.writeCapCtl
  with_reducible repeat' first | rfl | refine ite_key ?_ ?_ | refine (State.rpErr_key ..).trans ?_ | refine (State.modCapIn_key ..).trans ?_ | refine (State.stopWindow_key ..).trans ?_ | refine (State.rpOk_key ..).trans ?_ | dsimp only
theorem State.writeCapThresh_key (n : Nat) (w : Word) : (State.writeCapThresh s n w).key = s.key := by
  unfold State.writeCapThresh
  with_reducible repeat' first | rfl | refine ite_key ?_ ?_ | refine (State.modCapIn_key ..).trans ?_ | refine (State.rpOk_key ..).trans ?_
theorem State.readCapTs_key (n : Nat) : (State.readCapTs s n).key = s.key := by
  unfold State.readCapTs
  with_reducible repeat' first | rfl | refine (State.modCapIn_key ..).trans ?_ | refine (State.rpOk_key ..).trans ?_ | dsimp only
theorem State.writeBvCtl_key (w : Word) : (State.writeBvCtl s w).key = s.key := by
  unfold State.writeBvCtl
  with_reducible repeat' first | rfl | refine ite_key ?_ ?_ | refine (State.rpErr_key ..).trans ?_ | refine (State.modBv_key ..).trans ?_ | refine (State.rpOk_key ..).trans ?_ | dsimp only
theorem State.writeLaneCtl_key (w : Word) : (State.writeLaneCtl s w).key = s.key := by
  unfold State.writeLaneCtl
  with_reducible repeat' first | rfl | refine ite_key ?_ ?_ | refine (State.rpErr_key ..).trans ?_ | refine (State.modTst_key ..).trans ?_ | refine (State.rpOk_key ..).trans ?_ | dsimp only
theorem State.readLaneErr_key  : (State.readLaneErr s).key = s.key := by
  unfold State.readLaneErr
  with_reducible repeat' first | rfl | refine ite_key ?_ ?_ | refine (State.drew_key ..).trans ?_ | refine (State.modTst_key ..).trans ?_ | refine (State.rpOk_key ..).trans ?_ | dsimp only
theorem State.corePc_key (core : Bool) : (State.corePc s core).key = s.key := by
  unfold State.corePc
  with_reducible repeat' first | rfl | refine ite_key ?_ ?_ | refine (State.drew_key ..).trans ?_ | refine (State.modTst_key ..).trans ?_ | dsimp only
theorem State.writeCoreCtl_key (w : Word) : (State.writeCoreCtl s w).key = s.key := by
  unfold State.writeCoreCtl
  with_reducible repeat' first | rfl | refine ite_key ?_ ?_ | refine (State.rpErr_key ..).trans ?_ | refine (State.modTst_key ..).trans ?_ | refine (State.corePc_key ..).trans ?_ | refine (State.rpOk_key ..).trans ?_ | dsimp only
theorem State.readCorePc_key (core : Bool) : (State.readCorePc s core).key = s.key := by
  unfold State.readCorePc
  with_reducible repeat' first | rfl | refine ite_key ?_ ?_ | refine (State.corePc_key ..).trans ?_ | refine (State.rpOk_key ..).trans ?_ | dsimp only

-- Registers
theorem State.readNow_key  : (State.readNow s).key = s.key := by
  unfold State.readNow
  with_reducible repeat' first | rfl | refine (State.modSun_key ..).trans ?_ | refine (State.rpOk_key ..).trans ?_
theorem State.readOwner_key (a : Nat) : (State.readOwner s a).key = s.key := by
  unfold State.readOwner
  exact (State.rpOk_key ..).trans ((State.modPw_key _ _ fun _ => rfl).trans (State.drew_key _))
theorem State.readReg_key (a : Nat) : (State.readReg s a).key = s.key := by
  unfold State.readReg
  with_reducible repeat' first | rfl | refine ite_key ?_ ?_ | refine (State.rpErr_key ..).trans ?_ | refine (State.readNow_key ..).trans ?_ | refine (State.readCapTs_key ..).trans ?_ | refine (State.readOwner_key ..).trans ?_ | refine (State.readLaneErr_key ..).trans ?_ | refine (State.readCorePc_key ..).trans ?_ | refine (State.modRp_key ..).trans ?_ | refine (State.rpOk_key ..).trans ?_ | split | dsimp only
theorem State.writeSunCtl_key (w : Word) : (State.writeSunCtl s w).key = s.key := by
  unfold State.writeSunCtl
  with_reducible repeat' first | rfl | refine ite_key ?_ ?_ | refine (State.rpOk_key ..).trans ?_ | refine (State.loadSun_key ..).trans ?_ | refine (State.modSun_key ..).trans ?_ | refine (State.rpErr_key ..).trans ?_
theorem State.stageNow_key (k : Nat) (w : Word) : (State.stageNow s k w).key = s.key := by
  unfold State.stageNow
  with_reducible repeat' first | rfl | refine ite_key ?_ ?_ | refine (State.modSun_key ..).trans ?_ | refine (State.rpOk_key ..).trans ?_
theorem State.writeRefsel_key (w : Word) : (State.writeRefsel s w).key = s.key := by
  unfold State.writeRefsel
  with_reducible repeat' first | rfl | refine ite_key ?_ ?_ | refine (State.modOrg_key ..).trans ?_ | refine (State.runSelection_key ..).trans ?_ | refine (State.requalify_key ..).trans ?_ | refine (State.rpOk_key ..).trans ?_ | dsimp only
theorem State.writeRefqual_key (w : Word) : (State.writeRefqual s w).key = s.key := by
  unfold State.writeRefqual
  with_reducible repeat' first | rfl | refine (State.modOrg_key ..).trans ?_ | refine (State.rpOk_key ..).trans ?_
theorem State.writeAgree_key (w : Word) : (State.writeAgree s w).key = s.key := by
  unfold State.writeAgree
  with_reducible repeat' first | rfl | refine ite_key ?_ ?_ | refine (State.modOrg_key ..).trans ?_ | refine (State.rpOk_key ..).trans ?_ | dsimp only
theorem State.writeHoldWin_key (w : Word) : (State.writeHoldWin s w).key = s.key := by
  unfold State.writeHoldWin
  with_reducible repeat' first | rfl | refine ite_key ?_ ?_ | refine (State.modOrg_key ..).trans ?_ | refine (State.rpOk_key ..).trans ?_
theorem State.writeUtcOfs_key (w : Word) : (State.writeUtcOfs s w).key = s.key := by
  unfold State.writeUtcOfs
  with_reducible repeat' first | rfl | refine ite_key ?_ ?_ | refine (State.modOrg_key ..).trans ?_ | refine (State.sendOffers_key ..).trans ?_ | refine (State.rpOk_key ..).trans ?_
theorem State.writePrio_key (w : Word) : (State.writePrio s w).key = s.key := by
  unfold State.writePrio
  with_reducible repeat' first | rfl | refine ite_key ?_ ?_ | refine (State.modOrg_key ..).trans ?_ | refine (State.sendClaim_key ..).trans ?_ | refine (State.requalify_key ..).trans ?_ | refine (State.reelect_key ..).trans ?_ | refine (State.rpOk_key ..).trans ?_ | dsimp only
theorem State.writeOrg_key (a : Nat) (w : Word) : (State.writeOrg s a w).key = s.key := by
  unfold State.writeOrg
  with_reducible repeat' first | rfl | refine ite_key ?_ ?_ | refine (State.writeRefsel_key ..).trans ?_ | refine (State.writeRefqual_key ..).trans ?_ | refine (State.writeAccel_key ..).trans ?_ | refine (State.rpOk_key ..).trans ?_ | refine (State.writeAgree_key ..).trans ?_ | refine (State.writeHoldWin_key ..).trans ?_ | refine (State.writeUtcOfs_key ..).trans ?_ | refine (State.writePrio_key ..).trans ?_
theorem State.setTlEn_key (p : PortNo) (en : Bool) : (State.setTlEn s p en).key = s.key := by
  unfold State.setTlEn
  with_reducible repeat' first | rfl | refine ite_key ?_ ?_ | refine (State.modPort_key ..).trans ?_ | refine (State.enterSt_key ..).trans ?_ | refine (State.portExit_key ..).trans ?_ | dsimp only
theorem State.writeTlCtl_key (p : PortNo) (w : Word) : (State.writeTlCtl s p w).key = s.key := by
  unfold State.writeTlCtl
  with_reducible repeat' first | rfl | refine ite_key ?_ ?_ | refine (State.rpErr_key ..).trans ?_ | refine (State.modPort_key ..).trans ?_ | refine (State.setTlEn_key ..).trans ?_ | refine (State.portLost_key ..).trans ?_ | refine (State.recalibrate_key ..).trans ?_ | refine (State.keepParent_key ..).trans ?_ | refine (State.rpOk_key ..).trans ?_ | dsimp only
theorem State.writeLink_key (p : PortNo) (k : Nat) (w : Word) : (State.writeLink s p k w).key = s.key := by
  unfold State.writeLink
  with_reducible repeat' first | rfl | refine ite_key ?_ ?_ | refine (State.rpErr_key ..).trans ?_ | refine (State.writeTlCtl_key ..).trans ?_ | refine (State.modPort_key ..).trans ?_ | refine (State.rpOk_key ..).trans ?_
theorem State.writeRing_key (n k : Nat) (w : Word) : (State.writeRing s n k w).key = s.key := by
  unfold State.writeRing
  with_reducible repeat' first | rfl | refine ite_key ?_ ?_ | refine (State.rpErr_key ..).trans ?_ | refine (State.modRing_key ..).trans ?_ | refine (State.rpOk_key ..).trans ?_ | refine (State.writeRingCtl_key ..).trans ?_ | dsimp only
theorem State.writePoll_key (w : Word) : (State.writePoll s w).key = s.key := by
  unfold State.writePoll
  with_reducible repeat' first | rfl | refine ite_key ?_ ?_ | refine (State.modEng_key ..).trans ?_ | refine (State.rpOk_key ..).trans ?_ | dsimp only
theorem State.ifOn_key (d : Nat) (f : State → State) (h : ∀ t, (f t).key = t.key) : (State.ifOn s d f).key = s.key := by
  unfold State.ifOn
  exact ite_key (h s) (State.rpErr_key s)
theorem State.writeHealth_key (a : Nat) (w : Word) : (State.writeHealth s a w).key = s.key := by
  unfold State.writeHealth
  with_reducible repeat' first | rfl | refine ite_key ?_ ?_ | refine (State.writeHsCtl_key ..).trans ?_ | refine (State.writeHalflife_key ..).trans ?_ | refine (State.writeFloor_key ..).trans ?_ | refine (State.writeSpares_key ..).trans ?_ | refine (State.modHs_key ..).trans ?_ | refine (State.rpOk_key ..).trans ?_
theorem State.writeLedger_key (a : Nat) (w : Word) : (State.writeLedger s a w).key = s.key := by
  unfold State.writeLedger
  with_reducible repeat' first | rfl | refine ite_key ?_ ?_ | refine (State.writeLgCtl_key ..).trans ?_ | refine (State.writeLgCfg_key ..).trans ?_ | refine (State.writeLgStat_key ..).trans ?_ | refine (State.writeRdSel_key ..).trans ?_ | refine (State.rpOk_key ..).trans ?_
theorem State.writeGeom_key (bad : Bool) (f : Trellis → Trellis) : (State.writeGeom s bad f).key = s.key := by
  unfold State.writeGeom
  with_reducible repeat' first | rfl | refine ite_key ?_ ?_ | refine (State.rpErr_key ..).trans ?_ | refine (State.modTr_key ..).trans ?_ | refine (State.unseat_key ..).trans ?_ | refine (State.rpOk_key ..).trans ?_
theorem State.writeMap_key (down : Bool) (w : Word) : (State.writeMap s down w).key = s.key := by
  unfold State.writeMap
  with_reducible repeat' first | rfl | refine ite_key ?_ ?_ | refine (State.rpErr_key ..).trans ?_ | refine (State.modTr_key ..).trans ?_ | refine (State.access_key ..).trans ?_ | refine (State.rpOk_key ..).trans ?_ | dsimp only
theorem State.writeTrim_key (w : Word) : (State.writeTrim s w).key = s.key := by
  unfold State.writeTrim
  with_reducible repeat' first | rfl | refine ite_key ?_ ?_ | refine (State.rpErr_key ..).trans ?_ | refine (State.cfgTrellis_key ..).trans ?_ | refine (State.access_key ..).trans ?_ | refine (State.rpOk_key ..).trans ?_ | dsimp only
theorem State.writeTr_key (a : Nat) (w : Word) : (State.writeTr s a w).key = s.key := by
  unfold State.writeTr
  with_reducible repeat' first | rfl | refine ite_key ?_ ?_ | refine (State.writeTrCtl_key ..).trans ?_ | refine (State.writeGeom_key ..).trans ?_ | refine (State.writeMap_key ..).trans ?_ | refine (State.modTr_key ..).trans ?_ | refine (State.rpOk_key ..).trans ?_ | refine (State.writeTrim_key ..).trans ?_ | dsimp only
theorem State.writeTrellisPage_key (a : Nat) (w : Word) : (State.writeTrellisPage s a w).key = s.key := by
  unfold State.writeTrellisPage
  with_reducible repeat' first | rfl | refine ite_key ?_ ?_ | refine (State.rpErr_key ..).trans ?_ | refine State.ifOn_key _ _ _ ?_ | refine (State.writeTr_key ..).trans ?_ | refine (State.writeBsLoad_key ..).trans ?_ | refine (State.writeBsCtl_key ..).trans ?_ | refine (State.rpOk_key ..).trans ?_ | refine (State.writeSoWin_key ..).trans ?_ | refine (State.writeDgCtl_key ..).trans ?_ | refine (State.modSync_key ..).trans ?_ | refine (State.writeLayerHi_key ..).trans ?_ | refine (State.writeDgStat2_key ..).trans ?_ | (intro _)
theorem State.writeCapture_key (a : Nat) (w : Word) : (State.writeCapture s a w).key = s.key := by
  unfold State.writeCapture
  with_reducible repeat' first | rfl | refine ite_key ?_ ?_ | refine State.ifOn_key _ _ _ ?_ | refine (State.writeCapCtl_key ..).trans ?_ | refine (State.writeCapThresh_key ..).trans ?_ | refine (State.rpOk_key ..).trans ?_ | refine (State.rpErr_key ..).trans ?_ | refine (State.writeBvCtl_key ..).trans ?_ | refine (State.modBv_key ..).trans ?_ | (intro _) | dsimp only
theorem State.writeWindow_key (o : BitVec 12) (k : Nat) (w : Word) : (State.writeWindow s o k w).key = s.key := by
  unfold State.writeWindow
  with_reducible repeat' first | rfl | refine ite_key ?_ ?_ | refine (State.winPost_key ..).trans ?_ | refine (State.winCfg_key ..).trans ?_ | refine (State.winTimeout_key ..).trans ?_

-- Reset
theorem State.cutFlash_key  : (State.cutFlash s).key = s.key := by
  unfold State.cutFlash
  with_reducible repeat' first | rfl | refine ite_key ?_ ?_ | refine (State.drew_key ..).trans ?_ | refine (State.modLg_key ..).trans ?_ | split | dsimp only
theorem State.bringPd1_key  : (State.bringPd1 s).key = s.key := by
  unfold State.bringPd1
  with_reducible repeat' first | rfl | refine ite_key ?_ ?_ | refine (State.modDom_key ..).trans ?_

-- Tick
theorem State.hostCycle_key  : (State.hostCycle s).key = s.key := by
  unfold State.hostCycle
  with_reducible repeat' first | rfl | refine ite_key ?_ ?_ | refine (State.modTr_key ..).trans ?_ | refine (State.holdCycle_key ..).trans ?_ | refine (State.modCtx0_key ..).trans ?_ | refine (State.modCtx1_key ..).trans ?_ | refine (State.rootCycle_key ..).trans ?_ | refine (State.lanesCycle_key ..).trans ?_ | dsimp only
theorem State.hostEdges_key  : (State.hostEdges s).key = s.key := by
  unfold State.hostEdges
  with_reducible repeat' first | rfl | refine ite_key ?_ ?_ | refine (State.hostCycle_key ..).trans ?_ | refine (State.drew_key ..).trans ?_ | refine (State.wordEdges_key ..).trans ?_ | refine (State.modTr_key ..).trans ?_ | refine (foldl_key _ _ _ ?_).trans ?_ | (intro _ _) | dsimp only

end Sys2Proof.Machine
end

