-- ==== Sys2Proof/Laws/Memory.lean ====
section
/-!
SUPPORT. The memory of the banks: reading after writing, and that every operation keeps the canonical form.
-/

namespace Sys2Proof.Machine

/-- The canonical form in two parts. -/
theorem Power.wf_iff (p : Power) :
    p.wf = true ↔ p.mem.Pairwise (fun a b => a.1 < b.1) ∧ ∀ c ∈ p.mem, c.2 ≠ p.unlisted c.1 := by
  simp [Power.wf]

theorem cellInsert_mem {a : Nat} {b : Byte} {l : List Host.Cell} {c : Host.Cell} (h : c ∈ cellInsert a b l) :
    c = (a, b) ∨ c ∈ l := by
  induction l with
  | nil => simpa [cellInsert] using h
  | cons d r ih =>
    simp only [cellInsert] at h
    split at h
    · simpa using h
    · split at h
      · rcases List.mem_cons.mp h with h | h
        · exact .inl h
        · exact .inr (List.mem_cons_of_mem _ h)
      · rcases List.mem_cons.mp h with h | h
        · exact .inr (h ▸ List.mem_cons_self)
        · exact (ih h).imp_right (List.mem_cons_of_mem _)

theorem cellInsert_rising {a : Nat} {b : Byte} {l : List Host.Cell} (h : l.Pairwise fun x y => x.1 < y.1) :
    (cellInsert a b l).Pairwise fun x y => x.1 < y.1 := by
  induction l with
  | nil => simp [cellInsert]
  | cons d r ih =>
    obtain ⟨hd, hr⟩ := List.pairwise_cons.mp h
    simp only [cellInsert]
    split
    · rename_i lt
      refine List.pairwise_cons.mpr ⟨fun x hx => ?_, h⟩
      rcases List.mem_cons.mp hx with rfl | hx
      · exact lt
      · exact Nat.lt_trans lt (hd x hx)
    · split
      · rename_i eq
        exact List.pairwise_cons.mpr ⟨fun x hx => eq ▸ hd x hx, hr⟩
      · refine List.pairwise_cons.mpr ⟨fun x hx => ?_, ih hr⟩
        rcases cellInsert_mem hx with rfl | hx
        · simp only; omega
        · exact hd x hx

@[simp] theorem Power.write_unlisted (p : Power) (a : Nat) (b : Byte) (n : Nat) : (p.write a b).unlisted n = p.unlisted n := by
  unfold Power.write; split <;> rfl

/-- A write keeps the canonical form. -/
theorem Power.write_wf {p : Power} (a : Nat) (b : Byte) (h : p.wf = true) : (p.write a b).wf = true := by
  obtain ⟨h1, h2⟩ := p.wf_iff.mp h
  refine (Power.wf_iff _).mpr ⟨?_, fun c hc => ?_⟩
  · unfold Power.write; split
    · exact h1.filter _
    · exact cellInsert_rising h1
  · rw [Power.write_unlisted]
    unfold Power.write at hc
    split at hc
    · exact h2 c (List.mem_filter.mp hc).1
    · rcases cellInsert_mem hc with rfl | hc
      · assumption
      · exact h2 c hc

theorem cellInsert_find (a : Nat) (b : Byte) (l : List Host.Cell) : (cellInsert a b l).find? (fun c => c.1 == a) = some (a, b) := by
  induction l with
  | nil => simp [cellInsert]
  | cons d r ih =>
    simp only [cellInsert]
    split
    · simp
    · split
      · simp
      · rw [List.find?_cons_of_neg (by simp; omega), ih]

theorem cellInsert_find_ne {a n : Nat} (b : Byte) (l : List Host.Cell) (h : n ≠ a) :
    (cellInsert a b l).find? (fun c => c.1 == n) = l.find? fun c => c.1 == n := by
  induction l with
  | nil => simp [cellInsert, Ne.symm h]
  | cons d r ih =>
    simp only [cellInsert]
    split
    · rw [List.find?_cons_of_neg (by simpa using Ne.symm h)]
    · split
      · rename_i eq
        rw [List.find?_cons_of_neg (by simpa using Ne.symm h), List.find?_cons_of_neg (by simp; omega)]
      · simp only [List.find?_cons, ih]

/-- A byte that was written reads as written. -/
theorem Power.read_write (p : Power) (a : Nat) (b : Byte) : (p.write a b).read a = b := by
  unfold Power.read
  rw [Power.write_unlisted]
  unfold Power.write
  split
  · rename_i e
    have : p.mem.find? (fun _ => false) = none := by simp
    simp [List.find?_filter, e, this]
  · simp [cellInsert_find]

/-- A write leaves every other byte alone. -/
theorem Power.read_write_ne (p : Power) {a n : Nat} (b : Byte) (h : n ≠ a) : (p.write a b).read n = p.read n := by
  unfold Power.read
  rw [Power.write_unlisted]
  unfold Power.write
  split
  · simp only [List.find?_filter]
    congr 2
    funext c
    by_cases e : c.1 = n <;> simp [e, h]
  · simp only [cellInsert_find_ne b p.mem h]

theorem Power.unlisted_filter {p : Power} {m : List Host.Cell} {k a : Nat} (h : a / 2 ^ 19 ≠ k) :
    Power.unlisted { p with mem := m, scrambled := p.scrambled.filter fun x => x.1 != k } a = p.unlisted a := by
  simp only [Power.unlisted, List.find?_filter]
  generalize a / 2 ^ 19 = j at h ⊢
  have : (fun x : Nat × Nat => decide ((x.1 != k) = true ∧ (x.1 == j) = true)) = fun x => x.1 == j := by
    funext x
    by_cases e : x.1 = j
    · simp [e, h]
    · simp [e]
  rw [this]

/-- Clearing a bank keeps the canonical form. -/
theorem Power.clearBank_wf {p : Power} (k : Nat) (h : p.wf = true) : (p.clearBank k).wf = true := by
  obtain ⟨h1, h2⟩ := p.wf_iff.mp h
  refine (Power.wf_iff _).mpr ⟨h1.filter _, fun c hc => ?_⟩
  obtain ⟨hc, hk⟩ := List.mem_filter.mp hc
  rw [Power.clearBank, Power.unlisted_filter (by simpa using hk)]
  exact h2 c hc

/-- A self-test of a bank keeps the canonical form. -/
theorem Power.scrambleBank_wf {p : Power} (k draw : Nat) (h : p.wf = true) : (p.scrambleBank k draw).wf = true := by
  obtain ⟨h1, h2⟩ := p.wf_iff.mp h
  refine (Power.wf_iff _).mpr ⟨h1.filter _, fun c hc => ?_⟩
  obtain ⟨hc, hk⟩ := List.mem_filter.mp hc
  have hk : c.1 / 2 ^ 19 ≠ k := by simpa using hk
  have : (p.scrambleBank k draw).unlisted c.1 = (p.clearBank k).unlisted c.1 := by
    simp only [Power.scrambleBank, Power.clearBank, Power.unlisted]
    generalize c.1 / 2 ^ 19 = j at hk ⊢
    simp [Ne.symm hk]
  rw [this, Power.clearBank, Power.unlisted_filter hk]
  exact h2 c hc

/-- A cleared bank reads as zero (R346). -/
theorem Power.read_clearBank (p : Power) {k a : Nat} (h : a / 2 ^ 19 = k) : (p.clearBank k).read a = 0 := by
  have h1 : (p.mem.filter fun c => c.1 / 2 ^ 19 != k).find? (fun c => c.1 == a) = none := by
    simp only [List.find?_eq_none, List.mem_filter]
    rintro ⟨x, y⟩ ⟨_, hx⟩ e
    simp_all
  have h2 : (p.scrambled.filter fun x => x.1 != k).find? (fun x => x.1 == a / 2 ^ 19) = none := by
    simp only [List.find?_eq_none, List.mem_filter]
    rintro ⟨x, y⟩ ⟨_, hx⟩ e
    simp_all
  simp only [Power.read, Power.clearBank, Power.unlisted, h1, h2, Option.elim]

/-- Clearing a bank leaves the bytes of the others alone. -/
theorem Power.read_clearBank_ne (p : Power) {k a : Nat} (h : a / 2 ^ 19 ≠ k) : (p.clearBank k).read a = p.read a := by
  unfold Power.read
  have : (p.clearBank k).unlisted a = p.unlisted a := Power.unlisted_filter h
  rw [this]
  simp only [Power.clearBank, List.find?_filter]
  congr 2
  funext c
  by_cases e : c.1 = a
  · rw [e]
    generalize a / 2 ^ 19 = j at h
    simp [h]
  · simp [e]

end Sys2Proof.Machine
end

