-- ==== Sys2Proof/Laws/Kept.lean ====
section
/-!
SUPPORT. What the operations that do touch banks, the collector or its pins still keep: the invariant of the
block, the profile and the queue.
-/

namespace Sys2Proof.Machine

/-- `t` comes from `s` by operations that keep the invariant of a block that is up, and keep it up. -/
structure Kept (s t : State) : Prop where
  inv : s.isUp = true → s.Inv → t.Inv
  up : t.isUp = s.isUp
  profile : t.profile = s.profile
  pending : t.pending = s.pending

variable {s t u : State}

/-- The parts of a key. -/
theorem key_parts (h : t.key = s.key) :
    t.profile = s.profile ∧ t.pending = s.pending ∧ t.pins.core = s.pins.core ∧ t.fc.core = s.fc.core ∧
      t.pw.mem = s.pw.mem ∧ t.pw.scrambled = s.pw.scrambled ∧ t.pw.doms.length = s.pw.doms.length ∧ t.ports.length = s.ports.length := by
  simp only [State.key, Prod.mk.injEq] at h
  simp only [Prod.mk.injEq]
  grind

/-- The invariant reads nothing but the key. -/
theorem Inv.of_key (h : t.key = s.key) (i : s.Inv) : t.Inv := by
  obtain ⟨h1, h2, h3, h4, h5, h6, h7, h8⟩ := key_parts h
  simp only [Pins.core, Collector.core, Prod.mk.injEq] at h3 h4
  simp only [State.Inv, Power.wf, Power.unlisted, Collector.whole, State.pinsTrue, State.isUp, Collector.valid, h1, h3, h4, h5, h6, h7, h8] at i ⊢
  exact i

theorem isUp_of_key (h : t.key = s.key) : t.isUp = s.isUp := by
  obtain ⟨-, -, h3, -⟩ := key_parts h
  simp only [Pins.core, Prod.mk.injEq] at h3
  simp only [State.isUp, h3]

theorem Kept.refl : Kept s s := ⟨fun _ i => i, rfl, rfl, rfl⟩

theorem Kept.trans (h : Kept s t) (g : Kept t u) : Kept s u :=
  ⟨fun a i => g.inv (h.up.trans a) (h.inv a i), g.up.trans h.up, g.profile.trans h.profile, g.pending.trans h.pending⟩

theorem Kept.of_key (h : t.key = s.key) : Kept s t :=
  ⟨fun _ i => Inv.of_key h i, isUp_of_key h, (key_parts h).1, (key_parts h).2.1⟩

theorem Kept.ite {c : Prop} [Decidable c] (h : Kept s t) (g : Kept s u) : Kept s (if c then t else u) := by split <;> assumption

theorem Kept.when {c : Prop} [Decidable c] (h : Kept s t) (g : Kept t u) : Kept s (if c then u else t) := by
  split
  · exact h.trans g
  · exact h

theorem Kept.foldl {α : Type} {f : State → α → State} {l : List α} (h : ∀ s a, Kept s (f s a)) : Kept s (l.foldl f s) := by
  induction l generalizing s with
  | nil => exact .refl
  | cons a r ih => exact (h s a).trans ih

theorem Kept.elim {α : Type} {o : Option α} {f : α → State} (h : ∀ a, Kept s (f a)) (g : Kept s t) : Kept s (o.elim t f) := by
  cases o
  · exact g
  · exact h _

/-- A change of the banks that keeps the canonical form. -/
theorem Kept.modPw {f : Power → Power} (h : ∀ p, p.wf = true → (f p).wf = true) (g : ∀ p, (f p).doms.length = p.doms.length) :
    Kept s (s.modPw f) :=
  ⟨fun _ i => ⟨h _ i.1, i.2.1, i.2.2.1, i.2.2.2.1, i.2.2.2.2.1, (g _).trans i.2.2.2.2.2⟩, rfl, rfl, rfl⟩

/-- A change of the collector that keeps its pairs whole, and the safe state and FC_FIRST as they are. -/
theorem Kept.modFc {f : Collector → Collector} (h : ∀ c, c.whole = true → (f c).whole = true) (g : ∀ c, (f c).safe = c.safe)
    (v : ∀ c, (f c).valid = c.valid) : Kept s (s.modFc f) := by
  refine ⟨fun _ i => ⟨i.1, h _ i.2.1, ?_, ?_, i.2.2.2.2⟩, rfl, rfl, rfl⟩
  · have := i.2.2.1
    simpa only [State.pinsTrue, State.isUp, State.modFc, g, v] using this
  · exact fun e => i.2.2.2.1 ((g _).symm.trans e)

@[simp] theorem CPair.whole_cpair {n : Nat} (v : BitVec n) : (cpair v).whole = true := by simp [CPair.whole, cpair]

/-- The pair of pins follows FC_FIRST, whatever changed it (R61). -/
theorem Kept.latched {f : Collector} (hw : s.fc.whole = true → f.whole = true) (hs : f.safe = s.fc.safe)
    (hk : t.key = (s.modFc fun _ => f).key) : Kept s t.driveErr := by
  obtain ⟨h1, h2, h3, h4, h5, h6, h7, h8⟩ := key_parts hk
  simp only [Pins.core, Collector.core, Prod.mk.injEq, State.modFc] at h1 h2 h3 h4 h5 h6 h7 h8
  refine ⟨fun a i => ?_, ?_, h1, h2⟩
  · obtain ⟨i1, i2, i3, i4, i5, i6⟩ := i
    have hw := hw i2
    simp only [State.isUp, Bool.and_eq_true] at a
    simp only [State.Inv, State.driveErr, State.modPins, Power.wf, Power.unlisted, Collector.whole, State.pinsTrue, State.isUp,
      Collector.valid, h1, h3, h4, h5, h6, h7, h8, hs] at i1 i3 i4 i5 i6 hw ⊢
    simp_all
  · simp only [State.isUp, State.driveErr, State.modPins, h3]

theorem State.driveErr_kept : Kept s s.driveErr := .latched (f := s.fc) id rfl rfl

theorem Collector.latch_whole {f : Collector} {r : Report} {q : BitVec 16} (h : f.whole = true) : (f.latch r q).1.whole = true := by
  simp only [Collector.latch]
  split
  · exact h
  · split <;> simp_all [Collector.whole]

theorem Collector.latch_safe (f : Collector) (r : Report) (q : BitVec 16) : (f.latch r q).1.safe = f.safe := by
  simp only [Collector.latch]
  split
  · rfl
  · split <;> rfl

theorem Collector.store_whole {f : Collector} {r : BitVec 256} {b : Bool} (h : f.whole = true) : (f.store r b).whole = true := by
  simp only [Collector.whole, Bool.and_eq_true, List.all_eq_true] at h
  obtain ⟨h, g⟩ := h
  simp only [Collector.store]
  repeat' split
  all_goals
    simp only [Collector.whole, Bool.and_eq_true, List.all_eq_true]
    refine ⟨h, fun c hc => ?_⟩
  · rcases List.mem_cons.mp hc with rfl | hc
    · exact CPair.whole_cpair _
    · exact g c hc
  · rcases List.mem_cons.mp hc with rfl | hc
    · exact CPair.whole_cpair _
    · exact g c (List.dropLast_subset _ hc)
  · rcases List.mem_cons.mp hc with rfl | hc
    · exact CPair.whole_cpair _
    · rcases List.mem_append.mp (List.mem_reverse.mp hc) with hc | hc
      · exact g c (List.mem_reverse.mp ((List.takeWhile_sublist _).subset hc))
      · exact g c (List.mem_reverse.mp ((List.dropWhile_sublist _).subset (List.mem_of_mem_tail hc)))
  · exact g c hc

theorem Collector.store_safe (f : Collector) (r : BitVec 256) (b : Bool) : (f.store r b).safe = f.safe := by
  simp only [Collector.store]; repeat' split
  all_goals rfl

theorem Collector.store_valid (f : Collector) (r : BitVec 256) (b : Bool) : (f.store r b).valid = f.valid := by
  simp only [Collector.store]; repeat' split
  all_goals rfl


theorem Kept.ifOn {d : Nat} {f : State → State} (h : ∀ t, Kept t (f t)) : Kept s (s.ifOn d f) := by
  unfold State.ifOn
  exact .ite (h s) (.of_key (State.rpErr_key s))
theorem State.enterSafe_kept (code : BitVec 16) : Kept s (State.enterSafe s code) := by
  unfold State.enterSafe
  refine .ite .refl ?_
  refine .trans ?_ (.of_key (State.trySafe_key _))
  refine .trans ?_ (.foldl fun x a => .of_key (State.endPart_key ..))
  refine .trans ?_ (.ite .refl (.foldl fun x a => .of_key (State.emit_key ..)))
  refine .trans ?_ (.of_key (State.silence_key _))
  refine .trans ?_ (.of_key (State.modSun_key ..))
  refine ⟨fun a i => ?_, rfl, rfl, rfl⟩
  obtain ⟨i1, i2, i3, i4, i5⟩ := i
  refine ⟨i1, i2, ?_, fun _ => a, i5⟩
  simp only [State.isUp, Bool.and_eq_true] at a
  simp_all [State.pinsTrue, State.isUp, State.modFc, State.modPins, Collector.valid]
theorem State.selfFault_kept : Kept s (State.selfFault s) := by
  unfold State.selfFault
  refine .trans ?_ (State.enterSafe_kept _)
  refine .trans ?_ (.of_key (State.modFc_key _ _ fun _ => rfl))
  exact .of_key ((State.chargeFault_key ..).trans (State.odoCount_key ..))
theorem State.ceCount_kept (g : CPair 32 → BitVec 32) : Kept s (s.modFc fun f => { f with ceCnt := cpair (g f.ceCnt) }) := by
  refine .modFc (fun _ h => ?_) (fun _ => rfl) fun _ => rfl
  simp_all [Collector.whole]
theorem State.recordFault_kept (r : Report) (promoted : Bool) : Kept s (State.recordFault s r promoted) := by
  unfold State.recordFault
  refine .ite (.trans ?_ (State.enterSafe_kept _)) (.ite (.trans ?_ (.foldl fun x a => .of_key (State.touch_key ..))) ?_)
  all_goals
    refine .trans ?_ (.of_key (State.chargeFault_key ..))
    refine .trans ?_ (.of_key (State.modFc_key _ _ fun _ => rfl))
    refine .trans ?_ (.ite (.of_key (State.modBand_key ..)) .refl)
    refine .trans ?_ (.of_key (State.faultDetail_key ..))
    refine .trans ?_ (.of_key (State.event_key ..))
    refine .trans ?_ (.modFc (fun _ h => Collector.store_whole h) (fun _ => Collector.store_safe ..) fun _ => Collector.store_valid ..)
    refine .trans ?_ (.of_key (State.odoCount_key ..))
    refine .when ?_ (State.ceCount_kept fun c => bump8 c.v (codeLevel r.code).toNat)
    refine .trans (.of_key (State.nextSeq_key s)) (.latched (f := (s.nextSeq.fc.latch r s.nextSeq.fc.seq).1) Collector.latch_whole (Collector.latch_safe ..) ?_)
    exact ite_key (State.modBv_key ..) rfl
theorem State.collect_kept (r0 : Report) : Kept s (State.collect s r0) := by
  unfold State.collect
  refine .trans ?_ (.of_key ((State.trySafe_key _).trans (State.flushEnds_key _)))
  refine .trans (.of_key (State.traced_key ..)) (.ite ?_ (State.recordFault_kept ..))
  refine .ite (.trans ?_ (.of_key (State.modBand_key ..))) ?_ <;>
  · refine .modFc (fun _ h => ?_) (fun _ => rfl) fun _ => rfl
    simp_all [Collector.whole]
theorem State.writeFcClr_kept (w : Word) : Kept s (State.writeFcClr s w) := by
  unfold State.writeFcClr
  refine .trans (.ite ?_ .refl) (.of_key (State.rpOk_key ..))
  refine .latched (f := { s.fc with first := cpair (setBit s.fc.first.v 56 false), ovf := cpair (s.fc.ovf.v &&& 0xFFFF0000) }) (fun h => ?_) rfl rfl
  simp_all [Collector.whole]
theorem State.writeFcSafe_kept (w : Word) : Kept s (State.writeFcSafe s w) := by
  unfold State.writeFcSafe
  with_reducible repeat' first | refine Kept.refl | refine Kept.ite ?_ ?_ | refine Kept.trans ?_ (.of_key (State.raiseNow_key ..)) | refine Kept.trans ?_ (.of_key (State.rpOk_key ..))
theorem State.inject1_kept (code : BitVec 16) (mode : Nat) (count : Byte) : Kept s (State.inject1 s code mode count) := by
  unfold State.inject1
  with_reducible repeat' first | refine Kept.refl | refine Kept.ite ?_ ?_ | refine Kept.trans ?_ (.of_key (State.drew_key ..)) | refine Kept.trans ?_ (.of_key (State.raise_key ..)) | refine Kept.trans ?_ (.of_key (State.unitFault_key ..)) | refine Kept.trans ?_ (.of_key (State.modPort_key ..)) | refine Kept.trans ?_ (State.selfFault_kept ..)
theorem State.writeFcInj_kept (w : Word) : Kept s (State.writeFcInj s w) := by
  unfold State.writeFcInj
  with_reducible repeat' first | refine Kept.refl | refine Kept.ite ?_ ?_ | refine Kept.trans ?_ (.of_key (State.rpErr_key ..)) | refine Kept.trans ?_ (Kept.of_key (State.modFc_key _ _ ?_)) | refine Kept.trans ?_ (State.inject1_kept ..) | refine Kept.trans ?_ (.of_key (State.rpOk_key ..)) | (intro _; rfl)
theorem State.imageWrite_kept (core : Bool) (ofs : Nat) (data : BitVec 512) : Kept s (State.imageWrite s core ofs data) := by
  unfold State.imageWrite
  refine .ite ?_ (.of_key (State.raiseNow_key ..))
  exact .foldl fun _ _ => .modPw (fun _ h => Power.write_wf _ _ h) fun _ => by unfold Power.write; split <;> rfl
theorem State.fwFail_kept (cause : BitVec 4) : Kept s (State.fwFail s cause) := by
  unfold State.fwFail
  refine .trans ?_ (.of_key ((State.dropImageReads_key _).trans (State.modFw_key ..)))
  exact .trans (.foldl fun _ _ => State.imageWrite_kept ..) (.foldl fun _ _ => State.imageWrite_kept ..)
theorem State.fwInvalid_kept (cause : Nat) : Kept s (State.fwInvalid s cause) := by
  unfold State.fwInvalid
  with_reducible repeat' first | refine Kept.refl | refine Kept.trans ?_ (State.fwFail_kept ..) | refine Kept.trans ?_ (.of_key (State.raiseNow_key ..))
theorem State.fwReadError_kept (why : Nat) (ofs : Nat) : Kept s (State.fwReadError s why ofs) := by
  unfold State.fwReadError
  with_reducible repeat' first | refine Kept.refl | refine Kept.ite ?_ ?_ | refine Kept.trans ?_ (State.fwFail_kept ..) | refine Kept.trans ?_ (.of_key (State.raiseNow_key ..))
theorem State.imageRead_kept (core : Bool) (ofs : Nat) (data : BitVec 512) : Kept s (State.imageRead s core ofs data) := by
  unfold State.imageRead
  refine .ite .refl (.ite (.trans ?_ (State.fwInvalid_kept _)) (.ite (.trans ?_ (.of_key (State.modFw_key ..))) (.trans ?_ (.of_key (State.imageFetch_key ..)))))
  all_goals exact .when (.of_key (State.modFw_key ..)) (State.imageWrite_kept ..)
theorem State.startLoad_kept  : Kept s (State.startLoad s) := by
  unfold State.startLoad
  refine .ite (.of_key (State.rpErr_key s)) (.trans ?_ (.of_key (State.rpOk_key ..)))
  exact .trans (.of_key (State.modFw_key ..)) (.ite (State.fwFail_kept _) (.of_key (State.imageFetch_key ..)))
theorem State.writeFwStat_kept (w : Word) : Kept s (State.writeFwStat s w) := by
  unfold State.writeFwStat
  with_reducible repeat' first | refine Kept.refl | refine Kept.ite ?_ ?_ | refine Kept.trans ?_ (State.startLoad_kept ..) | refine Kept.trans ?_ (.of_key (State.rpOk_key ..))
theorem State.engineOff_kept  : Kept s (State.engineOff s) := by
  unfold State.engineOff
  with_reducible repeat' first | refine Kept.refl | refine Kept.trans ?_ (State.fwReadError_kept ..) | refine Kept.trans ?_ (.of_key (State.modEng_key ..))
theorem State.domOff_kept (d : Nat) : Kept s (State.domOff s d) := by
  unfold State.domOff
  with_reducible repeat' first | refine Kept.refl | refine Kept.foldl ?_ | refine Kept.trans ?_ (.of_key (State.orgOff_key ..)) | refine Kept.trans ?_ (.of_key (State.modCap_key ..)) | refine Kept.trans ?_ (.of_key (State.modFw_key ..)) | refine Kept.trans ?_ (.of_key (State.modTst_key ..)) | refine Kept.trans ?_ (.of_key (State.fwReset_key ..)) | refine Kept.trans ?_ (.of_key (State.healthOff_key ..)) | refine Kept.trans ?_ (State.engineOff_kept ..) | refine Kept.trans ?_ (.of_key (State.syncOff_key ..)) | refine Kept.trans ?_ (.of_key (State.combineOff_key ..)) | refine Kept.trans ?_ (.of_key (State.bandOff_key ..)) | refine Kept.trans ?_ (.of_key (State.belvedereOff_key ..)) | refine Kept.trans ?_ (.of_key (State.portExit_key ..)) | refine Kept.trans ?_ (.of_key (State.modPort_key ..)) | (intro _ _) | split
theorem State.startShut_kept (d : Nat) : Kept s (State.startShut s d) := by
  unfold State.startShut
  with_reducible repeat' first | refine Kept.refl | refine Kept.trans ?_ (State.domOff_kept ..) | refine Kept.trans ?_ (.of_key (State.modDom_key ..))
theorem State.domOn_kept (d : Nat) : Kept s (State.domOn s d) := by
  unfold State.domOn
  with_reducible repeat' first | refine Kept.refl | refine Kept.ite ?_ ?_ | refine Kept.trans ?_ (.of_key (State.modDom_key ..)) | refine Kept.trans ?_ (.of_key (State.modFw_key ..)) | refine Kept.trans ?_ (.of_key (State.driveWin_key ..)) | refine Kept.trans ?_ (State.startShut_kept ..)
theorem State.settleDoms_kept : Kept s s.settleDoms := by
  unfold State.settleDoms
  exact .foldl fun _ _ => .ite (State.startShut_kept _) .refl
theorem State.passTick_kept : Kept s s.passTick := by
  unfold State.passTick
  refine .trans (.ite (.trans State.settleDoms_kept (.of_key ?_)) .refl) (.ite .refl (.of_key ?_))
  · exact (State.startOdo_key _).trans ((State.settleVerdicts_key _).trans (State.settleEdges_key _))
  · refine (State.trySafe_key _).trans ((State.flushAnswers_key _).trans ((State.lanesTick_key _).trans ?_))
    refine (ite_key ((State.bandTick_key _).trans (State.hostEdges_key _)) rfl).trans ?_
    refine (State.handOver_key _).trans ((State.stopAccel_key _).trans ((State.rampRate_key _).trans ((State.modSun_key ..).trans ?_)))
    exact ite_key ((State.takeTick_key _).trans (State.applyPosts_key _)) rfl
theorem State.domFail_kept (d : Nat) (cause : Nat) : Kept s (State.domFail s d cause) := by
  unfold State.domFail
  with_reducible repeat' first | refine Kept.refl | refine Kept.trans ?_ (State.domOff_kept ..) | refine Kept.trans ?_ (.of_key (State.modDom_key ..)) | refine Kept.trans ?_ (.of_key (State.raiseNow_key ..))
theorem State.writePdEn_kept (d : Nat) (en : Bool) : Kept s (State.writePdEn s d en) := by
  unfold State.writePdEn
  with_reducible repeat' first | refine Kept.refl | refine Kept.ite ?_ ?_ | refine Kept.trans ?_ (.of_key (State.rpErr_key ..)) | refine Kept.trans ?_ (.of_key (State.rpOk_key ..)) | refine Kept.trans ?_ (.of_key (State.modDom_key ..)) | refine Kept.trans ?_ (.of_key (State.startWake_key ..)) | refine Kept.trans ?_ (State.startShut_kept ..)
theorem State.enterPfail_kept (t0 : Tick) : Kept s (State.enterPfail s t0) := by
  unfold State.enterPfail
  refine .trans ?_ (.of_key (State.startJob_key _))
  refine .when ?_ (State.fwFail_kept _)
  refine .trans ?_ (.foldl fun x a => .of_key (State.emit_key ..))
  refine .trans ?_ (.of_key ((State.silence_key _).trans ((State.driveWin_key _).trans (State.lendFall_key ..))))
  exact .of_key ((State.raise_key ..).trans ((State.modPw_key _ _ fun _ => rfl).trans (State.grottoPfail_key s)))
theorem State.shedOne_kept (d : Nat) : Kept s (State.shedOne s d) := by
  unfold State.shedOne
  with_reducible repeat' first | refine Kept.refl | refine Kept.ite ?_ ?_ | refine Kept.trans ?_ (.of_key (State.modDom_key ..)) | refine Kept.trans ?_ (State.startShut_kept ..)
theorem State.answered_kept (r : HmReq) (data : BitVec 512) : Kept s (State.answered s r data) := by
  unfold State.answered
  with_reducible repeat' first | refine Kept.refl | refine Kept.trans ?_ (.of_key (State.doorbellRead_key ..)) | refine Kept.trans ?_ (.of_key (State.entryRead_key ..)) | refine Kept.trans ?_ (.of_key (State.recordWritten_key ..)) | refine Kept.trans ?_ (.of_key (State.flushProd_key ..)) | refine Kept.trans ?_ (.of_key (State.flushCons_key ..)) | refine Kept.trans ?_ (.of_key (State.openHalf_key ..)) | refine Kept.trans ?_ (.of_key (State.membersRead_key ..)) | refine Kept.trans ?_ (.of_key (State.flushArea_key ..)) | refine Kept.trans ?_ (State.imageRead_kept ..) | split
theorem State.hmFailed_kept (r : HmReq) (why : Nat) : Kept s (State.hmFailed s r why) := by
  unfold State.hmFailed
  with_reducible repeat' first | refine Kept.refl | refine Kept.elim ?_ ?_ | refine Kept.trans ?_ (State.fwReadError_kept ..) | refine Kept.trans ?_ (.of_key (State.haltRing_key ..)) | refine Kept.trans ?_ (.of_key (State.readFailed_key ..)) | (intro _) | split
theorem State.writeBistCtl_kept (w : Word) : Kept s (State.writeBistCtl s w) := by
  unfold State.writeBistCtl
  refine .ite (.of_key (State.rpErr_key s)) (.trans (.of_key (State.modTst_key ..)) (.ite ?_ (.of_key (State.rpOk_key ..))))
  refine .trans ?_ (.of_key ((State.rpOk_key ..).trans (State.modTst_key ..)))
  exact .trans (.of_key (State.drew_key _)) (.modPw (fun _ h => Power.scrambleBank_wf _ _ h) fun _ => rfl)
theorem State.writeFwPage_kept (a : Nat) (w : Word) : Kept s (State.writeFwPage s a w) := by
  unfold State.writeFwPage
  refine .ite (.ifOn fun _ => .of_key (State.writePoll_key ..)) (.ite (.ifOn fun _ => .of_key (State.nudge_key ..)) ?_)
  refine .ite (.of_key (State.writeFw_key ..)) (.ite (.of_key (State.writeFw_key ..)) (.ite (.of_key (State.writeFw_key ..)) ?_))
  exact .ite (State.writeFwStat_kept _) (.of_key (State.rpOk_key ..))
theorem State.writeFaults_kept (a : Nat) (w : Word) : Kept s (State.writeFaults s a w) := by
  unfold State.writeFaults
  refine .ite (State.writeFcClr_kept _) (.ite ?_ (.ite (.of_key (State.rpErr_key s)) (.ite ?_ (.ite ?_ (.ite (State.writeFcSafe_kept _)
    (.ite ?_ (.ite (State.writeFcInj_kept _) (.ite (.ite (.of_key (State.rpErr_key s)) (.ite ?_ ?_)) (.of_key (State.rpOk_key ..)))))))))) <;>
    refine .trans ?_ (.of_key (State.rpOk_key ..)) <;> refine .modFc (fun _ h => ?_) (fun _ => rfl) fun _ => rfl <;>
    first | exact h | simp_all [Collector.whole]
theorem State.writePower_kept (a : Nat) (w : Word) : Kept s (State.writePower s a w) := by
  unfold State.writePower
  with_reducible repeat' first | refine Kept.refl | refine Kept.ite ?_ ?_ | refine Kept.trans ?_ (State.writePdEn_kept ..) | refine Kept.trans ?_ (.of_key (State.writePdStat_key ..)) | refine Kept.trans ?_ (.of_key (State.writeEnvCtl_key ..)) | refine Kept.trans ?_ (.of_key (State.writePfailCtl_key ..)) | refine Kept.trans ?_ (.of_key (State.writeLendCtl_key ..)) | refine Kept.trans ?_ (.of_key (State.rpOk_key ..))
theorem State.writeTest_kept (a : Nat) (w : Word) : Kept s (State.writeTest s a w) := by
  unfold State.writeTest
  refine .ite (.of_key (State.rpErr_key s)) (.ite (.of_key (State.writeLaneCtl_key ..))
    (.ite (.ite (.of_key (State.rpOk_key ..)) (.of_key (State.rpErr_key s))) (.ite (State.writeBistCtl_kept _) ?_)))
  refine .ite (.ifOn fun t => .ite ?_ (.of_key (State.rpErr_key t))) (.ite (.ifOn fun _ => .of_key (State.rpOk_key ..))
    (.ite (.ifOn fun _ => .of_key (State.writeCoreCtl_key ..)) (.ite (.ifOn fun _ => .of_key (State.rpOk_key ..)) (.of_key (State.rpOk_key ..)))))
  exact .of_key ((State.rpOk_key ..).trans (State.modTst_key ..))
theorem State.writeReg_kept (a : Nat) (w : Word) : Kept s (State.writeReg s a w) := by
  have ok : ∀ t : State, Kept t t.rpOk := fun t => .of_key (State.rpOk_key ..)
  have err : ∀ t : State, Kept t t.rpErr := fun t => .of_key (State.rpErr_key t)
  unfold State.writeReg
  refine .ite (.ite (err s) (ok s)) (.ite (State.writeFaults_kept ..) (.ite (err s) (.ite ?_ ?_)))
  · exact .ite (.of_key (State.writeGhCmd_key ..)) (.ite (.of_key (State.writeResp_key ..)) (ok s))
  refine .ite (.ifOn fun _ => .of_key (State.writeRing_key ..)) (.ite (ok s) (.ite (State.writeFwPage_kept ..) (.ite ?_ ?_)))
  · refine .ite (.of_key (State.writeSunCtl_key ..)) (.ite ?_ (.ite ?_ (.ite ?_ (.ite (.ifOn fun _ => .of_key (State.writeOrg_key ..)) (ok s)))))
    all_goals exact .of_key (State.stageNow_key ..)
  refine .ite (.of_key (State.writeCapture_key ..)) (.ite (.ite (.of_key (State.writeLink_key ..)) (err s)) (.ite (State.writePower_kept ..) (.ite ?_ ?_)))
  · exact .ite (.of_key (State.writeOwner_key ..)) (ok s)
  refine .ite (.ite (.ifOn fun _ => .of_key (State.writeHealth_key ..)) (ok s)) (.ite (.of_key (State.writeTrellisPage_key ..))
    (.ite (.of_key (State.writeLedger_key ..)) (.ite (ok s) (.ite (State.writeTest_kept ..) (.ite ?_ ?_)))))
  · exact .ite (err s) (.ite (ok s) (.ite (err s) (.ite (.of_key ((State.rpOk_key ..).trans (State.modFab_key ..))) (ok s))))
  exact .ite (err s) (.ite (.ite (.ifOn fun _ => .of_key (State.writeWindow_key ..)) (err s)) (err s))

-- RESETS
-- The resets: what they leave has the invariant, whatever stood before.

theorem resetOf_inv (f : Profile) : (State.resetOf f).Inv := by cases f <;> exact ⟨by decide, by decide, by decide, by decide, by decide, by decide⟩

theorem domsInReset_length (p : Power) : p.domsInReset.length = p.doms.length := by
  unfold Power.domsInReset
  cases h : p.doms <;> simp

theorem State.coldClear_inv {p : Pins} (i : s.Inv) (hp : p.flErrP = false) (hn : p.flErrN = p.powered)
    (hh : p.flHalt = (p.powered && p.rst != .none)) : (s.coldClear p).Inv := by
  have hc : s.cutFlash.key = s.key := State.cutFlash_key s
  obtain ⟨h1, -, -, -, -, -, h7, -⟩ := key_parts hc
  refine ⟨by simp [State.coldClear, State.resetOf, Power.wf], ?_, ?_, ?_, ?_, ?_⟩
  · simp [State.coldClear, State.resetOf, Collector.whole]
  · simp [State.coldClear, State.resetOf, State.pinsTrue, Collector.valid, hp, hn, hh, cpair, State.isUp]
  · simp [State.coldClear, State.resetOf]
  · simp [State.coldClear, State.resetOf]
  · simp only [State.coldClear, State.resetOf, domsInReset_length, h7, h1]
    exact i.2.2.2.2.2

theorem State.warmClear_inv {p : Pins} (i : s.Inv) (hp : p.flErrP = false) (hn : p.flErrN = p.powered)
    (hh : p.flHalt = (p.powered && p.rst != .none)) (hr : p.rst ≠ .none) : (s.warmClear p).Inv := by
  obtain ⟨-, i2, -, -, i5, i6⟩ := i
  refine ⟨by simp [State.warmClear, State.resetOf, Power.wf], ?_, ?_, ?_, ?_, ?_⟩
  · simp_all [State.warmClear, Collector.warm, Collector.whole]
  · simp [State.warmClear, Collector.warm, State.pinsTrue, hp, hn, hh, State.isUp, hr]
  · simp [State.warmClear, Collector.warm]
  · simpa [State.warmClear, State.resetOf] using i5
  · simpa only [State.warmClear, State.resetOf, domsInReset_length] using i6

theorem State.driveErr_inv (h1 : s.pw.wf = true) (h2 : s.fc.whole = true) (hu : s.isUp = true) (hh : s.pins.flHalt = s.fc.safe)
    (h5 : s.ports.length = s.profile.ports) (h6 : s.pw.doms.length = s.profile.domains) : s.driveErr.Inv := by
  have u : s.driveErr.isUp = true := hu
  refine ⟨h1, h2, ?_, fun _ => u, h5, h6⟩
  simp only [State.isUp, Bool.and_eq_true] at hu
  simp_all [State.pinsTrue, State.isUp, State.driveErr, State.modPins]

theorem State.outOfReset_inv (h1 : s.pw.wf = true) (h2 : s.fc.whole = true) (hp : s.pins.powered = true) (hs : s.fc.safe = false)
    (h5 : s.ports.length = s.profile.ports) (h6 : s.pw.doms.length = s.profile.domains) : s.outOfReset.Inv := by
  let t := s.modPins fun p => { p with rst := .none, edgesOwed := false, hmRunning := true, flHalt := false }
  obtain ⟨k1, -, k3, k4, k5, k6, k7, k8⟩ := key_parts (State.bringPd1_key t)
  have c : t.bringPd1.fc.core = s.fc.core := k4
  have e5 : t.bringPd1.pw.mem = s.pw.mem := k5
  have e6 : t.bringPd1.pw.scrambled = s.pw.scrambled := k6
  have e3 : t.bringPd1.pins.core = (s.pins.powered, .none, false, s.pins.flErrP, s.pins.flErrN, false) := k3
  simp only [Pins.core, Collector.core, Prod.mk.injEq] at c e3
  refine State.driveErr_inv (s := t.bringPd1) ?_ ?_ ?_ ?_ (by rw [k8, k1]; exact h5) (by rw [k7, k1]; exact h6)
  · simpa only [Power.wf, Power.unlisted, e5, e6] using h1
  · simpa only [Collector.whole, c] using h2
  · simp [State.isUp, e3, hp]
  · simp [e3, c, hs]

theorem State.coldStart_inv (h1 : s.pw.wf = true) (h2 : s.fc.whole = true) (hp : s.pins.powered = true) (hs : s.fc.safe = false)
    (h5 : s.ports.length = s.profile.ports) (h6 : s.pw.doms.length = s.profile.domains) : s.coldStart.Inv :=
  Inv.of_key (State.lgSend_key ..) (State.outOfReset_inv (s := (s.modGate _).modLg _) h1 h2 hp hs h5 h6)

theorem State.warmStart_inv (h1 : s.pw.wf = true) (h2 : s.fc.whole = true) (hp : s.pins.powered = true) (hs : s.fc.safe = false)
    (h5 : s.ports.length = s.profile.ports) (h6 : s.pw.doms.length = s.profile.domains) : s.warmStart.Inv := by
  unfold State.warmStart
  dsimp only
  split
  · refine State.outOfReset_inv h1 ?_ hp hs h5 h6
    simp_all [Collector.whole, State.modFc]
  · exact State.outOfReset_inv h1 h2 hp hs h5 h6


end Sys2Proof.Machine
end

