-- ==== Sys2Proof/Laws/Commands.lean ====
section
/-!
SUPPORT. What each command leaves alone: for most, the key of the state.
-/

namespace Sys2Proof.Machine

/-- Where the answer is a next state, it has the key of `s`. -/
def Still (s : State) (r : Result) : Prop := ∀ t, r = .next t → t.key = s.key

variable {s : State}

theorem Still.next {t : State} (h : t.key = s.key) : Still s (.next t) := by rintro _ ⟨⟩; exact h
theorem Still.fault (f : Fault) : Still s (.fault f) := fun _ h => by cases h
theorem whenAlive_still {f : State → State} (h : ∀ t, (f t).key = t.key) : Still s (whenAlive s f) := .next (ite_key (h s) rfl)
theorem onPort_still {p : PortNo} {f : State → State} (h : ∀ t, (f t).key = t.key) : Still s (onPort p s f) := by
  unfold onPort; split
  · exact whenAlive_still h
  · exact .fault _
theorem onLeaf_still {f : State → State} (h : ∀ t, (f t).key = t.key) : Still s (onLeaf s f) := by
  unfold onLeaf; split
  · exact whenAlive_still h
  · exact .fault _
theorem onReg_still {d : Nat} {f : State → State} (h : ∀ t, (f t).key = t.key) : Still s (onReg d s f) :=
  .next (ite_key (ite_key (h s) (State.rpErr_key s)) rfl)
theorem onSafeReg_still {f : State → State} (h : ∀ t, (f t).key = t.key) : Still s (onSafeReg s f) :=
  .next (ite_key (ite_key (h s) (State.rpErr_key s)) rfl)
theorem onRead_still {f : State → State} (h : ∀ t, (f t).key = t.key) : Still s (onRead s f) :=
  .next (ite_key (ite_key (h s) (State.rpErr_key s)) rfl)
theorem onLeafReg_still {d : Nat} {f : State → State} (h : ∀ t, (f t).key = t.key) : Still s (onLeafReg d s f) :=
  onReg_still fun t => ite_key (h t) (State.rpErr_key t)
theorem onMsg_still {p : PortNo} {m : Msg} {f : State → State} (h : ∀ t, (f t).key = t.key) : Still s (onMsg p m s f) :=
  onPort_still fun _ => ite_key ((h _).trans (State.received_key ..)) rfl
theorem onScoped_still {p : PortNo} {m : Msg} {f : State → Part → State} (h : ∀ t x, (f t x).key = t.key) : Still s (onScoped p m s f) :=
  onMsg_still fun t => by
    split
    · exact h _ _
    · exact State.countStale_key ..
theorem onFlit_still {p : PortNo} {stamp : HT80} {l : List Byte} {f : State → State} (h : ∀ t, (f t).key = t.key) : Still s (onFlit p stamp l s f) :=
  onPort_still fun _ => ite_key ((State.drew_key _).trans ((h _).trans (State.traced_key ..))) rfl
theorem onRef_still {n : Nat} {f : State → State} (h : ∀ t, (f t).key = t.key) : Still s (onRef n s f) := by
  unfold onRef; split
  · exact whenAlive_still fun t => (State.requalify_key _).trans (h t)
  · exact .fault _
theorem onDom_still {d : Nat} {f : State → State} (h : ∀ t, (f t).key = t.key) : Still s (onDom d s f) := by
  unfold onDom; split
  · exact whenAlive_still h
  · exact .fault _
theorem onUnit_still {l : Level} {a : CellAddr} {f : State → State} (h : ∀ t, (f t).key = t.key) : Still s (onUnit l a s f) :=
  onLeaf_still fun t => ite_key (h t) rfl
theorem onSeated_still {l : Level} {a : CellAddr} {f : State → State} (h : ∀ t, (f t).key = t.key) : Still s (onSeated l a s f) :=
  onUnit_still fun t => ite_key (h t) rfl
theorem onStake_still {a : CellAddr} {f : State → State} (h : ∀ t, (f t).key = t.key) : Still s (onStake a s f) :=
  onSeated_still h
theorem onDesc_still {P : Byte → Bool} {u : Bool} {d : Desc} {f : State → Nat → State} (h : ∀ t n, (f t n).key = t.key) :
    Still s (onDesc P u d s f) :=
  whenAlive_still fun t => ite_key rfl (by
    dsimp only
    split
    · exact (State.complete_key ..).trans (State.pull_key ..)
    · exact (h _ _).trans (State.pull_key ..))

theorem execLaunchCheck_still (q : BitVec 32) : Still s (execLaunchCheck q s) := by
  unfold execLaunchCheck
  refine onLeaf_still fun _ => ?_
  try dsimp only
  with_reducible repeat' first | rfl | refine ite_key ?_ ?_ | refine (State.launchOne_key ..).trans ?_ | split | (intro _) | (intro _ _) | exact length_modify | exact length_modify _ | exact length_map _ | exact modify_core _ | dsimp only

theorem execWindowOpen_still (w : BitVec 4) : Still s (execWindowOpen w s) := by
  unfold execWindowOpen
  refine onLeaf_still fun _ => ?_
  try dsimp only
  with_reducible repeat' first | rfl | refine ite_key ?_ ?_ | refine (State.modBand_key ..).trans ?_ | refine (State.askWindow_key ..).trans ?_ | refine (State.driveWin_key ..).trans ?_ | split | (intro _) | (intro _ _) | exact length_modify | exact length_modify _ | exact length_map _ | exact modify_core _ | dsimp only

theorem execWindowClose_still (w : BitVec 4) : Still s (execWindowClose w s) := by
  unfold execWindowClose
  refine onLeaf_still fun _ => ?_
  try dsimp only
  with_reducible repeat' first | rfl | refine ite_key ?_ ?_ | refine (State.modBand_key ..).trans ?_ | refine (State.driveWin_key ..).trans ?_ | split | (intro _) | (intro _ _) | exact length_modify | exact length_modify _ | exact length_map _ | exact modify_core _ | dsimp only

theorem execMcForcedEdge_still (m : BitVec 4) (stamp : HT80) : Still s (execMcForcedEdge m stamp s) := by
  unfold execMcForcedEdge
  refine onLeaf_still fun _ => ?_
  try dsimp only
  with_reducible repeat' first | rfl | refine ite_key ?_ ?_ | refine (State.modBand_key ..).trans ?_ | refine (State.modCtx_key ..).trans ?_ | refine (State.raise_key ..).trans ?_ | split | (intro _) | (intro _ _) | exact length_modify | exact length_modify _ | exact length_map _ | exact modify_core _ | dsimp only

theorem execLoadLevelChange_still  : Still s (execLoadLevelChange  s) := by
  unfold execLoadLevelChange
  refine onLeaf_still fun _ => ?_
  try dsimp only
  with_reducible repeat' first | rfl | refine ite_key ?_ ?_ | refine (State.modBand_key ..).trans ?_ | refine (State.raiseNow_key ..).trans ?_ | refine (State.modPins_key _ _ ?_).trans ?_ | split | (intro _) | (intro _ _) | exact length_modify | exact length_modify _ | exact length_map _ | exact modify_core _ | dsimp only

theorem execLoadStep_still (q : BitVec 32) : Still s (execLoadStep q s) := by
  unfold execLoadStep
  refine onLeaf_still fun _ => ?_
  try dsimp only
  with_reducible repeat' first | rfl | refine ite_key ?_ ?_ | refine (State.freeEntry_key ..).trans ?_ | refine (State.modBand_key ..).trans ?_ | refine (State.entryDone_key ..).trans ?_ | split | (intro _) | (intro _ _) | exact length_modify | exact length_modify _ | exact length_map _ | exact modify_core _ | dsimp only

theorem execPwLendRise_still  : Still s (execPwLendRise  s) := by
  unfold execPwLendRise
  refine onLeaf_still fun _ => ?_
  try dsimp only
  with_reducible repeat' first | rfl | refine ite_key ?_ ?_ | refine (State.modPins_key _ _ ?_).trans ?_ | refine (State.modBand_key ..).trans ?_ | split | (intro _) | (intro _ _) | exact length_modify | exact length_modify _ | exact length_map _ | exact modify_core _ | dsimp only

theorem execPwLendFall_still  : Still s (execPwLendFall  s) := by
  unfold execPwLendFall
  refine onLeaf_still fun _ => ?_
  try dsimp only
  with_reducible repeat' first | rfl | refine ite_key ?_ ?_ | refine (State.lendFall_key ..).trans ?_ | split | (intro _) | (intro _ _) | exact length_modify | exact length_modify _ | exact length_map _ | exact modify_core _ | dsimp only

theorem execSignalEntry_still (q : BitVec 32) : Still s (execSignalEntry q s) := by
  unfold execSignalEntry
  refine onLeaf_still fun _ => ?_
  try dsimp only
  with_reducible repeat' first | rfl | refine ite_key ?_ ?_ | refine (State.objOp_key ..).trans ?_ | refine (State.freeEntry_key ..).trans ?_ | refine (State.entryDone_key ..).trans ?_ | refine elim_key ?_ ?_ | split | (intro _) | (intro _ _) | exact length_modify | exact length_modify _ | exact length_map _ | exact modify_core _ | dsimp only

theorem execCaptureOpen_still (q : BitVec 32) : Still s (execCaptureOpen q s) := by
  unfold execCaptureOpen
  refine onLeaf_still fun _ => ?_
  try dsimp only
  with_reducible repeat' first | rfl | refine ite_key ?_ ?_ | refine (State.freeEntry_key ..).trans ?_ | refine (State.stopWindow_key ..).trans ?_ | refine (State.entryDone_key ..).trans ?_ | split | (intro _) | (intro _ _) | exact length_modify | exact length_modify _ | exact length_map _ | exact modify_core _ | dsimp only

theorem execCaptureClose_still (q : BitVec 32) : Still s (execCaptureClose q s) := by
  unfold execCaptureClose
  refine onLeaf_still fun _ => ?_
  try dsimp only
  with_reducible repeat' first | rfl | refine ite_key ?_ ?_ | refine (State.freeEntry_key ..).trans ?_ | refine (State.stopWindow_key ..).trans ?_ | refine (State.entryDone_key ..).trans ?_ | split | (intro _) | (intro _ _) | exact length_modify | exact length_modify _ | exact length_map _ | exact modify_core _ | dsimp only

theorem execSwap_still (t : PTag) : Still s (execSwap t s) := by
  unfold execSwap
  refine whenAlive_still fun _ => ?_
  try dsimp only
  with_reducible repeat' first | rfl | refine ite_key ?_ ?_ | refine (State.modPart_key ..).trans ?_ | refine (State.swapLeaf_key ..).trans ?_ | refine (State.mirrorPart_key ..).trans ?_ | refine (State.freeEntry_key ..).trans ?_ | refine (State.swapDone_key ..).trans ?_ | split | (intro _) | (intro _ _) | exact length_modify | exact length_modify _ | exact length_map _ | exact modify_core _ | dsimp only

theorem execPark_still (q : BitVec 32) : Still s (execPark q s) := by
  unfold execPark
  refine onLeaf_still fun _ => ?_
  try dsimp only
  with_reducible repeat' first | rfl | refine ite_key ?_ ?_ | refine (State.expireAll_key ..).trans ?_ | refine (State.modCtx_key ..).trans ?_ | refine (State.modTr_key ..).trans ?_ | refine (State.modPart_key ..).trans ?_ | refine (State.freeEntry_key ..).trans ?_ | refine (State.complete_key ..).trans ?_ | refine (State.stopReplay_key ..).trans ?_ | refine (State.discardAll_key ..).trans ?_ | refine (State.idleDescent_key ..).trans ?_ | split | (intro _) | (intro _ _) | exact length_modify | exact length_modify _ | exact length_map _ | exact modify_core _ | dsimp only

theorem execReleaseDue_still (t : PTag) (bid : Byte) : Still s (execReleaseDue t bid s) := by
  unfold execReleaseDue
  refine onLeaf_still fun _ => ?_
  try dsimp only
  with_reducible repeat' first | rfl | refine ite_key ?_ ?_ | refine (State.releaseNow_key ..).trans ?_ | split | (intro _) | (intro _ _) | exact length_modify | exact length_modify _ | exact length_map _ | exact modify_core _ | dsimp only

theorem execStepOverrun_still (t : PTag) : Still s (execStepOverrun t s) := by
  unfold execStepOverrun
  refine onLeaf_still fun _ => ?_
  try dsimp only
  with_reducible repeat' first | rfl | refine ite_key ?_ ?_ | refine (State.modCtx_key ..).trans ?_ | refine (State.raiseNow_key ..).trans ?_ | refine (State.modBand_key ..).trans ?_ | refine (State.modTr_key ..).trans ?_ | refine (State.access_key ..).trans ?_ | refine (foldl_key _ _ _ ?_).trans ?_ | refine elim_key ?_ ?_ | split | (intro _) | (intro _ _) | exact length_modify | exact length_modify _ | exact length_map _ | exact modify_core _ | dsimp only

theorem execOverrunReadDone_still (ptag : PTag) (region : BitVec 7) : Still s (execOverrunReadDone ptag region s) := by
  unfold execOverrunReadDone
  refine onLeaf_still fun _ => ?_
  try dsimp only
  with_reducible repeat' first | rfl | refine ite_key ?_ ?_ | refine (State.modBand_key ..).trans ?_ | refine (State.modTr_key ..).trans ?_ | refine (State.putGroup_key ..).trans ?_ | split | (intro _) | (intro _ _) | exact length_modify | exact length_modify _ | exact length_map _ | exact modify_core _ | dsimp only

theorem execWaitTimeout_still (o : BitVec 12) : Still s (execWaitTimeout o s) := by
  unfold execWaitTimeout
  refine onLeaf_still fun _ => ?_
  try dsimp only
  with_reducible repeat' first | rfl | refine ite_key ?_ ?_ | refine (State.objDue_key ..).trans ?_ | split | (intro _) | (intro _ _) | exact length_modify | exact length_modify _ | exact length_map _ | exact modify_core _ | dsimp only

theorem execTimerFire_still (o : BitVec 12) : Still s (execTimerFire o s) := by
  unfold execTimerFire
  refine onLeaf_still fun _ => ?_
  try dsimp only
  with_reducible repeat' first | rfl | refine ite_key ?_ ?_ | refine (State.objDue_key ..).trans ?_ | split | (intro _) | (intro _ _) | exact length_modify | exact length_modify _ | exact length_map _ | exact modify_core _ | dsimp only

theorem execBarrierTimeout_still (bid : Byte) : Still s (execBarrierTimeout bid s) := by
  unfold execBarrierTimeout
  refine onLeaf_still fun _ => ?_
  try dsimp only
  with_reducible repeat' first | rfl | refine ite_key ?_ ?_ | refine (State.objDue_key ..).trans ?_ | split | (intro _) | (intro _ _) | exact length_modify | exact length_modify _ | exact length_map _ | exact modify_core _ | dsimp only

theorem execCapInEdge_still (n : BitVec 3) (falling : Bool) (stamp : HT80) : Still s (execCapInEdge n falling stamp s) := by
  unfold execCapInEdge
  refine whenAlive_still fun _ => ?_
  try dsimp only
  with_reducible repeat' first | rfl | refine ite_key ?_ ?_ | refine (State.modCapIn_key ..).trans ?_ | split | (intro _) | (intro _ _) | exact length_modify | exact length_modify _ | exact length_map _ | exact modify_core _ | dsimp only

theorem execWinOpenNow_still (n : BitVec 3) : Still s (execWinOpenNow n s) := by
  unfold execWinOpenNow
  refine onReg_still fun _ => ?_
  try dsimp only
  with_reducible repeat' first | rfl | refine ite_key ?_ ?_ | refine (State.writeCapCtl_key ..).trans ?_ | split | (intro _) | (intro _ _) | exact length_modify | exact length_modify _ | exact length_map _ | exact modify_core _ | dsimp only

theorem execWinCloseNow_still (n : BitVec 3) : Still s (execWinCloseNow n s) := by
  unfold execWinCloseNow
  refine onReg_still fun _ => ?_
  try dsimp only
  with_reducible repeat' first | rfl | refine ite_key ?_ ?_ | refine (State.writeCapCtl_key ..).trans ?_ | split | (intro _) | (intro _ _) | exact length_modify | exact length_modify _ | exact length_map _ | exact modify_core _ | dsimp only

theorem execCapClr_still (n : BitVec 3) : Still s (execCapClr n s) := by
  unfold execCapClr
  refine onReg_still fun _ => ?_
  try dsimp only
  with_reducible repeat' first | rfl | refine ite_key ?_ ?_ | refine (State.writeCapCtl_key ..).trans ?_ | split | (intro _) | (intro _ _) | exact length_modify | exact length_modify _ | exact length_map _ | exact modify_core _ | dsimp only

theorem execBvClr_still  : Still s (execBvClr  s) := by
  unfold execBvClr
  refine onReg_still fun _ => ?_
  try dsimp only
  with_reducible repeat' first | rfl | refine ite_key ?_ ?_ | refine (State.writeBvCtl_key ..).trans ?_ | split | (intro _) | (intro _ _) | exact length_modify | exact length_modify _ | exact length_map _ | exact modify_core _ | dsimp only

theorem execCheckerPatternLock_still  : Still s (execCheckerPatternLock  s) := by
  unfold execCheckerPatternLock
  refine whenAlive_still fun _ => ?_
  try dsimp only
  with_reducible repeat' first | rfl | refine ite_key ?_ ?_ | refine (State.modTst_key ..).trans ?_ | split | (intro _) | (intro _ _) | exact length_modify | exact length_modify _ | exact length_map _ | exact modify_core _ | dsimp only

theorem execBistDone_still (firstFail : Option (BitVec 16)) : Still s (execBistDone firstFail s) := by
  unfold execBistDone
  refine whenAlive_still fun _ => ?_
  try dsimp only
  with_reducible repeat' first | rfl | refine ite_key ?_ ?_ | refine (State.modTst_key ..).trans ?_ | split | (intro _) | (intro _ _) | exact length_modify | exact length_modify _ | exact length_map _ | exact modify_core _ | dsimp only

theorem execCoreHalt_still (w : Word) : Still s (execCoreHalt w s) := by
  unfold execCoreHalt
  refine onReg_still fun _ => ?_
  try dsimp only
  with_reducible repeat' first | rfl | refine ite_key ?_ ?_ | refine (State.writeCoreCtl_key ..).trans ?_ | split | (intro _) | (intro _ _) | exact length_modify | exact length_modify _ | exact length_map _ | exact modify_core _ | dsimp only

theorem execCoreStep_still (w : Word) : Still s (execCoreStep w s) := by
  unfold execCoreStep
  refine onReg_still fun _ => ?_
  try dsimp only
  with_reducible repeat' first | rfl | refine ite_key ?_ ?_ | refine (State.writeCoreCtl_key ..).trans ?_ | split | (intro _) | (intro _ _) | exact length_modify | exact length_modify _ | exact length_map _ | exact modify_core _ | dsimp only

theorem execUnsupportedOpcode_still (u : Bool) (d : Desc) : Still s (execUnsupportedOpcode u d s) := by
  unfold execUnsupportedOpcode
  refine onDesc_still fun _ _ => ?_
  try dsimp only
  with_reducible repeat' first | rfl | refine ite_key ?_ ?_ | refine (State.ends_key ..).trans ?_ | split | (intro _) | (intro _ _) | exact length_modify | exact length_modify _ | exact length_map _ | exact modify_core _ | dsimp only

theorem execLaunchAt_still (u : Bool) (d : Desc) : Still s (execLaunchAt u d s) := by
  unfold execLaunchAt
  refine onDesc_still fun _ _ => ?_
  try dsimp only
  with_reducible repeat' first | rfl | refine ite_key ?_ ?_ | refine (State.ends_key ..).trans ?_ | refine (State.launchFabric_key ..).trans ?_ | refine (State.complete_key ..).trans ?_ | refine (State.launchLocal_key ..).trans ?_ | split | (intro _) | (intro _ _) | exact length_modify | exact length_modify _ | exact length_map _ | exact modify_core _ | dsimp only

theorem execBarrierArm_still (u : Bool) (d : Desc) : Still s (execBarrierArm u d s) := by
  unfold execBarrierArm
  refine onDesc_still fun _ _ => ?_
  try dsimp only
  with_reducible repeat' first | rfl | refine ite_key ?_ ?_ | refine (State.ends_key ..).trans ?_ | refine (State.modCtx_key ..).trans ?_ | refine (State.setObj_key ..).trans ?_ | split | (intro _) | (intro _ _) | exact length_modify | exact length_modify _ | exact length_map _ | exact modify_core _ | dsimp only

theorem execSignal_still (u : Bool) (d : Desc) : Still s (execSignal u d s) := by
  unfold execSignal
  refine onDesc_still fun _ _ => ?_
  try dsimp only
  with_reducible repeat' first | rfl | refine ite_key ?_ ?_ | refine (State.ends_key ..).trans ?_ | refine (State.insert_key ..).trans ?_ | refine (State.complete_key ..).trans ?_ | refine (State.leafSignal_key ..).trans ?_ | split | (intro _) | (intro _ _) | exact length_modify | exact length_modify _ | exact length_map _ | exact modify_core _ | dsimp only

theorem execSwapAt_still (u : Bool) (d : Desc) : Still s (execSwapAt u d s) := by
  unfold execSwapAt
  refine onDesc_still fun _ _ => ?_
  try dsimp only
  with_reducible repeat' first | rfl | refine ite_key ?_ ?_ | refine (State.complete_key ..).trans ?_ | refine (State.ends_key ..).trans ?_ | refine (State.takeSwap_key ..).trans ?_ | split | (intro _) | (intro _ _) | exact length_modify | exact length_modify _ | exact length_map _ | exact modify_core _ | dsimp only

theorem execCfgWrite_still (u : Bool) (d : Desc) : Still s (execCfgWrite u d s) := by
  unfold execCfgWrite
  refine onDesc_still fun _ _ => ?_
  try dsimp only
  with_reducible repeat' first | rfl | refine ite_key ?_ ?_ | refine (State.ends_key ..).trans ?_ | refine (State.cfgTrellis_key ..).trans ?_ | refine (State.access_key ..).trans ?_ | refine (State.modCtx_key ..).trans ?_ | split | (intro _) | (intro _ _) | exact length_modify | exact length_modify _ | exact length_map _ | exact modify_core _ | dsimp only

theorem execPartitionOpen_still (u : Bool) (d : Desc) : Still s (execPartitionOpen u d s) := by
  unfold execPartitionOpen
  refine onDesc_still fun _ _ => ?_
  try dsimp only
  with_reducible repeat' first | rfl | refine ite_key ?_ ?_ | refine (State.ends_key ..).trans ?_ | refine (State.hmIssue_key ..).trans ?_ | split | (intro _) | (intro _ _) | exact length_modify | exact length_modify _ | exact length_map _ | exact modify_core _ | dsimp only

theorem execPartitionClose_still (u : Bool) (d : Desc) : Still s (execPartitionClose u d s) := by
  unfold execPartitionClose
  refine onDesc_still fun _ _ => ?_
  try dsimp only
  with_reducible repeat' first | rfl | refine ite_key ?_ ?_ | refine (State.toRoot_key ..).trans ?_ | split | (intro _) | (intro _ _) | exact length_modify | exact length_modify _ | exact length_map _ | exact modify_core _ | dsimp only

theorem execParkAt_still (u : Bool) (d : Desc) : Still s (execParkAt u d s) := by
  unfold execParkAt
  refine onDesc_still fun _ _ => ?_
  try dsimp only
  with_reducible repeat' first | rfl | refine ite_key ?_ ?_ | refine (State.ends_key ..).trans ?_ | refine (State.parkFrom_key ..).trans ?_ | refine (State.complete_key ..).trans ?_ | refine (State.takePark_key ..).trans ?_ | refine (State.drew_key ..).trans ?_ | split | (intro _) | (intro _ _) | exact length_modify | exact length_modify _ | exact length_map _ | exact modify_core _ | dsimp only

theorem execWindowSet_still (u : Bool) (d : Desc) : Still s (execWindowSet u d s) := by
  unfold execWindowSet
  refine onDesc_still fun _ _ => ?_
  try dsimp only
  with_reducible repeat' first | rfl | refine ite_key ?_ ?_ | refine (State.complete_key ..).trans ?_ | refine (State.ends_key ..).trans ?_ | refine (State.modBand_key ..).trans ?_ | refine (State.enterSched_key ..).trans ?_ | refine (State.driveWin_key ..).trans ?_ | split | (intro _) | (intro _ _) | exact length_modify | exact length_modify _ | exact length_map _ | exact modify_core _ | dsimp only

theorem execLoadEnv_still (u : Bool) (d : Desc) : Still s (execLoadEnv u d s) := by
  unfold execLoadEnv
  refine onDesc_still fun _ _ => ?_
  try dsimp only
  with_reducible repeat' first | rfl | refine ite_key ?_ ?_ | refine (State.ends_key ..).trans ?_ | refine (State.insert_key ..).trans ?_ | refine (State.modBand_key ..).trans ?_ | split | (intro _) | (intro _ _) | exact length_modify | exact length_modify _ | exact length_map _ | exact modify_core _ | dsimp only

theorem execDump_still (u : Bool) (d : Desc) : Still s (execDump u d s) := by
  unfold execDump
  refine onDesc_still fun _ _ => ?_
  try dsimp only
  with_reducible repeat' first | rfl | refine ite_key ?_ ?_ | refine (State.ends_key ..).trans ?_ | refine (State.startDump_key ..).trans ?_ | refine (State.complete_key ..).trans ?_ | split | (intro _) | (intro _ _) | exact length_modify | exact length_modify _ | exact length_map _ | exact modify_core _ | dsimp only

theorem execCaptureArm_still (u : Bool) (d : Desc) : Still s (execCaptureArm u d s) := by
  unfold execCaptureArm
  refine onDesc_still fun _ _ => ?_
  try dsimp only
  with_reducible repeat' first | rfl | refine ite_key ?_ ?_ | refine (State.ends_key ..).trans ?_ | refine (State.insert_key ..).trans ?_ | split | (intro _) | (intro _ _) | exact length_modify | exact length_modify _ | exact length_map _ | exact modify_core _ | dsimp only

theorem execFence_still (u : Bool) (d : Desc) : Still s (execFence u d s) := by
  unfold execFence
  refine onDesc_still fun _ _ => ?_
  try dsimp only
  with_reducible repeat' first | rfl | refine ite_key ?_ ?_ | refine (State.ends_key ..).trans ?_ | refine (State.modRing_key ..).trans ?_ | split | (intro _) | (intro _ _) | exact length_modify | exact length_modify _ | exact length_map _ | exact modify_core _ | dsimp only

theorem execFenceDone_still (u : Bool) : Still s (execFenceDone u s) := by
  unfold execFenceDone
  refine whenAlive_still fun _ => ?_
  try dsimp only
  with_reducible repeat' first | rfl | refine ite_key ?_ ?_ | refine (State.modRing_key ..).trans ?_ | refine (State.ends_key ..).trans ?_ | split | (intro _) | (intro _ _) | exact length_modify | exact length_modify _ | exact length_map _ | exact modify_core _ | dsimp only

theorem execReplayStart_still (u : Bool) (d : Desc) : Still s (execReplayStart u d s) := by
  unfold execReplayStart
  refine onDesc_still fun _ _ => ?_
  try dsimp only
  with_reducible repeat' first | rfl | refine ite_key ?_ ?_ | refine (State.ends_key ..).trans ?_ | refine (State.modSync_key ..).trans ?_ | refine (State.replayOn_key ..).trans ?_ | split | (intro _) | (intro _ _) | exact length_modify | exact length_modify _ | exact length_map _ | exact modify_core _ | dsimp only

theorem execReplayInject_still (n : BitVec 3) : Still s (execReplayInject n s) := by
  unfold execReplayInject
  refine onLeaf_still fun _ => ?_
  try dsimp only
  with_reducible repeat' first | rfl | refine ite_key ?_ ?_ | refine (State.checkOrder_key ..).trans ?_ | refine (State.modSync_key ..).trans ?_ | refine (State.inject_key ..).trans ?_ | refine (State.replayOn_key ..).trans ?_ | split | (intro _) | (intro _ _) | exact length_modify | exact length_modify _ | exact length_map _ | exact modify_core _ | dsimp only

theorem execDumpAbandon_still  : Still s (execDumpAbandon  s) := by
  unfold execDumpAbandon
  refine whenAlive_still fun _ => ?_
  try dsimp only
  with_reducible repeat' first | rfl | refine ite_key ?_ ?_ | refine (State.modRing_key ..).trans ?_ | refine (State.raiseNow_key ..).trans ?_ | refine (State.endDump_key ..).trans ?_ | refine elim_key ?_ ?_ | split | (intro _) | (intro _ _) | exact length_modify | exact length_modify _ | exact length_map _ | exact modify_core _ | dsimp only

theorem execCloseTick_still (part : BitVec 10) : Still s (execCloseTick part s) := by
  unfold execCloseTick
  refine whenAlive_still fun _ => ?_
  try dsimp only
  with_reducible repeat' first | rfl | refine ite_key ?_ ?_ | refine (State.endPart_key ..).trans ?_ | split | (intro _) | (intro _ _) | exact length_modify | exact length_modify _ | exact length_map _ | exact modify_core _ | dsimp only

theorem execContextSlotClearDone_still (k : Bool) : Still s (execContextSlotClearDone k s) := by
  unfold execContextSlotClearDone
  refine onLeaf_still fun _ => ?_
  try dsimp only
  with_reducible repeat' first | rfl | refine ite_key ?_ ?_ | refine (State.modCtx_key ..).trans ?_ | refine (State.modPart_key ..).trans ?_ | refine (State.tryAck_key ..).trans ?_ | split | (intro _) | (intro _ _) | exact length_modify | exact length_modify _ | exact length_map _ | exact modify_core _ | dsimp only

theorem execOpenAckTimeout_still (part : BitVec 10) : Still s (execOpenAckTimeout part s) := by
  unfold execOpenAckTimeout
  refine whenAlive_still fun _ => ?_
  try dsimp only
  with_reducible repeat' first | rfl | refine ite_key ?_ ?_ | refine (State.rootRefuse_key ..).trans ?_ | split | (intro _) | (intro _ _) | exact length_modify | exact length_modify _ | exact length_map _ | exact modify_core _ | dsimp only

theorem execOpenTick_still (part : BitVec 10) : Still s (execOpenTick part s) := by
  unfold execOpenTick
  refine whenAlive_still fun _ => ?_
  try dsimp only
  with_reducible repeat' first | rfl | refine ite_key ?_ ?_ | refine (State.modPart_key ..).trans ?_ | refine (State.raiseNow_key ..).trans ?_ | refine (State.openMember_key ..).trans ?_ | refine (State.mirrorPart_key ..).trans ?_ | split | (intro _) | (intro _ _) | exact length_modify | exact length_modify _ | exact length_map _ | exact modify_core _ | dsimp only

theorem execQuiescePoint_still (part : BitVec 10) : Still s (execQuiescePoint part s) := by
  unfold execQuiescePoint
  refine whenAlive_still fun _ => ?_
  try dsimp only
  with_reducible repeat' first | rfl | refine ite_key ?_ ?_ | refine (State.modCtx0_key ..).trans ?_ | refine (State.modCtx1_key ..).trans ?_ | refine (State.mirrorFree_key ..).trans ?_ | refine (State.modFab_key ..).trans ?_ | refine (State.runDefer_key ..).trans ?_ | split | (intro _) | (intro _ _) | exact length_modify | exact length_modify _ | exact length_map _ | exact modify_core _ | dsimp only

theorem execDeferTimeout_still (part : BitVec 10) : Still s (execDeferTimeout part s) := by
  unfold execDeferTimeout
  refine whenAlive_still fun _ => ?_
  try dsimp only
  with_reducible repeat' first | rfl | refine ite_key ?_ ?_ | refine (State.modFab_key ..).trans ?_ | refine (State.refuseOpen_key ..).trans ?_ | split | (intro _) | (intro _ _) | exact length_modify | exact length_modify _ | exact length_map _ | exact modify_core _ | dsimp only

theorem execReopenHoldEnd_still  : Still s (execReopenHoldEnd  s) := by
  unfold execReopenHoldEnd
  refine whenAlive_still fun _ => ?_
  try dsimp only
  with_reducible repeat' first | rfl | refine ite_key ?_ ?_ | refine (State.modFab_key ..).trans ?_ | refine elim_key ?_ ?_ | split | (intro _) | (intro _ _) | exact length_modify | exact length_modify _ | exact length_map _ | exact modify_core _ | dsimp only

theorem execOpenNotReceived_still (part : BitVec 10) : Still s (execOpenNotReceived part s) := by
  unfold execOpenNotReceived
  refine onLeaf_still fun _ => ?_
  try dsimp only
  with_reducible repeat' first | rfl | refine ite_key ?_ ?_ | refine (State.complete_key ..).trans ?_ | split | (intro _) | (intro _ _) | exact length_modify | exact length_modify _ | exact length_map _ | exact modify_core _ | dsimp only

theorem execResumeTick_still (part : BitVec 10) : Still s (execResumeTick part s) := by
  unfold execResumeTick
  refine onLeaf_still fun _ => ?_
  try dsimp only
  with_reducible repeat' first | rfl | refine ite_key ?_ ?_ | refine (State.complete_key ..).trans ?_ | refine (State.raiseNow_key ..).trans ?_ | refine (State.modCtx_key ..).trans ?_ | refine (State.activated_key ..).trans ?_ | refine (State.modBand_key ..).trans ?_ | split | (intro _) | (intro _ _) | exact length_modify | exact length_modify _ | exact length_map _ | exact modify_core _ | dsimp only

theorem execSundialCheck_still  : Still s (execSundialCheck  s) := by
  unfold execSundialCheck
  refine whenAlive_still fun _ => ?_
  try dsimp only
  with_reducible repeat' first | rfl | refine ite_key ?_ ?_ | refine (State.raiseNow_key ..).trans ?_ | split | (intro _) | (intro _ _) | exact length_modify | exact length_modify _ | exact length_map _ | exact modify_core _ | dsimp only

theorem execControlCoreWatchdog_still (core : Bool) : Still s (execControlCoreWatchdog core s) := by
  unfold execControlCoreWatchdog
  refine whenAlive_still fun _ => ?_
  try dsimp only
  with_reducible repeat' first | rfl | refine ite_key ?_ ?_ | refine (State.raiseNow_key ..).trans ?_ | split | (intro _) | (intro _ _) | exact length_modify | exact length_modify _ | exact length_map _ | exact modify_core _ | dsimp only

theorem execSafeDrainEnd_still  : Still s (execSafeDrainEnd  s) := by
  unfold execSafeDrainEnd
  refine whenAlive_still fun _ => ?_
  try dsimp only
  with_reducible repeat' first | rfl | refine ite_key ?_ ?_ | refine (State.hush_key ..).trans ?_ | split | (intro _) | (intro _ _) | exact length_modify | exact length_modify _ | exact length_map _ | exact modify_core _ | dsimp only

theorem execChal_still  : Still s (execChal  s) := by
  unfold execChal
  refine onReg_still fun _ => ?_
  try dsimp only
  with_reducible repeat' first | rfl | refine ite_key ?_ ?_ | refine (State.ghChal_key ..).trans ?_ | split | (intro _) | (intro _ _) | exact length_modify | exact length_modify _ | exact length_map _ | exact modify_core _ | dsimp only

theorem execChalDrawn_still  : Still s (execChalDrawn  s) := by
  unfold execChalDrawn
  refine whenAlive_still fun _ => ?_
  try dsimp only
  with_reducible repeat' first | rfl | refine ite_key ?_ ?_ | refine (State.drew_key ..).trans ?_ | refine (State.modGate_key ..).trans ?_ | split | (intro _) | (intro _ _) | exact length_modify | exact length_modify _ | exact length_map _ | exact modify_core _ | dsimp only

theorem execChalExpire_still  : Still s (execChalExpire  s) := by
  unfold execChalExpire
  refine whenAlive_still fun _ => ?_
  try dsimp only
  with_reducible repeat' first | rfl | refine ite_key ?_ ?_ | refine (State.ghUse_key ..).trans ?_ | split | (intro _) | (intro _ _) | exact length_modify | exact length_modify _ | exact length_map _ | exact modify_core _ | dsimp only

theorem execGateOpen_still (scope : BitVec 3) : Still s (execGateOpen scope s) := by
  unfold execGateOpen
  refine onReg_still fun _ => ?_
  try dsimp only
  with_reducible repeat' first | rfl | refine ite_key ?_ ?_ | refine (State.ghOpen_key ..).trans ?_ | split | (intro _) | (intro _ _) | exact length_modify | exact length_modify _ | exact length_map _ | exact modify_core _ | dsimp only

theorem execGateExit_still  : Still s (execGateExit  s) := by
  unfold execGateExit
  refine onReg_still fun _ => ?_
  try dsimp only
  with_reducible repeat' first | rfl | refine ite_key ?_ ?_ | refine (State.ghExit_key ..).trans ?_ | split | (intro _) | (intro _ _) | exact length_modify | exact length_modify _ | exact length_map _ | exact modify_core _ | dsimp only

theorem execSessionTimeLimit_still  : Still s (execSessionTimeLimit  s) := by
  unfold execSessionTimeLimit
  refine whenAlive_still fun _ => ?_
  try dsimp only
  with_reducible repeat' first | rfl | refine ite_key ?_ ?_ | refine (State.closeSession_key ..).trans ?_ | split | (intro _) | (intro _ _) | exact length_modify | exact length_modify _ | exact length_map _ | exact modify_core _ | dsimp only

theorem execRekey_still  : Still s (execRekey  s) := by
  unfold execRekey
  refine onReg_still fun _ => ?_
  try dsimp only
  with_reducible repeat' first | rfl | refine ite_key ?_ ?_ | refine (State.ghRekey_key ..).trans ?_ | split | (intro _) | (intro _ _) | exact length_modify | exact length_modify _ | exact length_map _ | exact modify_core _ | dsimp only

theorem execConfirm_still  : Still s (execConfirm  s) := by
  unfold execConfirm
  refine onReg_still fun _ => ?_
  try dsimp only
  with_reducible repeat' first | rfl | refine ite_key ?_ ?_ | refine (State.ghConfirm_key ..).trans ?_ | split | (intro _) | (intro _ _) | exact length_modify | exact length_modify _ | exact length_map _ | exact modify_core _ | dsimp only

theorem execRetire_still  : Still s (execRetire  s) := by
  unfold execRetire
  refine onReg_still fun _ => ?_
  try dsimp only
  with_reducible repeat' first | rfl | refine ite_key ?_ ?_ | refine (State.ghRetire_key ..).trans ?_ | split | (intro _) | (intro _ _) | exact length_modify | exact length_modify _ | exact length_map _ | exact modify_core _ | dsimp only

theorem execShip_still  : Still s (execShip  s) := by
  unfold execShip
  refine onReg_still fun _ => ?_
  try dsimp only
  with_reducible repeat' first | rfl | refine ite_key ?_ ?_ | refine (State.ghShip_key ..).trans ?_ | split | (intro _) | (intro _ _) | exact length_modify | exact length_modify _ | exact length_map _ | exact modify_core _ | dsimp only

theorem execFuseId_still  : Still s (execFuseId  s) := by
  unfold execFuseId
  refine onReg_still fun _ => ?_
  try dsimp only
  with_reducible repeat' first | rfl | refine ite_key ?_ ?_ | refine (State.ghFuseId_key ..).trans ?_ | split | (intro _) | (intro _ _) | exact length_modify | exact length_modify _ | exact length_map _ | exact modify_core _ | dsimp only

theorem execFuseKey_still  : Still s (execFuseKey  s) := by
  unfold execFuseKey
  refine onReg_still fun _ => ?_
  try dsimp only
  with_reducible repeat' first | rfl | refine ite_key ?_ ?_ | refine (State.ghFuseKey_key ..).trans ?_ | split | (intro _) | (intro _ _) | exact length_modify | exact length_modify _ | exact length_map _ | exact modify_core _ | dsimp only

theorem execLockoutEnd_still  : Still s (execLockoutEnd  s) := by
  unfold execLockoutEnd
  refine whenAlive_still fun _ => ?_
  try dsimp only
  with_reducible repeat' first | rfl | refine ite_key ?_ ?_ | refine (State.modGate_key ..).trans ?_ | split | (intro _) | (intro _ _) | exact length_modify | exact length_modify _ | exact length_map _ | exact modify_core _ | dsimp only

theorem execPageProgramDone_still (ok : Bool) : Still s (execPageProgramDone ok s) := by
  unfold execPageProgramDone
  refine whenAlive_still fun _ => ?_
  try dsimp only
  with_reducible repeat' first | rfl | refine ite_key ?_ ?_ | refine (State.pageDone_key ..).trans ?_ | split | (intro _) | (intro _ _) | exact length_modify | exact length_modify _ | exact length_map _ | exact modify_core _ | dsimp only

theorem execSectorEraseDone_still  : Still s (execSectorEraseDone  s) := by
  unfold execSectorEraseDone
  refine whenAlive_still fun _ => ?_
  try dsimp only
  with_reducible repeat' first | rfl | refine ite_key ?_ ?_ | refine (State.eraseDone_key ..).trans ?_ | split | (intro _) | (intro _ _) | exact length_modify | exact length_modify _ | exact length_map _ | exact modify_core _ | dsimp only

theorem execPfailCommitDone_still  : Still s (execPfailCommitDone  s) := by
  unfold execPfailCommitDone
  refine whenAlive_still fun _ => ?_
  try dsimp only
  with_reducible repeat' first | rfl | refine ite_key ?_ ?_ | refine (State.recordDone_key ..).trans ?_ | refine (State.modLg_key ..).trans ?_ | refine (State.modPw_key _ _ ?_).trans ?_ | split | (intro _) | (intro _ _) | exact length_modify | exact length_modify _ | exact length_map _ | exact modify_core _ | dsimp only

theorem execOdoInterval_still  : Still s (execOdoInterval  s) := by
  unfold execOdoInterval
  refine whenAlive_still fun _ => ?_
  try dsimp only
  with_reducible repeat' first | rfl | refine ite_key ?_ ?_ | refine (State.modLg_key ..).trans ?_ | refine (State.startJob_key ..).trans ?_ | split | (intro _) | (intro _ _) | exact length_modify | exact length_modify _ | exact length_map _ | exact modify_core _ | dsimp only

theorem execTempSample_still  : Still s (execTempSample  s) := by
  unfold execTempSample
  refine whenAlive_still fun _ => ?_
  try dsimp only
  with_reducible repeat' first | rfl | refine ite_key ?_ ?_ | refine (State.drew_key ..).trans ?_ | refine (State.modLg_key ..).trans ?_ | refine (State.odoCount_key ..).trans ?_ | split | (intro _) | (intro _ _) | exact length_modify | exact length_modify _ | exact length_map _ | exact modify_core _ | dsimp only

theorem execFlush_still  : Still s (execFlush  s) := by
  unfold execFlush
  refine onReg_still fun _ => ?_
  try dsimp only
  with_reducible repeat' first | rfl | refine ite_key ?_ ?_ | refine (State.writeLgCtl_key ..).trans ?_ | split | (intro _) | (intro _ _) | exact length_modify | exact length_modify _ | exact length_map _ | exact modify_core _ | dsimp only

theorem execLedgerScanDone_still (answers : Bool) (idBytes : BitVec 24) : Still s (execLedgerScanDone answers idBytes s) := by
  unfold execLedgerScanDone
  refine whenAlive_still fun _ => ?_
  try dsimp only
  with_reducible repeat' first | rfl | refine ite_key ?_ ?_ | refine (State.modLg_key ..).trans ?_ | refine (State.raiseNow_key ..).trans ?_ | refine (State.scanFlash_key ..).trans ?_ | split | (intro _) | (intro _ _) | exact length_modify | exact length_modify _ | exact length_map _ | exact modify_core _ | dsimp only

theorem execLgRdSelWrite_still (w : Word) : Still s (execLgRdSelWrite w s) := by
  unfold execLgRdSelWrite
  refine onReg_still fun _ => ?_
  try dsimp only
  with_reducible repeat' first | rfl | refine ite_key ?_ ?_ | refine (State.writeRdSel_key ..).trans ?_ | split | (intro _) | (intro _ _) | exact length_modify | exact length_modify _ | exact length_map _ | exact modify_core _ | dsimp only

theorem execLedgerNote_still (u : Bool) (d : Desc) : Still s (execLedgerNote u d s) := by
  unfold execLedgerNote
  refine onDesc_still fun _ _ => ?_
  try dsimp only
  with_reducible repeat' first | rfl | refine ite_key ?_ ?_ | refine (State.complete_key ..).trans ?_ | refine (State.svc_key ..).trans ?_ | split | (intro _) | (intro _ _) | exact length_modify | exact length_modify _ | exact length_map _ | exact modify_core _ | dsimp only

theorem execHealthWindowEnd_still  : Still s (execHealthWindowEnd  s) := by
  unfold execHealthWindowEnd
  refine whenAlive_still fun _ => ?_
  try dsimp only
  with_reducible repeat' first | rfl | refine ite_key ?_ ?_ | refine (State.modHs_key ..).trans ?_ | refine (State.modPorts_key _ _ ?_).trans ?_ | refine (State.send_key ..).trans ?_ | refine (foldl_key _ _ _ ?_).trans ?_ | split | (intro _) | (intro _ _) | exact length_modify | exact length_modify _ | exact length_map _ | exact modify_core _ | dsimp only

theorem execHealthCharge_still  : Still s (execHealthCharge  s) := by
  unfold execHealthCharge
  refine whenAlive_still fun _ => ?_
  try dsimp only
  with_reducible repeat' first | rfl | refine ite_key ?_ ?_ | refine (State.modScore_key ..).trans ?_ | refine (State.modPort_key ..).trans ?_ | refine (State.modHs_key ..).trans ?_ | refine (State.evaluate_key ..).trans ?_ | refine (foldl_key _ _ _ ?_).trans ?_ | split | (intro _) | (intro _ _) | exact length_modify | exact length_modify _ | exact length_map _ | exact modify_core _ | dsimp only

theorem execSparesStale_still  : Still s (execSparesStale  s) := by
  unfold execSparesStale
  refine whenAlive_still fun _ => ?_
  try dsimp only
  with_reducible repeat' first | rfl | refine ite_key ?_ ?_ | refine (State.modHs_key ..).trans ?_ | refine (State.raiseNow_key ..).trans ?_ | split | (intro _) | (intro _ _) | exact length_modify | exact length_modify _ | exact length_map _ | exact modify_core _ | dsimp only

theorem execHsSparesWrite_still (w : Word) : Still s (execHsSparesWrite w s) := by
  unfold execHsSparesWrite
  refine onReg_still fun _ => ?_
  try dsimp only
  with_reducible repeat' first | rfl | refine ite_key ?_ ?_ | refine (State.writeSpares_key ..).trans ?_ | split | (intro _) | (intro _ _) | exact length_modify | exact length_modify _ | exact length_map _ | exact modify_core _ | dsimp only

theorem execHsFloorWrite_still (w : Word) : Still s (execHsFloorWrite w s) := by
  unfold execHsFloorWrite
  refine onReg_still fun _ => ?_
  try dsimp only
  with_reducible repeat' first | rfl | refine ite_key ?_ ?_ | refine (State.writeFloor_key ..).trans ?_ | split | (intro _) | (intro _ _) | exact length_modify | exact length_modify _ | exact length_map _ | exact modify_core _ | dsimp only

theorem execClrHard_still  : Still s (execClrHard  s) := by
  unfold execClrHard
  refine onReg_still fun _ => ?_
  try dsimp only
  with_reducible repeat' first | rfl | refine ite_key ?_ ?_ | refine (State.writeHsCtl_key ..).trans ?_ | split | (intro _) | (intro _ _) | exact length_modify | exact length_modify _ | exact length_map _ | exact modify_core _ | dsimp only

theorem execHsClr_still  : Still s (execHsClr  s) := by
  unfold execHsClr
  refine onReg_still fun _ => ?_
  try dsimp only
  with_reducible repeat' first | rfl | refine ite_key ?_ ?_ | refine (State.writeHsCtl_key ..).trans ?_ | split | (intro _) | (intro _ _) | exact length_modify | exact length_modify _ | exact length_map _ | exact modify_core _ | dsimp only

theorem execHealthRx_still (p : PortNo) (m : HealthMsg) : Still s (execHealthRx p m s) := by
  unfold execHealthRx
  refine onMsg_still fun _ => ?_
  try dsimp only
  with_reducible repeat' first | rfl | refine ite_key ?_ ?_ | refine (State.takeHealth_key ..).trans ?_ | split | (intro _) | (intro _ _) | exact length_modify | exact length_modify _ | exact length_map _ | exact modify_core _ | dsimp only

theorem execFlitErrorRx_still (p : PortNo) (x : Flit × Option Flit) : Still s (execFlitErrorRx p x s) := by
  unfold execFlitErrorRx
  refine onPort_still fun _ => ?_
  try dsimp only
  with_reducible repeat' first | rfl | refine ite_key ?_ ?_ | refine (State.modPort_key ..).trans ?_ | refine (State.linkUnits_key ..).trans ?_ | refine (State.stompCopies_key ..).trans ?_ | refine (State.nak_key ..).trans ?_ | refine elim_key ?_ ?_ | split | (intro _) | (intro _ _) | exact length_modify | exact length_modify _ | exact length_map _ | exact modify_core _ | dsimp only

theorem execStompedFlitRx_still (x : PortNo × Flit × Option Flit) : Still s (execStompedFlitRx x s) := by
  unfold execStompedFlitRx
  refine onPort_still fun _ => ?_
  try dsimp only
  with_reducible repeat' first | rfl | refine ite_key ?_ ?_ | refine (State.modPort_key ..).trans ?_ | refine (State.stompCopies_key ..).trans ?_ | refine (State.accept_key ..).trans ?_ | refine (State.nak_key ..).trans ?_ | split | (intro _) | (intro _ _) | exact length_modify | exact length_modify _ | exact length_map _ | exact modify_core _ | dsimp only

theorem execLaunchRx_still (p : PortNo) (m : LaunchMsg) : Still s (execLaunchRx p m s) := by
  unfold execLaunchRx
  refine onScoped_still fun _ _ => ?_
  try dsimp only
  with_reducible repeat' first | rfl | refine ite_key ?_ ?_ | refine (State.takeLaunch_key ..).trans ?_ | split | (intro _) | (intro _ _) | exact length_modify | exact length_modify _ | exact length_map _ | exact modify_core _ | dsimp only

theorem execSwapRx_still (p : PortNo) (m : SwapMsg) : Still s (execSwapRx p m s) := by
  unfold execSwapRx
  refine onMsg_still fun _ => ?_
  try dsimp only
  with_reducible repeat' first | rfl | refine ite_key ?_ ?_ | refine (State.unknownFlit_key ..).trans ?_ | refine (State.takeSwap_key ..).trans ?_ | refine (State.countStale_key ..).trans ?_ | split | (intro _) | (intro _ _) | exact length_modify | exact length_modify _ | exact length_map _ | exact modify_core _ | dsimp only

theorem execParkRx_still (p : PortNo) (m : ParkMsg) : Still s (execParkRx p m s) := by
  unfold execParkRx
  refine onScoped_still fun _ _ => ?_
  try dsimp only
  with_reducible repeat' first | rfl | refine ite_key ?_ ?_ | refine (State.takePark_key ..).trans ?_ | split | (intro _) | (intro _ _) | exact length_modify | exact length_modify _ | exact length_map _ | exact modify_core _ | dsimp only

theorem execArriveRx_still (p : PortNo) (m : BarMsg) (tc : HT80) : Still s (execArriveRx p m tc s) := by
  unfold execArriveRx
  refine onScoped_still fun _ _ => ?_
  try dsimp only
  with_reducible repeat' first | rfl | refine ite_key ?_ ?_ | refine (State.takeArrive_key ..).trans ?_ | split | (intro _) | (intro _ _) | exact length_modify | exact length_modify _ | exact length_map _ | exact modify_core _ | dsimp only

theorem execArriveRedRx_still (p : PortNo) (m : BarMsg) (tc : HT80) : Still s (execArriveRedRx p m tc s) := by
  unfold execArriveRedRx
  refine onScoped_still fun _ _ => ?_
  try dsimp only
  with_reducible repeat' first | rfl | refine ite_key ?_ ?_ | refine (State.takeArrive_key ..).trans ?_ | split | (intro _) | (intro _ _) | exact length_modify | exact length_modify _ | exact length_map _ | exact modify_core _ | dsimp only

theorem execReleaseRx_still (p : PortNo) (m : BarMsg) : Still s (execReleaseRx p m s) := by
  unfold execReleaseRx
  refine onScoped_still fun _ _ => ?_
  try dsimp only
  with_reducible repeat' first | rfl | refine ite_key ?_ ?_ | refine (State.takeRelease_key ..).trans ?_ | split | (intro _) | (intro _ _) | exact length_modify | exact length_modify _ | exact length_map _ | exact modify_core _ | dsimp only

theorem execReleaseRedRx_still (p : PortNo) (m : BarMsg) : Still s (execReleaseRedRx p m s) := by
  unfold execReleaseRedRx
  refine onScoped_still fun _ _ => ?_
  try dsimp only
  with_reducible repeat' first | rfl | refine ite_key ?_ ?_ | refine (State.takeRelease_key ..).trans ?_ | split | (intro _) | (intro _ _) | exact length_modify | exact length_modify _ | exact length_map _ | exact modify_core _ | dsimp only

theorem execSignalRx_still (p : PortNo) (m : SignalMsg) : Still s (execSignalRx p m s) := by
  unfold execSignalRx
  refine onScoped_still fun _ _ => ?_
  try dsimp only
  with_reducible repeat' first | rfl | refine ite_key ?_ ?_ | refine (State.leafSignal_key ..).trans ?_ | refine (State.hubSignal_key ..).trans ?_ | split | (intro _) | (intro _ _) | exact length_modify | exact length_modify _ | exact length_map _ | exact modify_core _ | dsimp only

theorem execAnnounceRx_still (p : PortNo) (m : AnnounceMsg) : Still s (execAnnounceRx p m s) := by
  unfold execAnnounceRx
  refine onMsg_still fun _ => ?_
  try dsimp only
  with_reducible repeat' first | rfl | refine ite_key ?_ ?_ | refine (State.announceRx_key ..).trans ?_ | split | (intro _) | (intro _ _) | exact length_modify | exact length_modify _ | exact length_map _ | exact modify_core _ | dsimp only

theorem execAssignRx_still (p : PortNo) (m : AssignMsg) : Still s (execAssignRx p m s) := by
  unfold execAssignRx
  refine onMsg_still fun _ => ?_
  try dsimp only
  with_reducible repeat' first | rfl | refine ite_key ?_ ?_ | refine (State.assignRx_key ..).trans ?_ | split | (intro _) | (intro _ _) | exact length_modify | exact length_modify _ | exact length_map _ | exact modify_core _ | dsimp only

theorem execTreeRx_still (p : PortNo) (m : TreeMsg) : Still s (execTreeRx p m s) := by
  unfold execTreeRx
  refine onMsg_still fun _ => ?_
  try dsimp only
  with_reducible repeat' first | rfl | refine ite_key ?_ ?_ | refine (State.treeRx_key ..).trans ?_ | split | (intro _) | (intro _ _) | exact length_modify | exact length_modify _ | exact length_map _ | exact modify_core _ | dsimp only

theorem execElectRx_still (p : PortNo) (m : ElectMsg) : Still s (execElectRx p m s) := by
  unfold execElectRx
  refine onMsg_still fun _ => ?_
  try dsimp only
  with_reducible repeat' first | rfl | refine ite_key ?_ ?_ | refine (State.electRx_key ..).trans ?_ | split | (intro _) | (intro _ _) | exact length_modify | exact length_modify _ | exact length_map _ | exact modify_core _ | dsimp only

theorem execMirrorRx_still (p : PortNo) (m : MirrorMsg) : Still s (execMirrorRx p m s) := by
  unfold execMirrorRx
  refine onMsg_still fun _ => ?_
  try dsimp only
  with_reducible repeat' first | rfl | refine ite_key ?_ ?_ | refine (State.mirror_key ..).trans ?_ | refine (State.takeMirror_key ..).trans ?_ | split | (intro _) | (intro _ _) | exact length_modify | exact length_modify _ | exact length_map _ | exact modify_core _ | dsimp only

theorem execDelayRx_still (p : PortNo) (m : DelayMsg) : Still s (execDelayRx p m s) := by
  unfold execDelayRx
  refine onMsg_still fun _ => ?_
  try dsimp only
  with_reducible repeat' first | rfl | refine ite_key ?_ ?_ | refine (State.takeDelayOn_key ..).trans ?_ | split | (intro _) | (intro _ _) | exact length_modify | exact length_modify _ | exact length_map _ | exact modify_core _ | dsimp only

theorem execPartOpenRx_still (p : PortNo) (m : PartMsg) : Still s (execPartOpenRx p m s) := by
  unfold execPartOpenRx
  refine onMsg_still fun _ => ?_
  try dsimp only
  with_reducible repeat' first | rfl | refine ite_key ?_ ?_ | refine (State.takeOpen_key ..).trans ?_ | split | (intro _) | (intro _ _) | exact length_modify | exact length_modify _ | exact length_map _ | exact modify_core _ | dsimp only

theorem execPartOpenAckRx_still (p : PortNo) (m : PartMsg) : Still s (execPartOpenAckRx p m s) := by
  unfold execPartOpenAckRx
  refine onMsg_still fun _ => ?_
  try dsimp only
  with_reducible repeat' first | rfl | refine ite_key ?_ ?_ | refine (State.takeOpenAck_key ..).trans ?_ | split | (intro _) | (intro _ _) | exact length_modify | exact length_modify _ | exact length_map _ | exact modify_core _ | dsimp only

theorem execPartDeferredRx_still (p : PortNo) (m : PartMsg) : Still s (execPartDeferredRx p m s) := by
  unfold execPartDeferredRx
  refine onMsg_still fun _ => ?_
  try dsimp only
  with_reducible repeat' first | rfl | refine ite_key ?_ ?_ | refine (State.takeDeferred_key ..).trans ?_ | split | (intro _) | (intro _ _) | exact length_modify | exact length_modify _ | exact length_map _ | exact modify_core _ | dsimp only

theorem execPartRefusedRx_still (p : PortNo) (m : PartMsg) : Still s (execPartRefusedRx p m s) := by
  unfold execPartRefusedRx
  refine onMsg_still fun _ => ?_
  try dsimp only
  with_reducible repeat' first | rfl | refine ite_key ?_ ?_ | refine (State.takeRefused_key ..).trans ?_ | split | (intro _) | (intro _ _) | exact length_modify | exact length_modify _ | exact length_map _ | exact modify_core _ | dsimp only

theorem execPartCloseRx_still (p : PortNo) (m : PartMsg) : Still s (execPartCloseRx p m s) := by
  unfold execPartCloseRx
  refine onMsg_still fun _ => ?_
  try dsimp only
  with_reducible repeat' first | rfl | refine ite_key ?_ ?_ | refine (State.takeClose_key ..).trans ?_ | split | (intro _) | (intro _ _) | exact length_modify | exact length_modify _ | exact length_map _ | exact modify_core _ | dsimp only

theorem execPartCloseAckRx_still (p : PortNo) (m : PartMsg) : Still s (execPartCloseAckRx p m s) := by
  unfold execPartCloseAckRx
  refine onMsg_still fun _ => ?_
  try dsimp only
  with_reducible repeat' first | rfl | refine ite_key ?_ ?_ | refine (State.takeCloseAck_key ..).trans ?_ | split | (intro _) | (intro _ _) | exact length_modify | exact length_modify _ | exact length_map _ | exact modify_core _ | dsimp only

theorem execPartFaultRx_still (p : PortNo) (m : PartMsg) : Still s (execPartFaultRx p m s) := by
  unfold execPartFaultRx
  refine onMsg_still fun _ => ?_
  try dsimp only
  with_reducible repeat' first | rfl | refine ite_key ?_ ?_ | refine (State.takePartFault_key ..).trans ?_ | split | (intro _) | (intro _ _) | exact length_modify | exact length_modify _ | exact length_map _ | exact modify_core _ | dsimp only

theorem execBeatSend_still (p : PortNo) (stamp : HT80) : Still s (execBeatSend p stamp s) := by
  unfold execBeatSend
  refine onPort_still fun _ => ?_
  try dsimp only
  with_reducible repeat' first | rfl | refine ite_key ?_ ?_ | refine (State.modPort_key ..).trans ?_ | refine (State.emit_key ..).trans ?_ | refine (State.portExit_key ..).trans ?_ | refine (State.emitAt_key ..).trans ?_ | split | (intro _) | (intro _ _) | exact length_modify | exact length_modify _ | exact length_map _ | exact modify_core _ | dsimp only

theorem execBeatRx_still (p : PortNo) (m : BeatMsg) (stamp : HT80) : Still s (execBeatRx p m stamp s) := by
  unfold execBeatRx
  refine onFlit_still fun _ => ?_
  try dsimp only
  with_reducible repeat' first | rfl | refine ite_key ?_ ?_ | refine (State.portLost_key ..).trans ?_ | refine (State.modPort_key ..).trans ?_ | refine (State.afterBeat_key ..).trans ?_ | refine elim_key ?_ ?_ | split | (intro _) | (intro _ _) | exact length_modify | exact length_modify _ | exact length_map _ | exact modify_core _ | dsimp only

theorem execBeatTimeout_still (p : PortNo) : Still s (execBeatTimeout p s) := by
  unfold execBeatTimeout
  refine onPort_still fun _ => ?_
  try dsimp only
  with_reducible repeat' first | rfl | refine ite_key ?_ ?_ | refine (State.portLost_key ..).trans ?_ | split | (intro _) | (intro _ _) | exact length_modify | exact length_modify _ | exact length_map _ | exact modify_core _ | dsimp only

theorem execAcknakRx_still (p : PortNo) (seq : BitVec 5) (nak : Bool) : Still s (execAcknakRx p seq nak s) := by
  unfold execAcknakRx
  refine onFlit_still fun _ => ?_
  try dsimp only
  with_reducible repeat' first | rfl | refine ite_key ?_ ?_ | refine (State.ackUpTo_key ..).trans ?_ | refine (State.replayFrom_key ..).trans ?_ | split | (intro _) | (intro _ _) | exact length_modify | exact length_modify _ | exact length_map _ | exact modify_core _ | dsimp only

theorem execTrainRx_still (p : PortNo) (m : TrainMsg) : Still s (execTrainRx p m s) := by
  unfold execTrainRx
  refine onFlit_still fun _ => ?_
  try dsimp only
  with_reducible repeat' first | rfl | refine ite_key ?_ ?_ | refine (State.negotiate_key ..).trans ?_ | refine (State.modPort_key ..).trans ?_ | refine (State.enterSt_key ..).trans ?_ | refine (State.tryUp_key ..).trans ?_ | split | (intro _) | (intro _ _) | exact length_modify | exact length_modify _ | exact length_map _ | exact modify_core _ | dsimp only

theorem execTrainSend_still (p : PortNo) : Still s (execTrainSend p s) := by
  unfold execTrainSend
  refine onPort_still fun _ => ?_
  try dsimp only
  with_reducible repeat' first | rfl | refine ite_key ?_ ?_ | refine (State.negotiate_key ..).trans ?_ | refine (State.emit_key ..).trans ?_ | split | (intro _) | (intro _ _) | exact length_modify | exact length_modify _ | exact length_map _ | exact modify_core _ | dsimp only

theorem execNodeDownRx_still (p : PortNo) (m : NodeDownMsg) : Still s (execNodeDownRx p m s) := by
  unfold execNodeDownRx
  refine onFlit_still fun _ => ?_
  try dsimp only
  with_reducible repeat' first | rfl | refine ite_key ?_ ?_ | refine (State.modPort_key ..).trans ?_ | refine (State.portLost_key ..).trans ?_ | split | (intro _) | (intro _ _) | exact length_modify | exact length_modify _ | exact length_map _ | exact modify_core _ | dsimp only

theorem execLastGaspRx_still (p : PortNo) (m : LastGaspMsg) : Still s (execLastGaspRx p m s) := by
  unfold execLastGaspRx
  refine onFlit_still fun _ => ?_
  try dsimp only
  with_reducible repeat' first | rfl | refine ite_key ?_ ?_ | refine (State.unknownFlit_key ..).trans ?_ | refine (State.portLost_key ..).trans ?_ | split | (intro _) | (intro _ _) | exact length_modify | exact length_modify _ | exact length_map _ | exact modify_core _ | dsimp only

theorem execUnknownFlitRx_still (p : PortNo) (type : Byte) (sequenced : Bool) : Still s (execUnknownFlitRx p type sequenced s) := by
  unfold execUnknownFlitRx
  refine onPort_still fun _ => ?_
  try dsimp only
  with_reducible repeat' first | rfl | refine ite_key ?_ ?_ | refine (State.unknownFlit_key ..).trans ?_ | refine (State.accept_key ..).trans ?_ | split | (intro _) | (intro _ _) | exact length_modify | exact length_modify _ | exact length_map _ | exact modify_core _ | dsimp only

theorem execBlockLock_still (x : PortNo × BitVec 128) : Still s (execBlockLock x s) := by
  unfold execBlockLock
  refine onPort_still fun _ => ?_
  try dsimp only
  with_reducible repeat' first | rfl | refine ite_key ?_ ?_ | refine (State.enterSt_key ..).trans ?_ | split | (intro _) | (intro _ _) | exact length_modify | exact length_modify _ | exact length_map _ | exact modify_core _ | dsimp only

theorem execFlitLock_still (x : PortNo × List (BitVec 64)) : Still s (execFlitLock x s) := by
  unfold execFlitLock
  refine onPort_still fun _ => ?_
  try dsimp only
  with_reducible repeat' first | rfl | refine ite_key ?_ ?_ | refine (State.modPort_key ..).trans ?_ | refine (State.enterSt_key ..).trans ?_ | refine (State.negotiate_key ..).trans ?_ | split | (intro _) | (intro _ _) | exact length_modify | exact length_modify _ | exact length_map _ | exact modify_core _ | dsimp only

theorem execFlitLockLost_still (x : PortNo × BitVec 64 × Bool) : Still s (execFlitLockLost x s) := by
  unfold execFlitLockLost
  refine onPort_still fun _ => ?_
  try dsimp only
  with_reducible repeat' first | rfl | refine ite_key ?_ ?_ | refine (State.portLost_key ..).trans ?_ | split | (intro _) | (intro _ _) | exact length_modify | exact length_modify _ | exact length_map _ | exact modify_core _ | dsimp only

theorem execCalibrateDone_still (p : PortNo) : Still s (execCalibrateDone p s) := by
  unfold execCalibrateDone
  refine onPort_still fun _ => ?_
  try dsimp only
  with_reducible repeat' first | rfl | refine ite_key ?_ ?_ | refine (State.measurePath_key ..).trans ?_ | refine (State.modPort_key ..).trans ?_ | refine (State.tryUp_key ..).trans ?_ | split | (intro _) | (intro _ _) | exact length_modify | exact length_modify _ | exact length_map _ | exact modify_core _ | dsimp only

theorem execLinkStateTimeout_still (p : PortNo) : Still s (execLinkStateTimeout p s) := by
  unfold execLinkStateTimeout
  refine onPort_still fun _ => ?_
  try dsimp only
  with_reducible repeat' first | rfl | refine ite_key ?_ ?_ | refine (State.modPort_key ..).trans ?_ | refine (State.enterSt_key ..).trans ?_ | split | (intro _) | (intro _ _) | exact length_modify | exact length_modify _ | exact length_map _ | exact modify_core _ | dsimp only

theorem execLostHoldEnd_still (p : PortNo) : Still s (execLostHoldEnd p s) := by
  unfold execLostHoldEnd
  refine onPort_still fun _ => ?_
  try dsimp only
  with_reducible repeat' first | rfl | refine ite_key ?_ ?_ | refine (State.enterSt_key ..).trans ?_ | split | (intro _) | (intro _ _) | exact length_modify | exact length_modify _ | exact length_map _ | exact modify_core _ | dsimp only

theorem execDownHeldEnd_still (p : PortNo) : Still s (execDownHeldEnd p s) := by
  unfold execDownHeldEnd
  refine onPort_still fun _ => ?_
  try dsimp only
  with_reducible repeat' first | rfl | refine ite_key ?_ ?_ | refine (State.enterSt_key ..).trans ?_ | split | (intro _) | (intro _ _) | exact length_modify | exact length_modify _ | exact length_map _ | exact modify_core _ | dsimp only

theorem execReplayTimeout_still (p : PortNo) : Still s (execReplayTimeout p s) := by
  unfold execReplayTimeout
  refine onPort_still fun _ => ?_
  try dsimp only
  with_reducible repeat' first | rfl | refine ite_key ?_ ?_ | refine (State.replayFrom_key ..).trans ?_ | split | (intro _) | (intro _ _) | exact length_modify | exact length_modify _ | exact length_map _ | exact modify_core _ | dsimp only

theorem execForcedRetrain_still (p : PortNo) : Still s (execForcedRetrain p s) := by
  unfold execForcedRetrain
  refine onPort_still fun _ => ?_
  try dsimp only
  with_reducible repeat' first | rfl | refine ite_key ?_ ?_ | refine (State.portLost_key ..).trans ?_ | split | (intro _) | (intro _ _) | exact length_modify | exact length_modify _ | exact length_map _ | exact modify_core _ | dsimp only

theorem execFlitAging_still (p : PortNo) : Still s (execFlitAging p s) := by
  unfold execFlitAging
  refine onPort_still fun _ => ?_
  try dsimp only
  with_reducible repeat' first | rfl | refine ite_key ?_ ?_ | refine (State.modPort_key ..).trans ?_ | split | (intro _) | (intro _ _) | exact length_modify | exact length_modify _ | exact length_map _ | exact modify_core _ | dsimp only

theorem execPhyRecal_still (p : PortNo) : Still s (execPhyRecal p s) := by
  unfold execPhyRecal
  refine onPort_still fun _ => ?_
  try dsimp only
  with_reducible repeat' first | rfl | refine ite_key ?_ ?_ | refine (State.recalibrate_key ..).trans ?_ | split | (intro _) | (intro _ _) | exact length_modify | exact length_modify _ | exact length_map _ | exact modify_core _ | dsimp only

theorem execRstLinkAssert_still (p : PortNo) : Still s (execRstLinkAssert p s) := by
  unfold execRstLinkAssert
  refine onPort_still fun _ => ?_
  try dsimp only
  with_reducible repeat' first | rfl | refine ite_key ?_ ?_ | refine (State.linkLevel_key ..).trans ?_ | refine (State.portLost_key ..).trans ?_ | refine (State.portExit_key ..).trans ?_ | refine (State.modPort_key ..).trans ?_ | split | (intro _) | (intro _ _) | exact length_modify | exact length_modify _ | exact length_map _ | exact modify_core _ | dsimp only

theorem execRstLinkRelease_still (p : PortNo) : Still s (execRstLinkRelease p s) := by
  unfold execRstLinkRelease
  refine onPort_still fun _ => ?_
  try dsimp only
  with_reducible repeat' first | rfl | refine ite_key ?_ ?_ | refine (State.linkLevel_key ..).trans ?_ | refine (State.enterSt_key ..).trans ?_ | split | (intro _) | (intro _ _) | exact length_modify | exact length_modify _ | exact length_map _ | exact modify_core _ | dsimp only

theorem execRefInEdge_still (n : BitVec 2) (stamp : HT80) (width : BitVec 32) : Still s (execRefInEdge n stamp width s) := by
  unfold execRefInEdge
  refine onRef_still fun _ => ?_
  try dsimp only
  with_reducible repeat' first | rfl | refine ite_key ?_ ?_ | refine (State.refEdge_key ..).trans ?_ | split | (intro _) | (intro _ _) | exact length_modify | exact length_modify _ | exact length_map _ | exact modify_core _ | dsimp only

theorem execRefEdgeMissing_still (n : BitVec 2) : Still s (execRefEdgeMissing n s) := by
  unfold execRefEdgeMissing
  refine onRef_still fun _ => ?_
  try dsimp only
  with_reducible repeat' first | rfl | refine ite_key ?_ ?_ | refine (State.disqualify_key ..).trans ?_ | refine (State.modIn_key ..).trans ?_ | split | (intro _) | (intro _ _) | exact length_modify | exact length_modify _ | exact length_map _ | exact modify_core _ | dsimp only

theorem execRefFreqCheck_still (n : BitVec 2) (ppb : BitVec 32) : Still s (execRefFreqCheck n ppb s) := by
  unfold execRefFreqCheck
  refine onRef_still fun _ => ?_
  try dsimp only
  with_reducible repeat' first | rfl | refine ite_key ?_ ?_ | refine (State.modIn_key ..).trans ?_ | refine (State.disqualify_key ..).trans ?_ | split | (intro _) | (intro _ _) | exact length_modify | exact length_modify _ | exact length_map _ | exact modify_core _ | dsimp only

theorem execWaitToRestoreEnd_still (n : BitVec 2) : Still s (execWaitToRestoreEnd n s) := by
  unfold execWaitToRestoreEnd
  refine onRef_still fun _ => ?_
  try dsimp only
  with_reducible repeat' first | rfl | refine ite_key ?_ ?_ | refine (State.modIn_key ..).trans ?_ | refine (State.runSelection_key ..).trans ?_ | split | (intro _) | (intro _ _) | exact length_modify | exact length_modify _ | exact length_map _ | exact modify_core _ | dsimp only

theorem execRefAgreeCompare_still  : Still s (execRefAgreeCompare  s) := by
  unfold execRefAgreeCompare
  refine whenAlive_still fun _ => ?_
  try dsimp only
  with_reducible repeat' first | rfl | refine ite_key ?_ ?_ | refine (State.applyDecl_key ..).trans ?_ | refine (State.modOrg_key ..).trans ?_ | refine (State.comparePair_key ..).trans ?_ | refine (State.runSelection_key ..).trans ?_ | refine (State.requalify_key ..).trans ?_ | refine (foldl_key _ _ _ ?_).trans ?_ | split | (intro _) | (intro _ _) | exact length_modify | exact length_modify _ | exact length_map _ | exact modify_core _ | dsimp only

theorem execReferenceConflictRepeat_still  : Still s (execReferenceConflictRepeat  s) := by
  unfold execReferenceConflictRepeat
  refine whenAlive_still fun _ => ?_
  try dsimp only
  with_reducible repeat' first | rfl | refine ite_key ?_ ?_ | refine (State.raiseConflict_key ..).trans ?_ | split | (intro _) | (intro _ _) | exact length_modify | exact length_modify _ | exact length_map _ | exact modify_core _ | dsimp only

theorem execMeasureEnd_still  : Still s (execMeasureEnd  s) := by
  unfold execMeasureEnd
  refine whenAlive_still fun _ => ?_
  try dsimp only
  with_reducible repeat' first | rfl | refine ite_key ?_ ?_ | refine (State.commitSwitch_key ..).trans ?_ | refine (State.runSelection_key ..).trans ?_ | refine (State.requalify_key ..).trans ?_ | split | (intro _) | (intro _ _) | exact length_modify | exact length_modify _ | exact length_map _ | exact modify_core _ | dsimp only

theorem execHoldHistoryStore_still  : Still s (execHoldHistoryStore  s) := by
  unfold execHoldHistoryStore
  refine whenAlive_still fun _ => ?_
  try dsimp only
  with_reducible repeat' first | rfl | refine ite_key ?_ ?_ | refine (State.modOrg_key ..).trans ?_ | refine (State.requalify_key ..).trans ?_ | split | (intro _) | (intro _ _) | exact length_modify | exact length_modify _ | exact length_map _ | exact modify_core _ | dsimp only

theorem execAccelStageEnd_still  : Still s (execAccelStageEnd  s) := by
  unfold execAccelStageEnd
  refine whenAlive_still fun _ => ?_
  try dsimp only
  with_reducible repeat' first | rfl | refine ite_key ?_ ?_ | refine (State.stopAccel_key ..).trans ?_ | refine (State.modOrg_key ..).trans ?_ | refine (State.enterLocked_key ..).trans ?_ | refine (State.raiseNow_key ..).trans ?_ | refine (State.startAccel_key ..).trans ?_ | split | (intro _) | (intro _ _) | exact length_modify | exact length_modify _ | exact length_map _ | exact modify_core _ | dsimp only

theorem execPfailFirstHigh_still  : Still s (execPfailFirstHigh  s) := by
  unfold execPfailFirstHigh
  refine whenAlive_still fun _ => ?_
  try dsimp only
  with_reducible repeat' first | rfl | refine ite_key ?_ ?_ | refine (State.modPins_key _ _ ?_).trans ?_ | split | (intro _) | (intro _ _) | exact length_modify | exact length_modify _ | exact length_map _ | exact modify_core _ | dsimp only

theorem execPwPfailLowSample_still  : Still s (execPwPfailLowSample  s) := by
  unfold execPwPfailLowSample
  refine whenAlive_still fun _ => ?_
  try dsimp only
  with_reducible repeat' first | rfl | refine ite_key ?_ ?_ | refine (State.modPins_key _ _ ?_).trans ?_ | split | (intro _) | (intro _ _) | exact length_modify | exact length_modify _ | exact length_map _ | exact modify_core _ | dsimp only

theorem execBankOwnerWrite_still (b : BitVec 5) (code : BitVec 4) : Still s (execBankOwnerWrite b code s) := by
  unfold execBankOwnerWrite
  refine onReg_still fun _ => ?_
  try dsimp only
  with_reducible repeat' first | rfl | refine ite_key ?_ ?_ | refine (State.writeOwner_key ..).trans ?_ | split | (intro _) | (intro _ _) | exact length_modify | exact length_modify _ | exact length_map _ | exact modify_core _ | dsimp only

theorem execSunNowRead_still  : Still s (execSunNowRead  s) := by
  unfold execSunNowRead
  refine onRead_still fun _ => ?_
  try dsimp only
  with_reducible repeat' first | rfl | refine ite_key ?_ ?_ | refine (State.readReg_key ..).trans ?_ | split | (intro _) | (intro _ _) | exact length_modify | exact length_modify _ | exact length_map _ | exact modify_core _ | dsimp only

theorem execSnapshotRead_still (addr : BitVec 18) : Still s (execSnapshotRead addr s) := by
  unfold execSnapshotRead
  refine onRead_still fun _ => ?_
  try dsimp only
  with_reducible repeat' first | rfl | refine ite_key ?_ ?_ | refine (State.readReg_key ..).trans ?_ | split | (intro _) | (intro _ _) | exact length_modify | exact length_modify _ | exact length_map _ | exact modify_core _ | dsimp only

theorem execCapTsRead_still (n : BitVec 3) : Still s (execCapTsRead n s) := by
  unfold execCapTsRead
  refine onRead_still fun _ => ?_
  try dsimp only
  with_reducible repeat' first | rfl | refine ite_key ?_ ?_ | refine (State.readReg_key ..).trans ?_ | split | (intro _) | (intro _ _) | exact length_modify | exact length_modify _ | exact length_map _ | exact modify_core _ | dsimp only

theorem execPreset_still  : Still s (execPreset  s) := by
  unfold execPreset
  refine onReg_still fun _ => ?_
  try dsimp only
  with_reducible repeat' first | rfl | refine ite_key ?_ ?_ | refine (State.writeSunCtl_key ..).trans ?_ | split | (intro _) | (intro _ _) | exact length_modify | exact length_modify _ | exact length_map _ | exact modify_core _ | dsimp only

theorem execAccel_still  : Still s (execAccel  s) := by
  unfold execAccel
  refine onReg_still fun _ => ?_
  try dsimp only
  with_reducible repeat' first | rfl | refine ite_key ?_ ?_ | refine (State.writeAccel_key ..).trans ?_ | split | (intro _) | (intro _ _) | exact length_modify | exact length_modify _ | exact length_map _ | exact modify_core _ | dsimp only

theorem execReelect_still (w : Word) : Still s (execReelect w s) := by
  unfold execReelect
  refine onReg_still fun _ => ?_
  try dsimp only
  with_reducible repeat' first | rfl | refine ite_key ?_ ?_ | refine (State.writePrio_key ..).trans ?_ | split | (intro _) | (intro _ _) | exact length_modify | exact length_modify _ | exact length_map _ | exact modify_core _ | dsimp only

theorem execOrgUtcOfsWrite_still (w : Word) : Still s (execOrgUtcOfsWrite w s) := by
  unfold execOrgUtcOfsWrite
  refine onReg_still fun _ => ?_
  try dsimp only
  with_reducible repeat' first | rfl | refine ite_key ?_ ?_ | refine (State.writeUtcOfs_key ..).trans ?_ | split | (intro _) | (intro _ _) | exact length_modify | exact length_modify _ | exact length_map _ | exact modify_core _ | dsimp only

theorem execTlEnSet_still (p : PortNo) (w : Word) : Still s (execTlEnSet p w s) := by
  unfold execTlEnSet
  refine onReg_still fun _ => ?_
  try dsimp only
  with_reducible repeat' first | rfl | refine ite_key ?_ ?_ | refine (State.writeTlCtl_key ..).trans ?_ | split | (intro _) | (intro _ _) | exact length_modify | exact length_modify _ | exact length_map _ | exact modify_core _ | dsimp only

theorem execTlEnClear_still (p : PortNo) (w : Word) : Still s (execTlEnClear p w s) := by
  unfold execTlEnClear
  refine onReg_still fun _ => ?_
  try dsimp only
  with_reducible repeat' first | rfl | refine ite_key ?_ ?_ | refine (State.writeTlCtl_key ..).trans ?_ | split | (intro _) | (intro _ _) | exact length_modify | exact length_modify _ | exact length_map _ | exact modify_core _ | dsimp only

theorem execRetrain_still (p : PortNo) : Still s (execRetrain p s) := by
  unfold execRetrain
  refine onReg_still fun _ => ?_
  try dsimp only
  with_reducible repeat' first | rfl | refine ite_key ?_ ?_ | refine (State.rpErr_key ..).trans ?_ | refine (State.portLost_key ..).trans ?_ | refine (State.rpOk_key ..).trans ?_ | split | (intro _) | (intro _ _) | exact length_modify | exact length_modify _ | exact length_map _ | exact modify_core _ | dsimp only

theorem execCalNow_still (p : PortNo) : Still s (execCalNow p s) := by
  unfold execCalNow
  refine onReg_still fun _ => ?_
  try dsimp only
  with_reducible repeat' first | rfl | refine ite_key ?_ ?_ | refine (State.rpErr_key ..).trans ?_ | refine (State.recalibrate_key ..).trans ?_ | refine (State.rpOk_key ..).trans ?_ | split | (intro _) | (intro _ _) | exact length_modify | exact length_modify _ | exact length_map _ | exact modify_core _ | dsimp only

theorem execOscLock_still  : Still s (execOscLock  s) := by
  unfold execOscLock
  refine whenAlive_still fun _ => ?_
  try dsimp only
  with_reducible repeat' first | rfl | refine ite_key ?_ ?_ | refine (State.modSun_key ..).trans ?_ | split | (intro _) | (intro _ _) | exact length_modify | exact length_modify _ | exact length_map _ | exact modify_core _ | dsimp only

theorem execDoorbellPoll_still (n : BitVec 3) : Still s (execDoorbellPoll n s) := by
  unfold execDoorbellPoll
  refine whenAlive_still fun _ => ?_
  try dsimp only
  with_reducible repeat' first | rfl | refine ite_key ?_ ?_ | refine (State.readDoorbell_key ..).trans ?_ | split | (intro _) | (intro _ _) | exact length_modify | exact length_modify _ | exact length_map _ | exact modify_core _ | dsimp only

theorem execRingEnSet_still (n : BitVec 3) (w : Word) : Still s (execRingEnSet n w s) := by
  unfold execRingEnSet
  refine onReg_still fun _ => ?_
  try dsimp only
  with_reducible repeat' first | rfl | refine ite_key ?_ ?_ | refine (State.writeRingCtl_key ..).trans ?_ | split | (intro _) | (intro _ _) | exact length_modify | exact length_modify _ | exact length_map _ | exact modify_core _ | dsimp only

theorem execRingEnClear_still (n : BitVec 3) (w : Word) : Still s (execRingEnClear n w s) := by
  unfold execRingEnClear
  refine onReg_still fun _ => ?_
  try dsimp only
  with_reducible repeat' first | rfl | refine ite_key ?_ ?_ | refine (State.writeRingCtl_key ..).trans ?_ | split | (intro _) | (intro _ _) | exact length_modify | exact length_modify _ | exact length_map _ | exact modify_core _ | dsimp only

theorem execRingStopped_still (n : BitVec 3) : Still s (execRingStopped n s) := by
  unfold execRingStopped
  refine whenAlive_still fun _ => ?_
  try dsimp only
  with_reducible repeat' first | rfl | refine ite_key ?_ ?_ | refine (State.modRing_key ..).trans ?_ | split | (intro _) | (intro _ _) | exact length_modify | exact length_modify _ | exact length_map _ | exact modify_core _ | dsimp only

theorem execDbNudge_still (w : Word) : Still s (execDbNudge w s) := by
  unfold execDbNudge
  refine onReg_still fun _ => ?_
  try dsimp only
  with_reducible repeat' first | rfl | refine ite_key ?_ ?_ | refine (State.nudge_key ..).trans ?_ | split | (intro _) | (intro _ _) | exact length_modify | exact length_modify _ | exact length_map _ | exact modify_core _ | dsimp only

theorem execBsClr_still  : Still s (execBsClr  s) := by
  unfold execBsClr
  refine onLeafReg_still fun _ => ?_
  try dsimp only
  with_reducible repeat' first | rfl | refine ite_key ?_ ?_ | refine (State.writeBsCtl_key ..).trans ?_ | split | (intro _) | (intro _ _) | exact length_modify | exact length_modify _ | exact length_map _ | exact modify_core _ | dsimp only

theorem execSoClr_still  : Still s (execSoClr  s) := by
  unfold execSoClr
  refine onLeafReg_still fun _ => ?_
  try dsimp only
  with_reducible repeat' first | rfl | refine ite_key ?_ ?_ | refine (State.writeSoWin_key ..).trans ?_ | refine (State.autoDump_key ..).trans ?_ | split | (intro _) | (intro _ _) | exact length_modify | exact length_modify _ | exact length_map _ | exact modify_core _ | dsimp only

theorem execSyncWinPost_still (o : BitVec 12) (w : Word) : Still s (execSyncWinPost o w s) := by
  unfold execSyncWinPost
  refine onLeafReg_still fun _ => ?_
  try dsimp only
  with_reducible repeat' first | rfl | refine ite_key ?_ ?_ | refine (State.winPost_key ..).trans ?_ | split | (intro _) | (intro _ _) | exact length_modify | exact length_modify _ | exact length_map _ | exact modify_core _ | dsimp only

theorem execSyncWinOp_still (o : BitVec 12) (w : Word) : Still s (execSyncWinOp o w s) := by
  unfold execSyncWinOp
  refine onLeafReg_still fun _ => ?_
  try dsimp only
  with_reducible repeat' first | rfl | refine ite_key ?_ ?_ | refine (State.winPost_key ..).trans ?_ | split | (intro _) | (intro _ _) | exact length_modify | exact length_modify _ | exact length_map _ | exact modify_core _ | dsimp only

theorem execSyncWinCfg_still (o : BitVec 12) (w : Word) : Still s (execSyncWinCfg o w s) := by
  unfold execSyncWinCfg
  refine onLeafReg_still fun _ => ?_
  try dsimp only
  with_reducible repeat' first | rfl | refine ite_key ?_ ?_ | refine (State.winCfg_key ..).trans ?_ | split | (intro _) | (intro _ _) | exact length_modify | exact length_modify _ | exact length_map _ | exact modify_core _ | dsimp only

theorem execDgLayerHiWrite_still (w : Word) : Still s (execDgLayerHiWrite w s) := by
  unfold execDgLayerHiWrite
  refine onLeafReg_still fun _ => ?_
  try dsimp only
  with_reducible repeat' first | rfl | refine ite_key ?_ ?_ | refine (State.writeLayerHi_key ..).trans ?_ | split | (intro _) | (intro _ _) | exact length_modify | exact length_modify _ | exact length_map _ | exact modify_core _ | dsimp only

theorem execElectSettle_still  : Still s (execElectSettle  s) := by
  unfold execElectSettle
  refine whenAlive_still fun _ => ?_
  try dsimp only
  with_reducible repeat' first | rfl | refine ite_key ?_ ?_ | refine (State.stateLost_key ..).trans ?_ | refine (State.modFab_key ..).trans ?_ | refine (State.takeRoot_key ..).trans ?_ | refine elim_key ?_ ?_ | split | (intro _) | (intro _ _) | exact length_modify | exact length_modify _ | exact length_map _ | exact modify_core _ | dsimp only

theorem execStandbyTakeoverTimer_still  : Still s (execStandbyTakeoverTimer  s) := by
  unfold execStandbyTakeoverTimer
  refine whenAlive_still fun _ => ?_
  try dsimp only
  with_reducible repeat' first | rfl | refine ite_key ?_ ?_ | refine (State.takeOver_key ..).trans ?_ | split | (intro _) | (intro _ _) | exact length_modify | exact length_modify _ | exact length_map _ | exact modify_core _ | dsimp only

theorem execNoStandbyRootRepeat_still  : Still s (execNoStandbyRootRepeat  s) := by
  unfold execNoStandbyRootRepeat
  refine whenAlive_still fun _ => ?_
  try dsimp only
  with_reducible repeat' first | rfl | refine ite_key ?_ ?_ | refine (State.chooseStandby_key ..).trans ?_ | split | (intro _) | (intro _ _) | exact length_modify | exact length_modify _ | exact length_map _ | exact modify_core _ | dsimp only

theorem execClaimHoldEnd_still  : Still s (execClaimHoldEnd  s) := by
  unfold execClaimHoldEnd
  refine whenAlive_still fun _ => ?_
  try dsimp only
  with_reducible repeat' first | rfl | refine ite_key ?_ ?_ | refine (State.modElect_key ..).trans ?_ | refine (State.sendClaim_key ..).trans ?_ | refine (State.takeRoot_key ..).trans ?_ | split | (intro _) | (intro _ _) | exact length_modify | exact length_modify _ | exact length_map _ | exact modify_core _ | dsimp only

theorem execTreeOfferRepeat_still  : Still s (execTreeOfferRepeat  s) := by
  unfold execTreeOfferRepeat
  refine whenAlive_still fun _ => ?_
  try dsimp only
  with_reducible repeat' first | rfl | refine ite_key ?_ ?_ | refine (State.withdraw_key ..).trans ?_ | refine (State.sendOffers_key ..).trans ?_ | split | (intro _) | (intro _ _) | exact length_modify | exact length_modify _ | exact length_map _ | exact modify_core _ | dsimp only

theorem execParentWaitEnd_still (p : PortNo) : Still s (execParentWaitEnd p s) := by
  unfold execParentWaitEnd
  refine onPort_still fun _ => ?_
  try dsimp only
  with_reducible repeat' first | rfl | refine ite_key ?_ ?_ | refine (State.modPort_key ..).trans ?_ | refine (State.setParent_key ..).trans ?_ | refine (State.seekParent_key ..).trans ?_ | split | (intro _) | (intro _ _) | exact length_modify | exact length_modify _ | exact length_map _ | exact modify_core _ | dsimp only

theorem execReportRepeat_still (p : PortNo) : Still s (execReportRepeat p s) := by
  unfold execReportRepeat
  refine onPort_still fun _ => ?_
  try dsimp only
  with_reducible repeat' first | rfl | refine ite_key ?_ ?_ | refine (State.reportChild_key ..).trans ?_ | split | (intro _) | (intro _ _) | exact length_modify | exact length_modify _ | exact length_map _ | exact modify_core _ | dsimp only

theorem execDelayPeriodic_still  : Still s (execDelayPeriodic  s) := by
  unfold execDelayPeriodic
  refine whenAlive_still fun _ => ?_
  try dsimp only
  with_reducible repeat' first | rfl | refine ite_key ?_ ?_ | refine (State.reportAll_key ..).trans ?_ | split | (intro _) | (intro _ _) | exact length_modify | exact length_modify _ | exact length_map _ | exact modify_core _ | dsimp only

theorem execLocationExpire_still (h : BitVec 64) : Still s (execLocationExpire h s) := by
  unfold execLocationExpire
  refine whenAlive_still fun _ => ?_
  try dsimp only
  with_reducible repeat' first | rfl | refine ite_key ?_ ?_ | refine (State.modNode_key ..).trans ?_ | split | (intro _) | (intro _ _) | exact length_modify | exact length_modify _ | exact length_map _ | exact modify_core _ | dsimp only

theorem execTrellisActionSample_still (ix : BitVec 32) : Still s (execTrellisActionSample ix s) := by
  unfold execTrellisActionSample
  refine onLeaf_still fun _ => ?_
  try dsimp only
  with_reducible repeat' first | rfl | refine ite_key ?_ ?_ | refine (State.actionSample_key ..).trans ?_ | split | (intro _) | (intro _ _) | exact length_modify | exact length_modify _ | exact length_map _ | exact modify_core _ | dsimp only

theorem execTrellisWordRx_still (level : Level) (a : CellAddr) (w : TrellisWord) : Still s (execTrellisWordRx level a w s) := by
  unfold execTrellisWordRx
  refine onSeated_still fun _ => ?_
  try dsimp only
  with_reducible repeat' first | rfl | refine ite_key ?_ ?_ | refine (State.downWord_key ..).trans ?_ | refine (State.upWordRx_key ..).trans ?_ | split | (intro _) | (intro _ _) | exact length_modify | exact length_modify _ | exact length_map _ | exact modify_core _ | dsimp only

theorem execTrellisPacketRx_still (level : Level) (a : CellAddr) (src : Option (BitVec 7)) (words : Bool × List (BitVec 28)) : Still s (execTrellisPacketRx level a src words s) := by
  unfold execTrellisPacketRx
  refine onSeated_still fun _ => ?_
  try dsimp only
  with_reducible repeat' first | rfl | refine ite_key ?_ ?_ | refine (State.packetRx_key ..).trans ?_ | split | (intro _) | (intro _ _) | exact length_modify | exact length_modify _ | exact length_map _ | exact modify_core _ | dsimp only

theorem execResultRx_still (level : Level) (a : CellAddr) (ctl : BitVec 20) (data : BitVec 128) : Still s (execResultRx level a ctl data s) := by
  unfold execResultRx
  refine onSeated_still fun _ => ?_
  try dsimp only
  with_reducible repeat' first | rfl | refine ite_key ?_ ?_ | refine (State.takePacket_key ..).trans ?_ | split | (intro _) | (intro _ _) | exact length_modify | exact length_modify _ | exact length_map _ | exact modify_core _ | dsimp only

theorem execCellArrive_still (a : CellAddr) (ch : BitVec 4) : Still s (execCellArrive a ch s) := by
  unfold execCellArrive
  refine onStake_still fun _ => ?_
  try dsimp only
  with_reducible repeat' first | rfl | refine ite_key ?_ ?_ | refine (State.cellArrive_key ..).trans ?_ | split | (intro _) | (intro _ _) | exact length_modify | exact length_modify _ | exact length_map _ | exact modify_core _ | dsimp only

theorem execCellContrib_still (a : CellAddr) (ctl : BitVec 24) (data : BitVec 128) : Still s (execCellContrib a ctl data s) := by
  unfold execCellContrib
  refine onStake_still fun _ => ?_
  try dsimp only
  with_reducible repeat' first | rfl | refine ite_key ?_ ?_ | refine (State.sendUp_key ..).trans ?_ | refine (State.unitMismatch_key ..).trans ?_ | refine (State.cellArrive_key ..).trans ?_ | split | (intro _) | (intro _ _) | exact length_modify | exact length_modify _ | exact length_map _ | exact modify_core _ | dsimp only

theorem execCellPost_still (a : CellAddr) (obj : BitVec 12) (op : Byte) (val : BitVec 32) : Still s (execCellPost a obj op val s) := by
  unfold execCellPost
  refine onStake_still fun _ => ?_
  try dsimp only
  with_reducible repeat' first | rfl | refine ite_key ?_ ?_ | refine (State.sendUp_key ..).trans ?_ | split | (intro _) | (intro _ _) | exact length_modify | exact length_modify _ | exact length_map _ | exact modify_core _ | dsimp only

theorem execEventPresent_still (a : CellAddr) : Still s (execEventPresent a s) := by
  unfold execEventPresent
  refine onSeated_still fun _ => ?_
  try dsimp only
  with_reducible repeat' first | rfl | refine ite_key ?_ ?_ | refine (State.presentOne_key ..).trans ?_ | refine (State.modUnit_key ..).trans ?_ | refine (foldl_key _ _ _ ?_).trans ?_ | split | (intro _) | (intro _ _) | exact length_modify | exact length_modify _ | exact length_map _ | exact modify_core _ | dsimp only

theorem execUnitErrorReport_still (a : CellAddr) (code : BitVec 16) (cnt : BitVec 12) : Still s (execUnitErrorReport a code cnt s) := by
  unfold execUnitErrorReport
  refine onUnit_still fun _ => ?_
  try dsimp only
  with_reducible repeat' first | rfl | refine ite_key ?_ ?_ | refine (State.modUnit_key ..).trans ?_ | refine (State.raise_key ..).trans ?_ | refine (State.unseat_key ..).trans ?_ | refine (freeIx_key ..).trans ?_ | split | (intro _) | (intro _ _) | exact length_modify | exact length_modify _ | exact length_map _ | exact modify_core _ | dsimp only

theorem execCheckSend_still  : Still s (execCheckSend  s) := by
  unfold execCheckSend
  refine onLeaf_still fun _ => ?_
  try dsimp only
  with_reducible repeat' first | rfl | refine ite_key ?_ ?_ | refine (State.modTr_key ..).trans ?_ | split | (intro _) | (intro _ _) | exact length_modify | exact length_modify _ | exact length_map _ | exact modify_core _ | dsimp only

theorem execRegionClockSlip_still (region : BitVec 7) : Still s (execRegionClockSlip region s) := by
  unfold execRegionClockSlip
  refine onUnit_still fun _ => ?_
  try dsimp only
  with_reducible repeat' first | rfl | refine ite_key ?_ ?_ | refine (State.unitFault_key ..).trans ?_ | refine (State.unseat_key ..).trans ?_ | split | (intro _) | (intro _ _) | exact length_modify | exact length_modify _ | exact length_map _ | exact modify_core _ | dsimp only

theorem execLaneClockLost_still (level : Level) (a : CellAddr) (child : Byte) : Still s (execLaneClockLost level a child s) := by
  unfold execLaneClockLost
  refine onUnit_still fun _ => ?_
  try dsimp only
  with_reducible repeat' first | rfl | refine ite_key ?_ ?_ | refine (State.raiseNow_key ..).trans ?_ | refine (State.loseRegion_key ..).trans ?_ | refine (State.unitFault_key ..).trans ?_ | refine (State.unseat_key ..).trans ?_ | split | (intro _) | (intro _ _) | exact length_modify | exact length_modify _ | exact length_map _ | exact modify_core _ | dsimp only

theorem execHostClockWindow_still (ends : Tick) : Still s (execHostClockWindow ends s) := by
  unfold execHostClockWindow
  refine onLeaf_still fun _ => ?_
  try dsimp only
  with_reducible repeat' first | rfl | refine ite_key ?_ ?_ | refine (State.raiseNow_key ..).trans ?_ | refine (State.unseat_key ..).trans ?_ | split | (intro _) | (intro _ _) | exact length_modify | exact length_modify _ | exact length_map _ | exact modify_core _ | dsimp only

theorem execTrellisAccessRetry_still (write : Bool) (level : Level) (a : CellAddr) : Still s (execTrellisAccessRetry write level a s) := by
  unfold execTrellisAccessRetry
  refine onLeaf_still fun _ => ?_
  try dsimp only
  with_reducible repeat' first | rfl | refine ite_key ?_ ?_ | refine (State.modTr_key ..).trans ?_ | refine (State.sendDown_key ..).trans ?_ | refine (State.raiseNow_key ..).trans ?_ | split | (intro _) | (intro _ _) | exact length_modify | exact length_modify _ | exact length_map _ | exact modify_core _ | dsimp only

theorem execTelemReport_still (level : Level) (a : CellAddr) (due : Tick) : Still s (execTelemReport level a due s) := by
  unfold execTelemReport
  refine onSeated_still fun _ => ?_
  try dsimp only
  with_reducible repeat' first | rfl | refine ite_key ?_ ?_ | refine (State.modUnit_key ..).trans ?_ | refine (State.modTr_key ..).trans ?_ | refine (State.sendUp_key ..).trans ?_ | split | (intro _) | (intro _ _) | exact length_modify | exact length_modify _ | exact length_map _ | exact modify_core _ | dsimp only

theorem execErrorWireFault_still (level : Level) (a : CellAddr) (child : Byte) : Still s (execErrorWireFault level a child s) := by
  unfold execErrorWireFault
  refine onUnit_still fun _ => ?_
  try dsimp only
  with_reducible repeat' first | rfl | refine ite_key ?_ ?_ | refine (State.unitFault_key ..).trans ?_ | split | (intro _) | (intro _ _) | exact length_modify | exact length_modify _ | exact length_map _ | exact modify_core _ | dsimp only

theorem execTrCellHoldReq_still (a : CellAddr) (level : Bool) : Still s (execTrCellHoldReq a level s) := by
  unfold execTrCellHoldReq
  refine onUnit_still fun _ => ?_
  try dsimp only
  with_reducible repeat' first | rfl | refine ite_key ?_ ?_ | refine (State.requestHold_key ..).trans ?_ | split | (intro _) | (intro _ _) | exact length_modify | exact length_modify _ | exact length_map _ | exact modify_core _ | dsimp only

theorem execTrRgnHoldReq_still (region : BitVec 7) (level : Bool) : Still s (execTrRgnHoldReq region level s) := by
  unfold execTrRgnHoldReq
  refine onUnit_still fun _ => ?_
  try dsimp only
  with_reducible repeat' first | rfl | refine ite_key ?_ ?_ | refine (State.requestHold_key ..).trans ?_ | split | (intro _) | (intro _ _) | exact length_modify | exact length_modify _ | exact length_map _ | exact modify_core _ | dsimp only

theorem execHoldBitRx_still (region : BitVec 7) (level : Bool) : Still s (execHoldBitRx region level s) := by
  unfold execHoldBitRx
  refine onUnit_still fun _ => ?_
  try dsimp only
  with_reducible repeat' first | rfl | refine ite_key ?_ ?_ | refine (State.modTr_key ..).trans ?_ | split | (intro _) | (intro _ _) | exact length_modify | exact length_modify _ | exact length_map _ | exact modify_core _ | dsimp only

theorem execSeatingEnd_still (m : SeatMeas) : Still s (execSeatingEnd m s) := by
  unfold execSeatingEnd
  refine onLeaf_still fun _ => ?_
  try dsimp only
  with_reducible repeat' first | rfl | refine ite_key ?_ ?_ | refine (State.seatingEnd_key ..).trans ?_ | split | (intro _) | (intro _ _) | exact length_modify | exact length_modify _ | exact length_map _ | exact modify_core _ | dsimp only

theorem execTrellisSetSwitch_still  : Still s (execTrellisSetSwitch  s) := by
  unfold execTrellisSetSwitch
  refine onLeaf_still fun _ => ?_
  try dsimp only
  with_reducible repeat' first | rfl | refine ite_key ?_ ?_ | refine (State.modTr_key ..).trans ?_ | split | (intro _) | (intro _ _) | exact length_modify | exact length_modify _ | exact length_map _ | exact modify_core _ | dsimp only

theorem execTrEnWrite_still (w : Word) : Still s (execTrEnWrite w s) := by
  unfold execTrEnWrite
  refine onLeafReg_still fun _ => ?_
  try dsimp only
  with_reducible repeat' first | rfl | refine ite_key ?_ ?_ | refine (State.writeTrCtl_key ..).trans ?_ | split | (intro _) | (intro _ _) | exact length_modify | exact length_modify _ | exact length_map _ | exact modify_core _ | dsimp only

theorem execSeat_still  : Still s (execSeat  s) := by
  unfold execSeat
  refine onLeafReg_still fun _ => ?_
  try dsimp only
  with_reducible repeat' first | rfl | refine ite_key ?_ ?_ | refine (State.startSeat_key ..).trans ?_ | split | (intro _) | (intro _ _) | exact length_modify | exact length_modify _ | exact length_map _ | exact modify_core _ | dsimp only

theorem execReseat_still (region : BitVec 7) : Still s (execReseat region s) := by
  unfold execReseat
  refine onLeafReg_still fun _ => ?_
  try dsimp only
  with_reducible repeat' first | rfl | refine ite_key ?_ ?_ | refine (State.modTr_key ..).trans ?_ | refine (State.startSeat_key ..).trans ?_ | refine (State.rpErr_key ..).trans ?_ | split | (intro _) | (intro _ _) | exact length_modify | exact length_modify _ | exact length_map _ | exact modify_core _ | dsimp only

theorem execCopy_still  : Still s (execCopy  s) := by
  unfold execCopy
  refine onLeafReg_still fun _ => ?_
  try dsimp only
  with_reducible repeat' first | rfl | refine ite_key ?_ ?_ | refine (State.startCopy_key ..).trans ?_ | split | (intro _) | (intro _ _) | exact length_modify | exact length_modify _ | exact length_map _ | exact modify_core _ | dsimp only

theorem execClrStretch_still  : Still s (execClrStretch  s) := by
  unfold execClrStretch
  refine onLeafReg_still fun _ => ?_
  try dsimp only
  with_reducible repeat' first | rfl | refine ite_key ?_ ?_ | refine (State.modTr_key ..).trans ?_ | refine (State.rpOk_key ..).trans ?_ | split | (intro _) | (intro _ _) | exact length_modify | exact length_modify _ | exact length_map _ | exact modify_core _ | dsimp only

theorem execClrSat_still  : Still s (execClrSat  s) := by
  unfold execClrSat
  refine onLeafReg_still fun _ => ?_
  try dsimp only
  with_reducible repeat' first | rfl | refine ite_key ?_ ?_ | refine (State.modTr_key ..).trans ?_ | refine (State.rpOk_key ..).trans ?_ | split | (intro _) | (intro _ _) | exact length_modify | exact length_modify _ | exact length_map _ | exact modify_core _ | dsimp only


theorem execLedgerReadDone_still : Still s (execLedgerReadDone s) := by
  unfold execLedgerReadDone
  refine whenAlive_still fun t => ite_key rfl ?_
  have k (u : State) (v e : Bool) (d : BitVec 1024) (h : u.key = t.key) :
      (u.modLg fun l => { l with rdBusy := false, rdValid := v, rdErased := e, rdData := d }).key = t.key := (State.modLg_key ..).trans h
  refine ite_key (k _ _ _ _ rfl) ?_
  split
  · exact k _ _ _ _ rfl
  · exact k _ _ _ _ rfl
  · exact k _ _ _ _ rfl
  · exact k _ _ _ _ rfl
  · exact k _ _ _ _ rfl

/-- Where the answer is a next state, the command keeps the invariant of a block that is out of reset. -/
def Keeps (s : State) (r : Result) : Prop := s.isUp = true → ∀ t, r = .next t → Kept s t
theorem Keeps.still {r : Result} (h : Still s r) : Keeps s r := fun _ t e => .of_key (h t e)
theorem whenAlive_keeps {f : State → State} (h : ∀ t, Kept t (f t)) : Keeps s (whenAlive s f) := by
  rintro - _ ⟨⟩; exact .ite (h s) .refl
theorem onReg_keeps {d : Nat} {f : State → State} (h : ∀ t, Kept t (f t)) : Keeps s (onReg d s f) := by
  rintro - _ ⟨⟩; exact .ite (.ite (h s) (.of_key (State.rpErr_key s))) .refl
theorem onSafeReg_keeps {f : State → State} (h : ∀ t, Kept t (f t)) : Keeps s (onSafeReg s f) := by
  rintro - _ ⟨⟩; exact .ite (.ite (h s) (.of_key (State.rpErr_key s))) .refl
theorem onDom_keeps {d : Nat} {f : State → State} (h : ∀ t, Kept t (f t)) : Keeps s (onDom d s f) := by
  unfold onDom; split
  · exact whenAlive_keeps h
  · intro _ _ e; cases e
theorem execBistGo_keeps (w) : Keeps s (execBistGo w s) := by
  unfold execBistGo; exact onReg_keeps fun _ => State.writeBistCtl_kept _
theorem execFaultReport_keeps (x) : Keeps s (execFaultReport x s) := by
  unfold execFaultReport; refine whenAlive_keeps fun t => ?_
  split
  · exact State.collect_kept _
  · split
    · exact .refl
    · rename_i r rest _
      exact .trans (t := t.modFc fun f => { f with inbox := rest }) (.of_key (State.modFc_key _ _ fun _ => rfl)) (State.collect_kept _)
theorem execCollectorSelfFault_keeps : Keeps s (execCollectorSelfFault s) := whenAlive_keeps fun _ => State.selfFault_kept
theorem execIslandWireFault_keeps (i) : Keeps s (execIslandWireFault i s) := by
  unfold execIslandWireFault; split
  · exact whenAlive_keeps fun t => .of_key (State.raiseNow_key ..)
  · intro _ _ e; cases e
theorem execFcClr_keeps (w) : Keeps s (execFcClr w s) := onSafeReg_keeps fun _ => State.writeFcClr_kept _
theorem execForce_keeps : Keeps s (execForce s) := onReg_keeps fun _ => State.writeFcSafe_kept _
theorem execFcInjReport_keeps (w) : Keeps s (execFcInjReport w s) := by
  unfold execFcInjReport; exact onReg_keeps fun _ => State.writeFcInj_kept _
theorem execFcInjUnit_keeps (w) : Keeps s (execFcInjUnit w s) := onReg_keeps fun _ => State.writeFcInj_kept _
theorem execFcInjCrc_keeps (w) : Keeps s (execFcInjCrc w s) := onReg_keeps fun _ => State.writeFcInj_kept _
theorem execFcInjWire_keeps (w) : Keeps s (execFcInjWire w s) := onReg_keeps fun _ => State.writeFcInj_kept _
theorem execFcInjSelf_keeps (w) : Keeps s (execFcInjSelf w s) := onReg_keeps fun _ => State.writeFcInj_kept _
theorem execLoad_keeps : Keeps s (execLoad s) := onReg_keeps fun _ => State.startLoad_kept
theorem execFwVerifyDone_keeps : Keeps s (execFwVerifyDone s) := whenAlive_keeps fun t =>
  .ite .refl (.ite (.of_key (State.modFw_key ..)) (.trans (State.fwFail_kept _) (.of_key (State.raiseNow_key ..))))
theorem execTdcCalibrationDone_keeps (f) : Keeps s (execTdcCalibrationDone f s) := by
  unfold execTdcCalibrationDone; split
  · exact whenAlive_keeps fun t => .ite (.of_key (State.calibrated_key ..)) .refl
  · intro _ _ e; cases e
theorem execTdcRecal_keeps (f) : Keeps s (execTdcRecal f s) := by
  unfold execTdcRecal; split
  · exact whenAlive_keeps fun t => .ite (.of_key ((State.modFw_key ..).trans (State.calibrated_key ..))) .refl
  · intro _ _ e; cases e
theorem execHmResponse_keeps (tag err data) : Keeps s (execHmResponse tag err data s) := whenAlive_keeps fun t => by
  refine .ite .refl ?_
  dsimp only
  split
  · exact .of_key ((State.hmNext_key ..).trans (State.modEng_key ..))
  · exact .trans (.trans (.of_key (State.modEng_key ..)) (.ite (State.hmFailed_kept ..) (State.answered_kept ..))) (.of_key (State.hmNext_key ..))
theorem execHmTimeout_keeps (tag) : Keeps s (execHmTimeout tag s) := whenAlive_keeps fun t => by
  split
  · exact .refl
  · exact .ite (.trans (.trans (.of_key (State.modEng_key ..)) (State.hmFailed_kept ..)) (.of_key (State.hmNext_key ..))) .refl
theorem execPwPdAckRise_keeps (d) : Keeps s (execPwPdAckRise d s) := by
  unfold execPwPdAckRise; split
  · unfold onDomPin; split
    · rintro - _ ⟨⟩; exact .ite (.of_key (State.modDom_key ..)) .refl
    · intro _ _ e; cases e
  · exact onDom_keeps fun t => .ite .refl (.ite (.of_key (State.modDom_key ..))
      (.trans (.of_key (State.modDom_key ..)) (.ite .refl (.ite (State.domOn_kept _) (.of_key (State.modDom_key ..))))))
theorem execPwPdAckFall_keeps (d) : Keeps s (execPwPdAckFall d s) := by
  unfold execPwPdAckFall; split
  · unfold onDomPin; split
    · rintro - _ ⟨⟩; exact .ite (.of_key (State.modDom_key ..)) .refl
    · intro _ _ e; cases e
  · exact onDom_keeps fun t => .ite .refl (.trans (.of_key (State.modDom_key ..)) (.ite (State.domFail_kept ..) (.ite (.of_key ((State.domIsOff_key ..).trans (State.modDom_key ..))) .refl)))
theorem execPowerDomainTimeout_keeps (d) : Keeps s (execPowerDomainTimeout d s) := onDom_keeps fun t => .ite (State.domFail_kept ..) .refl
theorem execBankClearDone_keeps (d) : Keeps s (execBankClearDone d s) := onDom_keeps fun t =>
  .ite (.trans (.foldl fun _ _ => .modPw (fun _ h => Power.clearBank_wf _ h) fun _ => rfl) (State.domOn_kept _)) .refl
theorem execPdEnWrite_keeps (d en) : Keeps s (execPdEnWrite d en s) := onReg_keeps fun _ => State.writePdEn_kept ..
theorem execPfailAssert_keeps : Keeps s (execPfailAssert s) := whenAlive_keeps fun t => by
  split
  · exact .ite (State.enterPfail_kept _) .refl
  · exact .refl
theorem execPfailRingDrainEnd_keeps : Keeps s (execPfailRingDrainEnd s) := by
  unfold execPfailRingDrainEnd
  refine whenAlive_keeps fun t => .ite (.trans (t := t.hush.modPw fun p => { p with drained := true }) ?_ (.ite (.foldl fun _ _ => State.shedOne_kept _) .refl)) .refl
  exact .of_key ((State.modPw_key _ _ fun _ => rfl).trans (State.hush_key ..))
theorem execRegisterWrite_keeps (a w) : Keeps s (execRegisterWrite a w s) := onSafeReg_keeps fun _ => State.writeReg_kept ..
theorem execCkHmStop_still : Still s (execCkHmStop s) := .next (State.modPins_key _ _ fun _ => rfl)


end Sys2Proof.Machine
end

