-- ==== Sys2Proof/Laws/Hall.lean ====
section
/-!
SUPPORT. Hall time under what the passing of a tick does: nothing but the count itself moves it.
-/

namespace Sys2Proof.Machine

/-- Hall time, whether it counts, and whether the block is out of reset. -/
@[reducible] def State.hall (s : State) : HT80 × Bool × Bool := (s.sun.now, s.sun.counting, s.alive)

variable (s : State)

theorem State.modSun_now (f : Sun → Sun) (h : ∀ x, ((f x).now, (f x).counting) = (x.now, x.counting)) : (s.modSun f).hall = s.hall := by
  have := h s.sun
  simp only [Prod.mk.injEq] at this
  simp only [State.hall, State.modSun, State.alive, this]
theorem State.modElect_now (f : Elect → Elect) : (s.modElect f).hall = s.hall := rfl
theorem State.modFab_now (f : Fabric → Fabric) : (s.modFab f).hall = s.hall := rfl
theorem State.modTr_now (f : Trellis → Trellis) : (s.modTr f).hall = s.hall := rfl
theorem State.modBand_now (f : Band → Band) : (s.modBand f).hall = s.hall := rfl
theorem State.modCtx0_now (f : Ctx → Ctx) : (s.modCtx0 f).hall = s.hall := rfl
theorem State.modCtx1_now (f : Ctx → Ctx) : (s.modCtx1 f).hall = s.hall := rfl
theorem State.modSync_now (f : Sync → Sync) : (s.modSync f).hall = s.hall := rfl
theorem State.modGate_now (f : Gate → Gate) : (s.modGate f).hall = s.hall := rfl
theorem State.modLg_now (f : Ledger → Ledger) : (s.modLg f).hall = s.hall := rfl
theorem State.modHs_now (f : Health → Health) : (s.modHs f).hall = s.hall := rfl
theorem State.modBv_now (f : Trace → Trace) : (s.modBv f).hall = s.hall := rfl
theorem State.modTst_now (f : TestPage → TestPage) : (s.modTst f).hall = s.hall := rfl
theorem State.modFw_now (f : Firmware → Firmware) : (s.modFw f).hall = s.hall := rfl
theorem State.modRp_now (f : RegPort → RegPort) : (s.modRp f).hall = s.hall := rfl
theorem State.modOut_now (f : List Out → List Out) : (s.modOut f).hall = s.hall := rfl
theorem State.modEng_now (f : Engine → Engine) : (s.modEng f).hall = s.hall := rfl
theorem State.modCap_now (f : List Capture → List Capture) : (s.modCap f).hall = s.hall := rfl
theorem State.modOrg_now (f : Org → Org) : (s.modOrg f).hall = s.hall := rfl
theorem State.modPins_now (f : Pins → Pins) (h : ∀ x, (f x).core = x.core) : (s.modPins f).hall = s.hall := by
  have := h s.pins
  simp only [Pins.core, Prod.mk.injEq] at this
  simp only [State.hall, State.modPins, State.alive, this]
theorem State.modFc_now (f : Collector → Collector) : (s.modFc f).hall = s.hall := rfl
theorem State.modPw_now (f : Power → Power) : (s.modPw f).hall = s.hall := rfl
theorem State.modPorts_now (f : List Port → List Port) : (s.modPorts f).hall = s.hall := rfl
theorem elim_now {α : Type} {o : Option α} {a t : State} {f : α → State} (h : ∀ x, (f x).hall = t.hall) (g : a.hall = t.hall) : (o.elim a f).hall = t.hall := by cases o <;> simp [h, g]
theorem freeIx_now (n : Nat) : ({ s with freeIx := n } : State).hall = s.hall := rfl
theorem foldl_now {α : Type} (f : State → α → State) (l : List α) (h : ∀ s a, (f s a).hall = s.hall) : (l.foldl f s).hall = s.hall := by
  induction l generalizing s with
  | nil => rfl
  | cons a r ih => simp only [List.foldl_cons, ih, h]
theorem ite_now {c : Prop} [Decidable c] {a b t : State} (h : a.hall = t.hall) (g : b.hall = t.hall) : (if c then a else b).hall = t.hall := by split <;> assumption



-- Ops
theorem State.modPort_now (p : PortNo) (f : Port → Port) : (State.modPort s p f).hall = s.hall := by
  unfold State.modPort
  with_reducible repeat' first | rfl | refine (State.modPorts_now ..).trans ?_
theorem State.modCtx_now (slot : Bool) (f : Ctx → Ctx) : (State.modCtx s slot f).hall = s.hall := by
  unfold State.modCtx
  with_reducible repeat' first | rfl | refine ite_now ?_ ?_ | refine (State.modCtx1_now ..).trans ?_ | refine (State.modCtx0_now ..).trans ?_
theorem State.drew_now  : (State.drew s).hall = s.hall := by
  unfold State.drew
  with_reducible repeat' first | rfl | refine (freeIx_now ..).trans ?_
theorem State.traced_now (stamp : HT80) (src : Nat) (port : PortNo) (data : List Byte) : (State.traced s stamp src port data).hall = s.hall := by
  unfold State.traced
  with_reducible repeat' first | rfl | refine ite_now ?_ ?_ | refine (State.modBv_now ..).trans ?_
theorem State.tracedMsg_now (stamp : HT80) (src : Nat) (p : PortNo) (seq : BitVec 5) (m : Msg) : (State.tracedMsg s stamp src p seq m).hall = s.hall := by
  unfold State.tracedMsg
  with_reducible repeat' first | rfl | refine (State.traced_now ..).trans ?_ | refine (foldl_now _ _ _ ?_).trans ?_ | (intro _ _)
theorem State.traceOut_now (stamp : HT80) (n0_ : Out) : (State.traceOut s stamp n0_).hall = s.hall := by
  unfold State.traceOut
  with_reducible repeat' first | rfl | refine ite_now ?_ ?_ | refine (State.tracedMsg_now ..).trans ?_ | refine (State.traced_now ..).trans ?_ | dsimp only | split
theorem State.emitAt_now (stamp : HT80) (o : Out) : (State.emitAt s stamp o).hall = s.hall := by
  unfold State.emitAt
  with_reducible repeat' first | rfl | refine (State.modOut_now ..).trans ?_ | refine (State.traceOut_now ..).trans ?_
theorem State.emit_now (o : Out) : (State.emit s o).hall = s.hall := by
  unfold State.emit
  with_reducible repeat' first | rfl | refine (State.emitAt_now ..).trans ?_
theorem State.modPart_now (t : PTag) (f : Part → Part) : (State.modPart s t f).hall = s.hall := by
  unfold State.modPart
  with_reducible repeat' first | rfl | refine (State.modFab_now ..).trans ?_
theorem State.raise_now (r : Report) : (State.raise s r).hall = s.hall := by
  unfold State.raise
  with_reducible repeat' first | rfl | refine (State.modFc_now ..).trans ?_
theorem State.raiseNow_now (code : BitVec 16) (loc : BitVec 24) (part : Option PTag) (det : BitVec 64) : (State.raiseNow s code loc part det).hall = s.hall := by
  unfold State.raiseNow
  with_reducible repeat' first | rfl | refine (State.raise_now ..).trans ?_
theorem State.hmSend_now (t : BitVec 6) (r : HmReq) : (State.hmSend s t r).hall = s.hall := by
  unfold State.hmSend
  with_reducible repeat' first | rfl | refine (State.modEng_now ..).trans ?_ | refine (State.emit_now ..).trans ?_
theorem State.hmIssue_now (r : HmReq) : (State.hmIssue s r).hall = s.hall := by
  unfold State.hmIssue
  with_reducible repeat' first | rfl | refine ite_now ?_ ?_ | refine (State.hmSend_now ..).trans ?_ | refine (State.modEng_now ..).trans ?_ | split
theorem State.modRing_now (n : Nat) (f : Ring → Ring) : (State.modRing s n f).hall = s.hall := by
  unfold State.modRing
  with_reducible repeat' first | rfl | refine (State.modEng_now ..).trans ?_
theorem State.writeGroup_now (n : BitVec 3) (g : List (BitVec 256)) (num : Option Nat) : (State.writeGroup s n g num).hall = s.hall := by
  unfold State.writeGroup
  with_reducible repeat' first | rfl | refine ite_now ?_ ?_ | refine (State.modRing_now ..).trans ?_ | refine (State.hmIssue_now ..).trans ?_ | refine (foldl_now _ _ _ ?_).trans ?_ | (intro _ _) | dsimp only
theorem State.readDoorbell_now (n : Nat) : (State.readDoorbell s n).hall = s.hall := by
  unfold State.readDoorbell
  with_reducible repeat' first | rfl | refine ite_now ?_ ?_ | refine (State.modRing_now ..).trans ?_ | refine (State.hmIssue_now ..).trans ?_ | dsimp only
theorem State.loseGroup_now (n : BitVec 3) (g : List (BitVec 256)) (num : Option Nat) : (State.loseGroup s n g num).hall = s.hall := by
  unfold State.loseGroup
  with_reducible repeat' first | rfl | refine ite_now ?_ ?_ | refine (State.modRing_now ..).trans ?_ | refine (State.modEng_now ..).trans ?_ | refine (State.raiseNow_now ..).trans ?_ | refine (State.modSync_now ..).trans ?_ | dsimp only
theorem State.putGroup_now (n : BitVec 3) (g : List (BitVec 256)) (num : Option Nat) : (State.putGroup s n g num).hall = s.hall := by
  unfold State.putGroup
  with_reducible repeat' first | rfl | refine ite_now ?_ ?_ | refine (State.modEng_now ..).trans ?_ | refine (State.modRing_now ..).trans ?_ | refine (State.writeGroup_now ..).trans ?_ | refine (State.readDoorbell_now ..).trans ?_ | refine (State.loseGroup_now ..).trans ?_ | dsimp only
theorem State.reply_now (stamp : HT80) (cls order : Nat) (g : List (BitVec 256)) (num : Option Nat) : (State.reply s stamp cls order g num).hall = s.hall := by
  unfold State.reply
  with_reducible repeat' first | rfl | refine (State.modEng_now ..).trans ?_
theorem State.flushAnswers_now  : (State.flushAnswers s).hall = s.hall := by
  unfold State.flushAnswers
  with_reducible repeat' first | rfl | refine (State.putGroup_now ..).trans ?_ | refine (State.modEng_now ..).trans ?_ | refine (foldl_now _ _ _ ?_).trans ?_ | (intro _ _) | split | dsimp only
theorem State.flushEnds_now  : (State.flushEnds s).hall = s.hall := by
  unfold State.flushEnds
  with_reducible repeat' first | rfl | refine ite_now ?_ ?_ | refine (State.reply_now ..).trans ?_ | refine (State.modEng_now ..).trans ?_ | refine (foldl_now _ _ _ ?_).trans ?_ | (intro _ _) | split | dsimp only
theorem State.complete_now (num : Nat) (status : Byte) (cause : BitVec 16) (det : BitVec 80) (stamp : Option HT80) (ptag : Option PTag) (entry : Bool) : (State.complete s num status cause det stamp ptag entry).hall = s.hall := by
  unfold State.complete
  with_reducible repeat' first | rfl | refine ite_now ?_ ?_ | refine (State.modEng_now ..).trans ?_ | refine (State.reply_now ..).trans ?_ | refine (State.flushEnds_now ..).trans ?_ | split | dsimp only
theorem State.send_now (p : PortNo) (cls : Nat) (m : Msg) : (State.send s p cls m).hall = s.hall := by
  unfold State.send
  with_reducible repeat' first | rfl | refine ite_now ?_ ?_ | refine (State.modPort_now ..).trans ?_
theorem State.sendOn_now (ps : List PortNo) (cls : Nat) (m : Msg) : (State.sendOn s ps cls m).hall = s.hall := by
  unfold State.sendOn
  with_reducible repeat' first | rfl | refine (State.send_now ..).trans ?_ | refine (foldl_now _ _ _ ?_).trans ?_ | (intro _ _)
theorem State.sendExcept_now (p : Option PortNo) (cls : Nat) (m : Msg) : (State.sendExcept s p cls m).hall = s.hall := by
  unfold State.sendExcept
  with_reducible repeat' first | rfl | refine (State.sendOn_now ..).trans ?_
theorem State.odoCount_now (f : Odo → Odo) : (State.odoCount s f).hall = s.hall := by
  unfold State.odoCount
  with_reducible repeat' first | rfl | refine ite_now ?_ ?_ | refine (State.modLg_now ..).trans ?_

-- Orangery
theorem State.setRate_now (r : Int) : (State.setRate s r).hall = s.hall := by
  unfold State.setRate
  with_reducible repeat' first | rfl | refine ite_now ?_ ?_ | refine (State.modOrg_now ..).trans ?_ | dsimp only
theorem State.rampRate_now  : (State.rampRate s).hall = s.hall := by
  unfold State.rampRate
  with_reducible repeat' first | rfl | refine ite_now ?_ ?_ | refine (State.setRate_now ..).trans ?_
theorem State.stopAccel_now  : (State.stopAccel s).hall = s.hall := by
  unfold State.stopAccel
  with_reducible repeat' first | rfl | refine ite_now ?_ ?_ | refine (State.modOrg_now ..).trans ?_
theorem State.enterHoldover_now  : (State.enterHoldover s).hall = s.hall := by
  unfold State.enterHoldover
  with_reducible repeat' first | rfl | refine ite_now ?_ ?_ | refine (State.modSun_now _ _ ?_).trans ?_ | refine (State.setRate_now ..).trans ?_ | refine (State.modOrg_now ..).trans ?_ | (intro _; rfl) | split | dsimp only
theorem State.sendClaim_now  : (State.sendClaim s).hall = s.hall := by
  unfold State.sendClaim
  with_reducible repeat' first | rfl | refine ite_now ?_ ?_ | refine (State.modElect_now ..).trans ?_ | refine (State.sendExcept_now ..).trans ?_ | split | dsimp only
theorem State.runSelection_now  : (State.runSelection s).hall = s.hall := by
  unfold State.runSelection
  with_reducible repeat' first | rfl | refine ite_now ?_ ?_ | refine (State.modOrg_now ..).trans ?_ | split
theorem State.loseSelected_now  : (State.loseSelected s).hall = s.hall := by
  unfold State.loseSelected
  with_reducible repeat' first | rfl | refine (State.enterHoldover_now ..).trans ?_ | refine (State.modOrg_now ..).trans ?_

-- Tree
theorem State.sendOffers_now  : (State.sendOffers s).hall = s.hall := by
  unfold State.sendOffers
  with_reducible repeat' first | rfl | refine ite_now ?_ ?_ | refine (State.modElect_now ..).trans ?_ | refine (State.sendExcept_now ..).trans ?_ | dsimp only
theorem State.withdraw_now  : (State.withdraw s).hall = s.hall := by
  unfold State.withdraw
  with_reducible repeat' first | rfl | refine (State.modElect_now ..).trans ?_ | refine (State.sendExcept_now ..).trans ?_ | dsimp only
theorem State.setParent_now (p : PortNo) : (State.setParent s p).hall = s.hall := by
  unfold State.setParent
  with_reducible repeat' first | rfl | refine ite_now ?_ ?_ | refine (State.modElect_now ..).trans ?_ | refine (State.modOrg_now ..).trans ?_ | refine (State.sendOffers_now ..).trans ?_ | split | dsimp only
theorem State.loseParent_now  : (State.loseParent s).hall = s.hall := by
  unfold State.loseParent
  with_reducible repeat' first | rfl | refine (State.enterHoldover_now ..).trans ?_ | refine (State.modOrg_now ..).trans ?_ | refine (State.modElect_now ..).trans ?_ | refine (State.setParent_now ..).trans ?_ | refine (State.modPorts_now ..).trans ?_ | refine (State.withdraw_now ..).trans ?_ | refine (State.sendClaim_now ..).trans ?_ | split | dsimp only
theorem State.announceAll_now  : (State.announceAll s).hall = s.hall := by
  unfold State.announceAll
  with_reducible repeat' first | rfl | refine (State.sendExcept_now ..).trans ?_
theorem State.sendPair_now (p : PortNo) (d : DelayMsg) (a : AnnounceMsg) : (State.sendPair s p d a).hall = s.hall := by
  unfold State.sendPair
  with_reducible repeat' first | rfl | refine ite_now ?_ ?_ | refine (State.modPort_now ..).trans ?_
theorem State.mirror_now (m : MirrorMsg) : (State.mirror s m).hall = s.hall := by
  unfold State.mirror
  with_reducible repeat' first | rfl | refine ite_now ?_ ?_ | refine (State.send_now ..).trans ?_ | split
theorem State.modNode_now (h : BitVec 64) (f : NodeRow → NodeRow) : (State.modNode s h f).hall = s.hall := by
  unfold State.modNode
  with_reducible repeat' first | rfl | refine (State.modFab_now ..).trans ?_ | refine (State.mirror_now ..).trans ?_ | split | dsimp only
theorem State.forwardAssign_now (k : Nat) (m : AssignMsg) : (State.forwardAssign s k m).hall = s.hall := by
  unfold State.forwardAssign
  with_reducible repeat' first | rfl | refine ite_now ?_ ?_ | refine (State.modFab_now ..).trans ?_ | refine (State.send_now ..).trans ?_ | split
theorem State.sendAssign_now (r : NodeRow) : (State.sendAssign s r).hall = s.hall := by
  unfold State.sendAssign
  with_reducible repeat' first | rfl | refine (State.forwardAssign_now ..).trans ?_
theorem State.reassignBelow_now (r : NodeRow) : (State.reassignBelow s r).hall = s.hall := by
  unfold State.reassignBelow
  with_reducible repeat' first | rfl | refine elim_now ?_ ?_ | refine (State.modNode_now ..).trans ?_ | refine (State.sendAssign_now ..).trans ?_ | refine (foldl_now _ _ _ ?_).trans ?_ | (intro _ _) | (intro _) | dsimp only
theorem State.takeReport_now (d : DelayMsg) (a : AnnounceMsg) : (State.takeReport s d a).hall = s.hall := by
  unfold State.takeReport
  with_reducible repeat' first | rfl | refine ite_now ?_ ?_ | refine elim_now ?_ ?_ | refine (State.modFab_now ..).trans ?_ | refine (State.mirror_now ..).trans ?_ | refine (State.sendAssign_now ..).trans ?_ | refine (State.reassignBelow_now ..).trans ?_ | refine (State.raiseNow_now ..).trans ?_ | refine (State.modNode_now ..).trans ?_ | (intro _) | split | dsimp only
theorem State.checkMargins_now (s' : State) : (State.checkMargins s s').hall = s'.hall := by
  unfold State.checkMargins
  with_reducible repeat' first | rfl | refine ite_now ?_ ?_ | refine (State.raiseNow_now ..).trans ?_ | refine (foldl_now _ _ _ ?_).trans ?_ | (intro _ _) | split | dsimp only
theorem State.takeDelay_now (m : DelayMsg) : (State.takeDelay s m).hall = s.hall := by
  unfold State.takeDelay
  with_reducible repeat' first | rfl | refine ite_now ?_ ?_ | refine (State.modNode_now ..).trans ?_ | refine (State.modFab_now ..).trans ?_ | refine (foldl_now _ _ _ ?_).trans ?_ | (intro _ _) | split | dsimp only
theorem State.sendDelay_now (m : DelayMsg) : (State.sendDelay s m).hall = s.hall := by
  unfold State.sendDelay
  with_reducible repeat' first | rfl | refine ite_now ?_ ?_ | refine (State.checkMargins_now ..).trans ?_ | refine (State.takeDelay_now ..).trans ?_ | refine (State.send_now ..).trans ?_ | split
theorem State.reportChild_now (q : PortNo) : (State.reportChild s q).hall = s.hall := by
  unfold State.reportChild
  with_reducible repeat' first | rfl | refine ite_now ?_ ?_ | refine (State.takeReport_now ..).trans ?_ | refine (State.sendPair_now ..).trans ?_ | split | dsimp only
theorem State.reportChildren_now  : (State.reportChildren s).hall = s.hall := by
  unfold State.reportChildren
  with_reducible repeat' first | rfl | refine (State.reportChild_now ..).trans ?_ | refine (foldl_now _ _ _ ?_).trans ?_ | (intro _ _)
theorem State.reportAnew_now  : (State.reportAnew s).hall = s.hall := by
  unfold State.reportAnew
  with_reducible repeat' first | rfl | refine ite_now ?_ ?_ | refine (State.modElect_now ..).trans ?_ | refine (State.reportChildren_now ..).trans ?_
theorem State.mirrorAll_now  : (State.mirrorAll s).hall = s.hall := by
  unfold State.mirrorAll
  with_reducible repeat' first | rfl | refine (State.mirror_now ..).trans ?_ | refine (State.modFab_now ..).trans ?_ | refine (foldl_now _ _ _ ?_).trans ?_ | (intro _ _) | dsimp only
theorem State.chooseStandby_now  : (State.chooseStandby s).hall = s.hall := by
  unfold State.chooseStandby
  with_reducible repeat' first | rfl | refine (State.modElect_now ..).trans ?_ | refine (State.send_now ..).trans ?_ | refine (State.mirrorAll_now ..).trans ?_ | refine (State.raiseNow_now ..).trans ?_ | refine (State.modFab_now ..).trans ?_ | split | dsimp only
theorem State.stateLost_now  : (State.stateLost s).hall = s.hall := by
  unfold State.stateLost
  with_reducible repeat' first | rfl | refine ite_now ?_ ?_ | refine (State.raiseNow_now ..).trans ?_
theorem State.setRoot_now (r : NodeId) : (State.setRoot s r).hall = s.hall := by
  unfold State.setRoot
  with_reducible repeat' first | rfl | refine ite_now ?_ ?_ | refine (State.stateLost_now ..).trans ?_ | refine (State.modElect_now ..).trans ?_ | refine (State.modSun_now _ _ ?_).trans ?_ | refine (State.announceAll_now ..).trans ?_ | (intro _; rfl) | dsimp only
theorem State.takeRoot_now  : (State.takeRoot s).hall = s.hall := by
  unfold State.takeRoot
  with_reducible repeat' first | rfl | refine ite_now ?_ ?_ | refine (State.modFab_now ..).trans ?_ | refine (State.modElect_now ..).trans ?_ | refine (State.modSun_now _ _ ?_).trans ?_ | refine (State.setRoot_now ..).trans ?_ | refine (State.loseSelected_now ..).trans ?_ | refine (State.runSelection_now ..).trans ?_ | refine (State.sendClaim_now ..).trans ?_ | refine (State.sendOffers_now ..).trans ?_ | refine (State.chooseStandby_now ..).trans ?_ | refine (State.reportAnew_now ..).trans ?_ | (intro _; rfl) | split | dsimp only
theorem State.resign_now  : (State.resign s).hall = s.hall := by
  unfold State.resign
  with_reducible repeat' first | rfl | refine ite_now ?_ ?_ | refine (State.modSun_now _ _ ?_).trans ?_ | refine (State.modElect_now ..).trans ?_ | refine (State.modOrg_now ..).trans ?_ | (intro _; rfl) | dsimp only
theorem State.yieldRoot_now  : (State.yieldRoot s).hall = s.hall := by
  unfold State.yieldRoot
  with_reducible repeat' first | rfl | refine (State.resign_now ..).trans ?_ | refine (State.sendExcept_now ..).trans ?_
theorem State.handOver_now  : (State.handOver s).hall = s.hall := by
  unfold State.handOver
  with_reducible repeat' first | rfl | refine ite_now ?_ ?_ | refine elim_now ?_ ?_ | refine (State.yieldRoot_now ..).trans ?_ | (intro _)
theorem State.takeOver_now  : (State.takeOver s).hall = s.hall := by
  unfold State.takeOver
  with_reducible repeat' first | rfl | refine ite_now ?_ ?_ | refine (State.takeRoot_now ..).trans ?_ | refine (State.modSun_now _ _ ?_).trans ?_ | refine (State.modElect_now ..).trans ?_ | refine (State.loseParent_now ..).trans ?_ | (intro _; rfl) | dsimp only

-- Links
theorem State.portGone_now (p : PortNo) (atOnce lost : Bool) : (State.portGone s p atOnce lost).hall = s.hall := by
  unfold State.portGone
  with_reducible repeat' first | rfl | refine ite_now ?_ ?_ | refine (State.odoCount_now ..).trans ?_ | refine (State.modElect_now ..).trans ?_ | refine (State.chooseStandby_now ..).trans ?_ | refine (State.takeOver_now ..).trans ?_ | refine (State.loseParent_now ..).trans ?_ | refine (State.sendDelay_now ..).trans ?_ | dsimp only
theorem State.portExit_now (p : PortNo) : (State.portExit s p).hall = s.hall := by
  unfold State.portExit
  with_reducible repeat' first | rfl | refine ite_now ?_ ?_ | refine (State.modPort_now ..).trans ?_ | refine (State.portGone_now ..).trans ?_ | dsimp only
theorem State.holdFresh_now  : (State.holdFresh s).hall = s.hall := by
  unfold State.holdFresh
  exact State.modPorts_now ..
theorem State.startOne_now (p : PortNo) : (State.startOne s p).hall = s.hall := by
  unfold State.startOne
  with_reducible repeat' first | rfl | refine ite_now ?_ ?_ | refine (State.modPort_now ..).trans ?_ | refine (State.emit_now ..).trans ?_ | split | dsimp only
theorem State.laneTick_now (p : PortNo) : (State.laneTick s p).hall = s.hall := by
  unfold State.laneTick
  with_reducible repeat' first | rfl | refine ite_now ?_ ?_ | refine (State.modPort_now ..).trans ?_ | refine (State.startOne_now ..).trans ?_ | refine (State.emit_now ..).trans ?_ | dsimp only
theorem State.lanesTick_now  : (State.lanesTick s).hall = s.hall := by
  unfold State.lanesTick
  with_reducible repeat' first | rfl | refine (State.laneTick_now ..).trans ?_ | refine (State.holdFresh_now ..).trans ?_ | refine (foldl_now _ _ _ ?_).trans ?_ | (intro _ _)
theorem State.nak_now (p : PortNo) : (State.nak s p).hall = s.hall := by
  unfold State.nak
  with_reducible repeat' first | rfl | refine ite_now ?_ ?_ | refine elim_now ?_ ?_ | refine (State.modPort_now ..).trans ?_ | refine (State.emit_now ..).trans ?_ | (intro _) | dsimp only

-- Objects
theorem State.askWord_now (t : HT80) (code arg : BitVec 4) (ptag : PTag) (obj : Option Nat) (desc : Option Nat) : (State.askWord s t code arg ptag obj desc).hall = s.hall := by
  unfold State.askWord
  with_reducible repeat' first | rfl | refine (State.modTr_now ..).trans ?_
theorem State.wake_now (chan : BitVec 4) : (State.wake s chan).hall = s.hall := by
  unfold State.wake
  with_reducible repeat' first | rfl | refine (State.askWord_now ..).trans ?_
theorem State.dropTimerWake_now (o : Nat) : (State.dropTimerWake s o).hall = s.hall := by
  unfold State.dropTimerWake
  with_reducible repeat' first | rfl | refine (State.modTr_now ..).trans ?_
theorem State.setObj_now (k : Bool) (o : Nat) (x : Obj) : (State.setObj s k o x).hall = s.hall := by
  unfold State.setObj
  with_reducible repeat' first | rfl | refine (State.modCtx_now ..).trans ?_
theorem State.askTimerWake_now (o : Nat) (x : Obj) : (State.askTimerWake s o x).hall = s.hall := by
  unfold State.askTimerWake
  with_reducible repeat' first | rfl | refine ite_now ?_ ?_ | refine (State.askWord_now ..).trans ?_ | dsimp only
theorem State.expireObj_now (k : Bool) (o : Nat) : (State.expireObj s k o).hall = s.hall := by
  unfold State.expireObj
  with_reducible repeat' first | rfl | refine ite_now ?_ ?_ | refine (State.setObj_now ..).trans ?_ | refine (State.raiseNow_now ..).trans ?_ | split | dsimp only

-- Digest
theorem State.record_now (r : BitVec 256) : (State.record s r).hall = s.hall := by
  unfold State.record
  with_reducible repeat' first | rfl | refine ite_now ?_ ?_ | refine (State.putGroup_now ..).trans ?_
theorem State.takeDig_now (k : Bool) (upTo : HT80) : (State.takeDig s k upTo).hall = s.hall := by
  unfold State.takeDig
  with_reducible repeat' first | rfl | refine ite_now ?_ ?_ | refine (State.modCtx_now ..).trans ?_ | refine (State.record_now ..).trans ?_ | refine (foldl_now _ _ _ ?_).trans ?_ | (intro _ _) | split | dsimp only
theorem State.takeTick_now  : (State.takeTick s).hall = s.hall := by
  unfold State.takeTick
  with_reducible repeat' first | rfl | refine elim_now ?_ ?_ | refine (State.takeDig_now ..).trans ?_ | (intro _)
theorem State.modCapIn_now (n : Nat) (f : Capture → Capture) : (State.modCapIn s n f).hall = s.hall := by
  unfold State.modCapIn
  with_reducible repeat' first | rfl | refine (State.modCap_now ..).trans ?_
theorem State.inject_now (k : Bool) (input : BitVec 3) (edge : Bool) (ofs : HT80) (clamped : Bool) : (State.inject s k input edge ofs clamped).hall = s.hall := by
  unfold State.inject
  with_reducible repeat' first | rfl | refine ite_now ?_ ?_ | refine (State.modCapIn_now ..).trans ?_ | refine (State.modCtx_now ..).trans ?_ | refine (State.record_now ..).trans ?_ | refine (State.modSync_now ..).trans ?_ | dsimp only
theorem State.checkOrder_now (k : Bool) (step : BitVec 32) (ofs : Option HT80) : (State.checkOrder s k step ofs).hall = s.hall := by
  unfold State.checkOrder
  with_reducible repeat' first | rfl | refine ite_now ?_ ?_ | refine (State.raiseNow_now ..).trans ?_ | split | dsimp only
theorem State.diverge_now (k : Bool) (step : BitVec 64) : (State.diverge s k step).hall = s.hall := by
  unfold State.diverge
  with_reducible repeat' first | rfl | refine (State.modCtx_now ..).trans ?_ | refine (State.modSync_now ..).trans ?_ | refine (State.raiseNow_now ..).trans ?_ | dsimp only
theorem State.injectRest_now (k : Bool) (n_ : Nat) : (State.injectRest s k n_).hall = s.hall := by
  induction n_ generalizing s with
  | zero => rfl
  | succ k ih =>
    unfold State.injectRest
    with_reducible repeat' first | refine (ih ..).trans ?_ | rfl | refine ite_now ?_ ?_ | refine (State.checkOrder_now ..).trans ?_ | refine (State.modSync_now ..).trans ?_ | refine (State.inject_now ..).trans ?_ | split
theorem State.replayCheck_now (k : Bool) (step : BitVec 64) (d0 : BitVec 64) : (State.replayCheck s k step d0).hall = s.hall := by
  unfold State.replayCheck
  with_reducible repeat' first | rfl | refine ite_now ?_ ?_ | refine (State.modSync_now ..).trans ?_ | refine (State.diverge_now ..).trans ?_ | refine (State.raiseNow_now ..).trans ?_ | split | dsimp only
theorem State.replayEnd_now (step : BitVec 64) : (State.replayEnd s step).hall = s.hall := by
  unfold State.replayEnd
  with_reducible repeat' first | rfl | refine ite_now ?_ ?_ | refine (State.modSync_now ..).trans ?_ | refine (State.complete_now ..).trans ?_ | split

-- Lanes
theorem State.modUnit_now (level : Level) (a : CellAddr) (f : TUnit → TUnit) : (State.modUnit s level a f).hall = s.hall := by
  unfold State.modUnit
  with_reducible repeat' first | rfl | refine ite_now ?_ ?_ | refine (State.modTr_now ..).trans ?_ | dsimp only
theorem State.enqueue_now (level : Level) (a : CellAddr) (ports : List (Option Byte)) (child : Byte) (fwd : Bool) (k : Packet) : (State.enqueue s level a ports child fwd k).hall = s.hall := by
  unfold State.enqueue
  with_reducible repeat' first | rfl | refine (State.modUnit_now ..).trans ?_ | refine (State.modTr_now ..).trans ?_ | refine (foldl_now _ _ _ ?_).trans ?_ | (intro _ _) | dsimp only
theorem State.sendDown_now (regions : List Nat) (k : Packet) : (State.sendDown s regions k).hall = s.hall := by
  unfold State.sendDown
  with_reducible repeat' first | rfl | refine (State.enqueue_now ..).trans ?_
theorem State.laneCycle_now (c : BitVec 64) (level : Level) (a : CellAddr) (port : Option Byte) (classU : Bool) : (State.laneCycle s c level a port classU).hall = s.hall := by
  unfold State.laneCycle
  with_reducible repeat' first | rfl | refine (State.modUnit_now ..).trans ?_ | refine (State.emit_now ..).trans ?_ | split | dsimp only
theorem State.upCycle_now (c : BitVec 64) (level : Level) (a : CellAddr) : (State.upCycle s c level a).hall = s.hall := by
  unfold State.upCycle
  with_reducible repeat' first | rfl | refine ite_now ?_ ?_ | refine (State.modUnit_now ..).trans ?_ | refine (State.emit_now ..).trans ?_ | split | dsimp only
theorem State.lanesCycle_now (c : BitVec 64) : (State.lanesCycle s c).hall = s.hall := by
  unfold State.lanesCycle
  with_reducible repeat' first | rfl | refine (State.upCycle_now ..).trans ?_ | refine (State.laneCycle_now ..).trans ?_ | refine (foldl_now _ _ _ ?_).trans ?_ | (intro _ _) | dsimp only
theorem State.rootCycle_now (c : BitVec 64) : (State.rootCycle s c).hall = s.hall := by
  unfold State.rootCycle
  with_reducible repeat' first | rfl | refine (State.emit_now ..).trans ?_ | refine (State.modTr_now ..).trans ?_ | refine (foldl_now _ _ _ ?_).trans ?_ | (intro _ _) | dsimp only
theorem State.holdCycle_now (c : BitVec 64) : (State.holdCycle s c).hall = s.hall := by
  unfold State.holdCycle
  with_reducible repeat' first | rfl | refine ite_now ?_ ?_ | refine (State.modTr_now ..).trans ?_ | dsimp only

-- Barriers
theorem State.writeArea_now (a : Arm) (r : Rel) : (State.writeArea s a r).hall = s.hall := by
  unfold State.writeArea
  with_reducible repeat' first | rfl | refine ite_now ?_ ?_ | refine (State.record_now ..).trans ?_ | refine (State.hmIssue_now ..).trans ?_ | refine (foldl_now _ _ _ ?_).trans ?_ | (intro _ _) | dsimp only
theorem State.sendResults_now (a : Arm) (rec : Record) : (State.sendResults s a rec).hall = s.hall := by
  unfold State.sendResults
  with_reducible repeat' first | rfl | refine ite_now ?_ ?_ | refine (State.sendDown_now ..).trans ?_ | refine (foldl_now _ _ _ ?_).trans ?_ | (intro _ _) | dsimp only
theorem State.acceptDigest_now (k : Bool) (rec : Record) : (State.acceptDigest s k rec).hall = s.hall := by
  unfold State.acceptDigest
  with_reducible repeat' first | rfl | refine ite_now ?_ ?_ | refine (State.modCtx_now ..).trans ?_ | refine (State.modSync_now ..).trans ?_ | refine (State.raiseNow_now ..).trans ?_ | split | dsimp only
theorem State.acceptRelease_now (k : Bool) (bid : Byte) (t : HT80) (red : Bool) (rec : Record) : (State.acceptRelease s k bid t red rec).hall = s.hall := by
  unfold State.acceptRelease
  with_reducible repeat' first | rfl | refine ite_now ?_ ?_ | refine (State.expireObj_now ..).trans ?_ | refine (State.modCtx_now ..).trans ?_ | refine (State.setObj_now ..).trans ?_ | refine (State.acceptDigest_now ..).trans ?_ | refine (State.modBand_now ..).trans ?_ | refine (State.askWord_now ..).trans ?_ | refine (State.sendResults_now ..).trans ?_ | refine (State.writeArea_now ..).trans ?_ | split | dsimp only
theorem State.passRelease_now (t : PTag) (m : BarMsg) : (State.passRelease s t m).hall = s.hall := by
  unfold State.passRelease
  with_reducible repeat' first | rfl | refine (State.sendOn_now ..).trans ?_ | refine (State.acceptRelease_now ..).trans ?_ | refine (State.record_now ..).trans ?_ | refine (State.modPart_now ..).trans ?_ | split | dsimp only
theorem State.completeRound_now (t : PTag) (bid : Byte) (tc : HT80) (n_ : Nat) : (State.completeRound s t bid tc n_).hall = s.hall := by
  induction n_ generalizing s tc with
  | zero => rfl
  | succ k ih =>
    unfold State.completeRound
    with_reducible repeat' first | refine (ih ..).trans ?_ | rfl | refine ite_now ?_ ?_ | refine (State.modPart_now ..).trans ?_ | refine (State.passRelease_now ..).trans ?_ | refine (State.send_now ..).trans ?_ | split
theorem State.arriveAt_now (t : PTag) (a : Arrival) (tc : HT80) : (State.arriveAt s t a tc).hall = s.hall := by
  unfold State.arriveAt
  with_reducible repeat' first | rfl | refine ite_now ?_ ?_ | refine (State.modPart_now ..).trans ?_ | refine (State.raiseNow_now ..).trans ?_ | refine (State.completeRound_now ..).trans ?_ | split | dsimp only
theorem State.stepArrive_now (k : Bool) : (State.stepArrive s k).hall = s.hall := by
  unfold State.stepArrive
  with_reducible repeat' first | rfl | refine ite_now ?_ ?_ | refine (State.takeDig_now ..).trans ?_ | refine (State.injectRest_now ..).trans ?_ | refine (State.modCtx_now ..).trans ?_ | refine (State.replayCheck_now ..).trans ?_ | refine (State.replayEnd_now ..).trans ?_ | refine (State.modBand_now ..).trans ?_ | dsimp only
theorem State.localArrive_now (k : Bool) (bid : Byte) : (State.localArrive s k bid).hall = s.hall := by
  unfold State.localArrive
  with_reducible repeat' first | rfl | refine ite_now ?_ ?_ | refine (State.setObj_now ..).trans ?_ | refine (State.stepArrive_now ..).trans ?_ | refine (State.modCtx_now ..).trans ?_ | refine (State.arriveAt_now ..).trans ?_ | split | dsimp only
theorem State.checkLocal_now (k : Bool) (bid : Byte) : (State.checkLocal s k bid).hall = s.hall := by
  unfold State.checkLocal
  with_reducible repeat' first | rfl | refine ite_now ?_ ?_ | refine (State.localArrive_now ..).trans ?_ | split | dsimp only
theorem State.objMisuse_now (k : Bool) (o : Nat) (op : Byte) (src : Nat) (rank : BitVec 32) : (State.objMisuse s k o op src rank).hall = s.hall := by
  unfold State.objMisuse
  with_reducible repeat' first | rfl | refine ite_now ?_ ?_ | refine (State.modSync_now ..).trans ?_ | refine (State.raiseNow_now ..).trans ?_
theorem State.objOp_now (k : Bool) (o : Nat) (op : Byte) (operand : BitVec 32) (src : Nat) (rank : BitVec 32) : (State.objOp s k o op operand src rank).hall = s.hall := by
  unfold State.objOp
  with_reducible repeat' first | rfl | refine ite_now ?_ ?_ | refine (State.modSync_now ..).trans ?_ | refine (State.expireObj_now ..).trans ?_ | refine (State.objMisuse_now ..).trans ?_ | refine (State.setObj_now ..).trans ?_ | refine (State.modCtx_now ..).trans ?_ | refine (State.dropTimerWake_now ..).trans ?_ | refine (State.askTimerWake_now ..).trans ?_ | refine (State.wake_now ..).trans ?_ | refine (State.checkLocal_now ..).trans ?_ | dsimp only
theorem State.applyPosts_now  : (State.applyPosts s).hall = s.hall := by
  unfold State.applyPosts
  with_reducible repeat' first | rfl | refine (State.objOp_now ..).trans ?_ | refine (State.modSync_now ..).trans ?_ | refine (foldl_now _ _ _ ?_).trans ?_ | (intro _ _) | dsimp only

-- Trellis
theorem State.access_now (write : Bool) (level : Level) (a : CellAddr) (ix : BitVec 7) (value : BitVec 32) (scope : Option Level) (desc : Option Nat) : (State.access s write level a ix value scope desc).hall = s.hall := by
  unfold State.access
  with_reducible repeat' first | rfl | refine ite_now ?_ ?_ | refine (State.complete_now ..).trans ?_ | refine (State.sendDown_now ..).trans ?_ | refine (State.modTr_now ..).trans ?_ | split | dsimp only
theorem State.fireEdge_now (fire : BitVec 64) (a : Act) (stamp : HT80) : (State.fireEdge s fire a stamp).hall = s.hall := by
  unfold State.fireEdge
  with_reducible repeat' first | rfl | refine ite_now ?_ ?_ | refine (State.modTr_now ..).trans ?_ | refine (State.modCtx_now ..).trans ?_ | refine (State.complete_now ..).trans ?_ | split | dsimp only
theorem State.wordEdge_now (x : BitVec 64 × Act) : (State.wordEdge s x).hall = s.hall := by
  unfold State.wordEdge
  with_reducible repeat' first | rfl | refine ite_now ?_ ?_ | refine (State.modTr_now ..).trans ?_ | refine (State.drew_now ..).trans ?_ | refine (State.fireEdge_now ..).trans ?_ | dsimp only
theorem State.wordEdges_now  : (State.wordEdges s).hall = s.hall := by
  unfold State.wordEdges
  with_reducible repeat' first | rfl | refine (State.wordEdge_now ..).trans ?_ | refine (State.modTr_now ..).trans ?_ | refine (foldl_now _ _ _ ?_).trans ?_ | (intro _ _) | dsimp only

-- Bandstand
theorem State.startRamp_now (e : Entry) : (State.startRamp s e).hall = s.hall := by
  unfold State.startRamp
  with_reducible repeat' first | rfl | refine ite_now ?_ ?_ | refine (State.modBand_now ..).trans ?_
theorem State.bandTick_now  : (State.bandTick s).hall = s.hall := by
  unfold State.bandTick
  with_reducible repeat' first | rfl | refine ite_now ?_ ?_ | refine elim_now ?_ ?_ | refine (State.startRamp_now ..).trans ?_ | refine (State.modBand_now ..).trans ?_ | refine (foldl_now _ _ _ ?_).trans ?_ | (intro _ _) | (intro _) | dsimp only

-- Dump
theorem State.pumpDump_now (n_ : Nat) : (State.pumpDump s n_).hall = s.hall := by
  induction n_ generalizing s with
  | zero => rfl
  | succ k ih =>
    unfold State.pumpDump
    with_reducible repeat' first | refine (ih ..).trans ?_ | rfl | refine ite_now ?_ ?_ | refine (State.modEng_now ..).trans ?_ | refine (State.drew_now ..).trans ?_ | refine (State.writeGroup_now ..).trans ?_ | split
theorem State.readUnits_now  : (State.readUnits s).hall = s.hall := by
  unfold State.readUnits
  with_reducible repeat' first | rfl | refine (State.access_now ..).trans ?_ | refine (foldl_now _ _ _ ?_).trans ?_ | (intro _ _)
theorem State.startDump_now (j : DumpJob) : (State.startDump s j).hall = s.hall := by
  unfold State.startDump
  with_reducible repeat' first | rfl | refine ite_now ?_ ?_ | refine (State.modEng_now ..).trans ?_ | refine (State.modCtx_now ..).trans ?_ | refine (State.readUnits_now ..).trans ?_ | refine (State.pumpDump_now ..).trans ?_ | split | dsimp only
theorem State.endDump_now (status : Byte) : (State.endDump s status).hall = s.hall := by
  unfold State.endDump
  with_reducible repeat' first | rfl | refine ite_now ?_ ?_ | refine elim_now ?_ ?_ | refine (State.modEng_now ..).trans ?_ | refine (State.modCtx_now ..).trans ?_ | refine (State.complete_now ..).trans ?_ | refine (State.startDump_now ..).trans ?_ | (intro _) | split | dsimp only

-- Rings
theorem State.nextSeq_now  : (State.nextSeq s).hall = s.hall := by
  unfold State.nextSeq
  with_reducible repeat' first | rfl | refine (State.modFc_now ..).trans ?_
theorem State.event_now (r : EvRec) : (State.event s r).hall = s.hall := by
  unfold State.event
  with_reducible repeat' first | rfl | refine (State.putGroup_now ..).trans ?_

-- Descriptors
theorem State.ends_now (n : Nat) (st : Byte) : (State.ends s n st).hall = s.hall := by
  unfold State.ends
  with_reducible repeat' first | rfl | refine (State.complete_now ..).trans ?_

-- Grotto
theorem State.lgSend_now (cmd : Byte) (addr : Option Nat) (page : Option Page) : (State.lgSend s cmd addr page).hall = s.hall := by
  unfold State.lgSend
  with_reducible repeat' first | rfl | refine (State.emit_now ..).trans ?_
theorem State.lgProgram_now (addr : Nat) (p : Page) : (State.lgProgram s addr p).hall = s.hall := by
  unfold State.lgProgram
  with_reducible repeat' first | rfl | refine (State.lgSend_now ..).trans ?_
theorem State.beforeRecord_now  : (State.beforeRecord s).hall = s.hall := by
  unfold State.beforeRecord
  with_reducible repeat' first | rfl | refine ite_now ?_ ?_ | refine (State.modGate_now ..).trans ?_ | refine (State.modLg_now ..).trans ?_ | refine (State.raiseNow_now ..).trans ?_ | dsimp only
theorem State.startRecord_now (j : Job) : (State.startRecord s j).hall = s.hall := by
  unfold State.startRecord
  with_reducible repeat' first | rfl | refine (State.beforeRecord_now ..).trans ?_ | refine (State.modLg_now ..).trans ?_ | refine (State.lgProgram_now ..).trans ?_ | split | dsimp only
theorem State.loseSvc_now (q : SvcReq) : (State.loseSvc s q).hall = s.hall := by
  unfold State.loseSvc
  with_reducible repeat' first | rfl | refine elim_now ?_ ?_ | refine (State.modLg_now ..).trans ?_ | refine (State.raiseNow_now ..).trans ?_ | refine (State.complete_now ..).trans ?_ | (intro _) | dsimp only
theorem State.startJob_now  : (State.startJob s).hall = s.hall := by
  unfold State.startJob
  with_reducible repeat' first | rfl | refine ite_now ?_ ?_ | refine (State.startRecord_now ..).trans ?_ | refine (State.loseSvc_now ..).trans ?_ | refine (State.modLg_now ..).trans ?_ | refine (foldl_now _ _ _ ?_).trans ?_ | (intro _ _) | split | dsimp only
theorem State.startOdo_now  : (State.startOdo s).hall = s.hall := by
  unfold State.startOdo
  with_reducible repeat' first | rfl | refine ite_now ?_ ?_ | refine (State.modLg_now ..).trans ?_ | refine (State.startRecord_now ..).trans ?_
theorem State.svc_now (code : BitVec 16) (note : BitVec 256) (desc : Option Nat) : (State.svc s code note desc).hall = s.hall := by
  unfold State.svc
  with_reducible repeat' first | rfl | refine ite_now ?_ ?_ | refine (State.modLg_now ..).trans ?_ | refine (State.startJob_now ..).trans ?_

-- Health
theorem State.modScore_now (i : Nat) (f : Score → Score) : (State.modScore s i f).hall = s.hall := by
  unfold State.modScore
  with_reducible repeat' first | rfl | refine (State.modHs_now ..).trans ?_
theorem State.advise_now (i : Nat) (x : Score) : (State.advise s i x).hall = s.hall := by
  unfold State.advise
  with_reducible repeat' first | rfl | refine ite_now ?_ ?_ | refine (State.raiseNow_now ..).trans ?_ | refine (State.send_now ..).trans ?_ | split | dsimp only
theorem State.evalOne_now (i : Nat) : (State.evalOne s i).hall = s.hall := by
  unfold State.evalOne
  with_reducible repeat' first | rfl | refine ite_now ?_ ?_ | refine (State.modScore_now ..).trans ?_ | refine (State.advise_now ..).trans ?_ | dsimp only
theorem State.settleVerdicts_now  : (State.settleVerdicts s).hall = s.hall := by
  unfold State.settleVerdicts
  with_reducible repeat' first | rfl | refine ite_now ?_ ?_ | refine (State.evalOne_now ..).trans ?_ | refine (State.modHs_now ..).trans ?_ | refine (foldl_now _ _ _ ?_).trans ?_ | (intro _ _)

-- Faults
theorem State.trySafe_now  : (State.trySafe s).hall = s.hall := by
  unfold State.trySafe
  with_reducible repeat' first | rfl | refine ite_now ?_ ?_ | refine (State.ends_now ..).trans ?_ | refine (State.modFc_now ..).trans ?_ | refine (State.nextSeq_now ..).trans ?_ | refine (State.event_now ..).trans ?_ | dsimp only

-- Firmware
theorem State.imageWrite_now (core : Bool) (ofs : Nat) (data : BitVec 512) : (State.imageWrite s core ofs data).hall = s.hall := by
  unfold State.imageWrite
  with_reducible repeat' first | rfl | refine ite_now ?_ ?_ | refine (State.modPw_now ..).trans ?_ | refine (State.raiseNow_now ..).trans ?_ | refine (foldl_now _ _ _ ?_).trans ?_ | (intro _ _) | dsimp only
theorem State.dropImageReads_now  : (State.dropImageReads s).hall = s.hall := by
  unfold State.dropImageReads
  with_reducible repeat' first | rfl | refine (State.modEng_now ..).trans ?_ | split | dsimp only
theorem State.fwFail_now (cause : BitVec 4) : (State.fwFail s cause).hall = s.hall := by
  unfold State.fwFail
  with_reducible repeat' first | rfl | refine (State.imageWrite_now ..).trans ?_ | refine (State.modFw_now ..).trans ?_ | refine (State.dropImageReads_now ..).trans ?_ | refine (foldl_now _ _ _ ?_).trans ?_ | (intro _ _) | dsimp only
theorem State.fwReadError_now (why ofs : Nat) : (State.fwReadError s why ofs).hall = s.hall := by
  unfold State.fwReadError
  with_reducible repeat' first | rfl | refine ite_now ?_ ?_ | refine (State.fwFail_now ..).trans ?_ | refine (State.raiseNow_now ..).trans ?_
theorem State.fwReset_now  : (State.fwReset s).hall = s.hall := by
  unfold State.fwReset
  with_reducible repeat' first | rfl | refine (State.modFw_now ..).trans ?_ | refine (State.dropImageReads_now ..).trans ?_

-- Power
theorem State.modDom_now (d : Nat) (f : Domain → Domain) : (State.modDom s d f).hall = s.hall := by
  unfold State.modDom
  with_reducible repeat' first | rfl | refine (State.modPw_now ..).trans ?_
theorem State.orgOff_now  : (State.orgOff s).hall = s.hall := by
  unfold State.orgOff
  with_reducible repeat' first | rfl | refine ite_now ?_ ?_ | refine (State.enterHoldover_now ..).trans ?_ | refine (State.modOrg_now ..).trans ?_ | dsimp only
theorem State.healthOff_now  : (State.healthOff s).hall = s.hall := by
  unfold State.healthOff
  with_reducible repeat' first | rfl | refine (State.modHs_now ..).trans ?_
theorem State.engineOff_now  : (State.engineOff s).hall = s.hall := by
  unfold State.engineOff
  with_reducible repeat' first | rfl | refine (State.fwReadError_now ..).trans ?_ | refine (State.modEng_now ..).trans ?_ | dsimp only
theorem State.syncOff_now  : (State.syncOff s).hall = s.hall := by
  unfold State.syncOff
  with_reducible repeat' first | rfl | refine (State.modCtx0_now ..).trans ?_ | refine (State.modCtx1_now ..).trans ?_ | refine (State.modSync_now ..).trans ?_
theorem State.combineOff_now  : (State.combineOff s).hall = s.hall := by
  unfold State.combineOff
  with_reducible repeat' first | rfl | refine (State.modFab_now ..).trans ?_
theorem State.bandOff_now  : (State.bandOff s).hall = s.hall := by
  unfold State.bandOff
  with_reducible repeat' first | rfl | refine (State.modBand_now ..).trans ?_ | refine (State.modTr_now ..).trans ?_ | refine (State.modPins_now _ _ ?_).trans ?_ | dsimp only | (intro _; rfl)
theorem State.belvedereOff_now  : (State.belvedereOff s).hall = s.hall := by
  unfold State.belvedereOff
  with_reducible repeat' first | rfl | refine (State.modBv_now ..).trans ?_ | refine (State.modEng_now ..).trans ?_ | refine (State.endDump_now ..).trans ?_ | refine (State.modCtx0_now ..).trans ?_ | refine (State.modCtx1_now ..).trans ?_ | dsimp only
theorem State.domOff_now (d : Nat) : (State.domOff s d).hall = s.hall := by
  unfold State.domOff
  with_reducible repeat' first | rfl | refine (State.orgOff_now ..).trans ?_ | refine (State.modCap_now ..).trans ?_ | refine (State.modFw_now ..).trans ?_ | refine (State.modTst_now ..).trans ?_ | refine (State.fwReset_now ..).trans ?_ | refine (State.healthOff_now ..).trans ?_ | refine (State.engineOff_now ..).trans ?_ | refine (State.syncOff_now ..).trans ?_ | refine (State.combineOff_now ..).trans ?_ | refine (State.bandOff_now ..).trans ?_ | refine (State.belvedereOff_now ..).trans ?_ | refine (State.portExit_now ..).trans ?_ | refine (State.modPort_now ..).trans ?_ | refine (foldl_now _ _ _ ?_).trans ?_ | (intro _ _) | split
theorem State.startShut_now (d : Nat) : (State.startShut s d).hall = s.hall := by
  unfold State.startShut
  with_reducible repeat' first | rfl | refine (State.domOff_now ..).trans ?_ | refine (State.modDom_now ..).trans ?_
theorem State.settleDoms_now  : (State.settleDoms s).hall = s.hall := by
  unfold State.settleDoms
  with_reducible repeat' first | rfl | refine ite_now ?_ ?_ | refine (State.startShut_now ..).trans ?_ | refine (foldl_now _ _ _ ?_).trans ?_ | (intro _ _)

-- Capture
theorem State.foldEdge_now (n : BitVec 3) (falling : Bool) (stamp : HT80) : (State.foldEdge s n falling stamp).hall = s.hall := by
  unfold State.foldEdge
  with_reducible repeat' first | rfl | refine ite_now ?_ ?_ | refine (State.modCtx_now ..).trans ?_ | split
theorem State.takeEdge_now (n : BitVec 3) (falling : Bool) (stamp : HT80) : (State.takeEdge s n falling stamp).hall = s.hall := by
  unfold State.takeEdge
  with_reducible repeat' first | rfl | refine ite_now ?_ ?_ | refine (State.modSync_now ..).trans ?_ | refine (State.modCapIn_now ..).trans ?_ | refine (State.foldEdge_now ..).trans ?_ | dsimp only
theorem State.settleEdges_now  : (State.settleEdges s).hall = s.hall := by
  unfold State.settleEdges
  with_reducible repeat' first | rfl | refine (State.takeEdge_now ..).trans ?_ | refine (State.modCapIn_now ..).trans ?_ | refine (foldl_now _ _ _ ?_).trans ?_ | (intro _ _)

-- Tick
theorem State.hostCycle_now  : (State.hostCycle s).hall = s.hall := by
  unfold State.hostCycle
  with_reducible repeat' first | rfl | refine ite_now ?_ ?_ | refine (State.modTr_now ..).trans ?_ | refine (State.holdCycle_now ..).trans ?_ | refine (State.modCtx0_now ..).trans ?_ | refine (State.modCtx1_now ..).trans ?_ | refine (State.rootCycle_now ..).trans ?_ | refine (State.lanesCycle_now ..).trans ?_ | dsimp only
theorem State.hostEdges_now  : (State.hostEdges s).hall = s.hall := by
  unfold State.hostEdges
  with_reducible repeat' first | rfl | refine ite_now ?_ ?_ | refine (State.hostCycle_now ..).trans ?_ | refine (State.drew_now ..).trans ?_ | refine (State.wordEdges_now ..).trans ?_ | refine (State.modTr_now ..).trans ?_ | refine (foldl_now _ _ _ ?_).trans ?_ | (intro _ _) | dsimp only

/-- What settles as a tick ends leaves hall time alone. -/
theorem State.settled_now : s.settleDoms.settleEdges.settleVerdicts.startOdo.hall = s.hall :=
  (State.startOdo_now _).trans ((State.settleVerdicts_now _).trans ((State.settleEdges_now _).trans (State.settleDoms_now _)))

/-- What settles as a tick ends keeps the invariant and the block up. -/
theorem State.settled_kept : Kept s s.settleDoms.settleEdges.settleVerdicts.startOdo :=
  .trans State.settleDoms_kept (.of_key ((State.startOdo_key _).trans ((State.settleVerdicts_key _).trans (State.settleEdges_key _))))

/-- What the posts and the digest do as a tick ends leaves hall time alone. -/
theorem State.posted_now : (if s.isLeaf = true then s.applyPosts.takeTick else s).hall = s.hall :=
  ite_now ((State.takeTick_now _).trans (State.applyPosts_now _)) rfl

/-- What the counted tick does leaves hall time alone. -/
theorem State.counted_now : (if s.isLeaf = true then s.hostEdges.bandTick else s).lanesTick.flushAnswers.trySafe.hall = s.hall :=
  (State.trySafe_now _).trans ((State.flushAnswers_now _).trans ((State.lanesTick_now _).trans
    (ite_now ((State.bandTick_now _).trans (State.hostEdges_now _)) rfl)))

/-- What the Orangery and the election do in a tick leaves hall time alone. -/
theorem State.steered_now : s.rampRate.stopAccel.handOver.hall = s.hall :=
  (State.handOver_now _).trans ((State.stopAccel_now _).trans (State.rampRate_now _))

/-- Hall time over one tick (R12, R13). -/
theorem State.passTick_now (h : s.alive = true) (g : s.sun.counting = true) : s.passTick.sun.now = s.sun.now + htOf 1 := by
  have hs := s.settled_now
  simp only [State.hall, Prod.mk.injEq] at hs
  simp only [State.passTick, h, if_true, hs.2, g, Bool.and_true, Bool.not_true, Bool.false_eq_true, if_false]
  have hc (t : State) : (if t.isLeaf = true then t.hostEdges.bandTick else t).lanesTick.flushAnswers.trySafe.sun.now = t.sun.now :=
    congrArg Prod.fst (State.counted_now t)
  have ho (t : State) : t.rampRate.stopAccel.handOver.sun.now = t.sun.now := congrArg Prod.fst (State.steered_now t)
  have hp (t : State) : (if t.isLeaf = true then t.applyPosts.takeTick else t).sun.now = t.sun.now := congrArg Prod.fst (State.posted_now t)
  rw [hc, ho, State.modSun_sun, hp, hs.1]

end Sys2Proof.Machine
end

