-- ==== Sys2Proof/Laws/Received.lean ====
section
/-!
SUPPORT. What the recording of a flit and the reception of a message leave alone: the trace changes neither the ports nor
anything that a command looks at, and of its port a message changes what acknowledgement needs.
-/

namespace Sys2Proof.Machine

variable (s : State)

/-- A recorded entry changes the trace and nothing else. -/
theorem State.traced_eq (stamp : HT80) (src : Nat) (p : PortNo) (d : List Byte) : ∃ b, s.traced stamp src p d = s.modBv fun _ => b := by
  unfold State.traced
  split
  · exact ⟨_, rfl⟩
  · exact ⟨s.bv, rfl⟩

/-- The flits of a message change the trace and nothing else. -/
theorem State.tracedMsg_eq (stamp : HT80) (src : Nat) (p : PortNo) (q : BitVec 5) (m : Msg) : ∃ b, s.tracedMsg stamp src p q m = s.modBv fun _ => b := by
  unfold State.tracedMsg
  generalize List.range (msgFlits m) = l
  induction l generalizing s with
  | nil => exact ⟨s.bv, rfl⟩
  | cons k l ih =>
    obtain ⟨b, hb⟩ := s.traced_eq stamp src p (flitHead m q k)
    obtain ⟨c, hc⟩ := ih (s.traced stamp src p (flitHead m q k))
    exact ⟨c, by rw [List.foldl_cons, hc, hb]; rfl⟩

/-- What the block drives goes to the list of outputs and the trace. -/
theorem State.emitAt_eq (stamp : HT80) (o : Out) : ∃ b, s.emitAt stamp o = (s.modOut (o :: ·)).modBv fun _ => b := by
  unfold State.emitAt
  cases o <;> first
    | exact State.tracedMsg_eq ..
    | exact State.traced_eq ..
    | exact ⟨s.bv, rfl⟩

/-- Acknowledgement changes the port, the trace and the outputs. -/
theorem State.accept_eq (p : PortNo) : ∃ b o, s.accept p =
    ((s.modPort p fun q => { q with rxSeq := q.rxSeq + 1, discarding := false, nakAt := none }).modOut fun _ => o).modBv fun _ => b := by
  obtain ⟨b, hb⟩ := State.emitAt_eq (s.modPort p fun q => { q with rxSeq := q.rxSeq + 1, discarding := false, nakAt := none }) s.stamp
    (.acknak p (s.port p).rxSeq false)
  exact ⟨b, _ :: s.out, hb⟩

/-- An accepted message: its arrival stamp, the next SEQ, no discarding. -/
def Port.took (q : Port) (a : HT80) : Port := { q with lastRx := a, rxSeq := q.rxSeq + 1, discarding := false, nakAt := none }

/-- A received message changes its port, the trace, the outputs and the model's own counter. -/
theorem State.received_eq (p : PortNo) (m : Msg) :
    ∃ b o, s.received p m = (((s.drew.modPort p fun q => q.took s.arrival).modOut fun _ => o).modBv fun _ => b) := by
  obtain ⟨b, hb⟩ := s.tracedMsg_eq s.arrival 0 p (s.port p).rxSeq m
  obtain ⟨c, o, hc⟩ := State.accept_eq ((s.modBv fun _ => b).drew.modPort p fun q => { q with lastRx := s.arrival }) p
  refine ⟨c, o, ?_⟩
  have h : s.received p m = State.accept ((s.tracedMsg s.arrival 0 p (s.port p).rxSeq m).drew.modPort p fun q => { q with lastRx := s.arrival }) p := rfl
  rw [h, hb, hc]
  simp only [State.modPort, State.modPorts, State.modOut, State.modBv, State.drew, List.modify_modify_eq]
  rfl

@[simp] theorem State.received_profile (p : PortNo) (m : Msg) : (s.received p m).profile = s.profile := by
  obtain ⟨b, o, h⟩ := s.received_eq p m; rw [h]; rfl
@[simp] theorem State.received_pins (p : PortNo) (m : Msg) : (s.received p m).pins = s.pins := by
  obtain ⟨b, o, h⟩ := s.received_eq p m; rw [h]; rfl
@[simp] theorem State.received_sun (p : PortNo) (m : Msg) : (s.received p m).sun = s.sun := by
  obtain ⟨b, o, h⟩ := s.received_eq p m; rw [h]; rfl
@[simp] theorem State.received_org (p : PortNo) (m : Msg) : (s.received p m).org = s.org := by
  obtain ⟨b, o, h⟩ := s.received_eq p m; rw [h]; rfl
@[simp] theorem State.received_elect (p : PortNo) (m : Msg) : (s.received p m).elect = s.elect := by
  obtain ⟨b, o, h⟩ := s.received_eq p m; rw [h]; rfl
@[simp] theorem State.received_fab (p : PortNo) (m : Msg) : (s.received p m).fab = s.fab := by
  obtain ⟨b, o, h⟩ := s.received_eq p m; rw [h]; rfl
@[simp] theorem State.received_tr (p : PortNo) (m : Msg) : (s.received p m).tr = s.tr := by
  obtain ⟨b, o, h⟩ := s.received_eq p m; rw [h]; rfl
@[simp] theorem State.received_band (p : PortNo) (m : Msg) : (s.received p m).band = s.band := by
  obtain ⟨b, o, h⟩ := s.received_eq p m; rw [h]; rfl
@[simp] theorem State.received_ctx0 (p : PortNo) (m : Msg) : (s.received p m).ctx0 = s.ctx0 := by
  obtain ⟨b, o, h⟩ := s.received_eq p m; rw [h]; rfl
@[simp] theorem State.received_ctx1 (p : PortNo) (m : Msg) : (s.received p m).ctx1 = s.ctx1 := by
  obtain ⟨b, o, h⟩ := s.received_eq p m; rw [h]; rfl
@[simp] theorem State.received_sync (p : PortNo) (m : Msg) : (s.received p m).sync = s.sync := by
  obtain ⟨b, o, h⟩ := s.received_eq p m; rw [h]; rfl
@[simp] theorem State.received_eng (p : PortNo) (m : Msg) : (s.received p m).eng = s.eng := by
  obtain ⟨b, o, h⟩ := s.received_eq p m; rw [h]; rfl
@[simp] theorem State.received_fc (p : PortNo) (m : Msg) : (s.received p m).fc = s.fc := by
  obtain ⟨b, o, h⟩ := s.received_eq p m; rw [h]; rfl
@[simp] theorem State.received_pw (p : PortNo) (m : Msg) : (s.received p m).pw = s.pw := by
  obtain ⟨b, o, h⟩ := s.received_eq p m; rw [h]; rfl
@[simp] theorem State.received_gate (p : PortNo) (m : Msg) : (s.received p m).gate = s.gate := by
  obtain ⟨b, o, h⟩ := s.received_eq p m; rw [h]; rfl
@[simp] theorem State.received_lg (p : PortNo) (m : Msg) : (s.received p m).lg = s.lg := by
  obtain ⟨b, o, h⟩ := s.received_eq p m; rw [h]; rfl
@[simp] theorem State.received_hs (p : PortNo) (m : Msg) : (s.received p m).hs = s.hs := by
  obtain ⟨b, o, h⟩ := s.received_eq p m; rw [h]; rfl
@[simp] theorem State.received_cap (p : PortNo) (m : Msg) : (s.received p m).cap = s.cap := by
  obtain ⟨b, o, h⟩ := s.received_eq p m; rw [h]; rfl
@[simp] theorem State.received_tst (p : PortNo) (m : Msg) : (s.received p m).tst = s.tst := by
  obtain ⟨b, o, h⟩ := s.received_eq p m; rw [h]; rfl
@[simp] theorem State.received_fw (p : PortNo) (m : Msg) : (s.received p m).fw = s.fw := by
  obtain ⟨b, o, h⟩ := s.received_eq p m; rw [h]; rfl
@[simp] theorem State.received_rp (p : PortNo) (m : Msg) : (s.received p m).rp = s.rp := by
  obtain ⟨b, o, h⟩ := s.received_eq p m; rw [h]; rfl
@[simp] theorem State.received_pending (p : PortNo) (m : Msg) : (s.received p m).pending = s.pending := by
  obtain ⟨b, o, h⟩ := s.received_eq p m; rw [h]; rfl

@[simp] theorem State.received_ports (p : PortNo) (m : Msg) : (s.received p m).ports = s.ports.modify p.toNat fun q => q.took s.arrival := by
  obtain ⟨b, o, h⟩ := s.received_eq p m; rw [h]; rfl

/-- A port after a message on port `p`. -/
theorem State.received_port (p q : PortNo) (m : Msg) (h : q.toNat < s.ports.length) :
    (s.received p m).port q = if p = q then (s.port q).took s.arrival else s.port q := by
  unfold State.port
  rw [State.received_ports, List.getD_eq_getElem?_getD, List.getElem?_modify, List.getD_eq_getElem?_getD, List.getElem?_eq_getElem h]
  by_cases e : p = q
  · subst e; simp
  · have : p.toNat ≠ q.toNat := fun x => e (BitVec.eq_of_toNat_eq x)
    simp [e, this]

/-- What a command sees of the ports is as it was. -/
theorem State.received_see {α : Type} (p q : PortNo) (m : Msg) (f : Port → α) (h : ∀ x a, f (x.took a) = f x) :
    f ((s.received p m).port q) = f (s.port q) := by
  unfold State.port
  rw [State.received_ports, List.getD_eq_getElem?_getD, List.getElem?_modify, List.getD_eq_getElem?_getD]
  cases s.ports[q.toNat]? with
  | none => rfl
  | some x => by_cases e : p.toNat = q.toNat <;> simp [e, h]

@[simp] theorem State.received_tick (p : PortNo) (m : Msg) : (s.received p m).tick = s.tick := by simp [State.tick]
@[simp] theorem State.received_stamp (p : PortNo) (m : Msg) : (s.received p m).stamp = s.stamp := by simp [State.stamp]
@[simp] theorem State.received_alive (p : PortNo) (m : Msg) : (s.received p m).alive = s.alive := by simp [State.alive]
@[simp] theorem State.received_mute (p : PortNo) (m : Msg) : (s.received p m).mute = s.mute := by simp [State.mute]
@[simp] theorem State.received_isLeaf (p : PortNo) (m : Msg) : (s.received p m).isLeaf = s.isLeaf := by simp [State.isLeaf]
@[simp] theorem State.received_part (p : PortNo) (m : Msg) (t : PTag) : (s.received p m).part t = s.part t := by simp [State.part]
@[simp] theorem State.received_takes (p : PortNo) (m : Msg) (t : PTag) : (s.received p m).takes t = s.takes t := by simp [State.takes]
@[simp] theorem State.received_st (p q : PortNo) (m : Msg) : ((s.received p m).port q).st = (s.port q).st := s.received_see p q m _ fun _ _ => rfl
@[simp] theorem State.received_rev (p q : PortNo) (m : Msg) : ((s.received p m).port q).rev = (s.port q).rev := s.received_see p q m _ fun _ _ => rfl
@[simp] theorem State.received_delay (p q : PortNo) (m : Msg) : ((s.received p m).port q).delay = (s.port q).delay := s.received_see p q m _ fun _ _ => rfl
@[simp] theorem State.received_partnerHwid (p q : PortNo) (m : Msg) : ((s.received p m).port q).partnerHwid = (s.port q).partnerHwid :=
  s.received_see p q m _ fun _ _ => rfl

end Sys2Proof.Machine
end

