-- ==== Sys2Proof/Laws/Taken.lean ====
section
/-!
SUPPORT. What taking a descriptor does (R299, R304, R305, R307): where it is not taken nothing happens,
a failed check completes it, and else the opcode's own meaning runs on the state after the taking.
-/

namespace Sys2Proof.Machine

variable {s t : State} {u : Bool} {d : Desc} {n : Nat} {p : Byte → Bool} {f : State → Nat → State}

/-- A descriptor that has not its turn is not taken. -/
theorem onDesc_waits (h : s.alive = true) (ht : s.takeable u d = false) : onDesc p u d s f = .next s := by
  simp [onDesc, whenAlive, h, ht]

/-- A descriptor that fails a check of R307 is taken and completes with that outcome. -/
theorem onDesc_refused {st : Byte} {c : BitVec 16} {det : BitVec 80} (h : s.alive = true) (ht : s.takeable u d = true) (hp : p (descOp d) = true)
    (hc : s.commonCheck d = some (st, c, det)) : onDesc p u d s f = .next ((s.pull u d).complete s.eng.takenNum st c det) := by
  simp [onDesc, whenAlive, h, ht, hp, hc]

/-- A descriptor that passes them is taken, and its opcode acts on it under the next number. -/
theorem onDesc_taken (h : s.alive = true) (ht : s.takeable u d = true) (hp : p (descOp d) = true) (hc : s.commonCheck d = none) (et : t = s.pull u d)
    (en : n = s.eng.takenNum) : onDesc p u d s f = .next (f t n) := by
  subst et en
  simp [onDesc, whenAlive, h, ht, hp, hc]

/-- A request starts or waits: only the engine and what is put out change. -/
theorem State.hmIssue_eq (s : State) (r : HmReq) : ∃ e o, s.hmIssue r = { s with eng := e, out := o } := by
  unfold State.hmIssue
  split
  · exact ⟨_, _, rfl⟩
  · split
    · split <;> exact ⟨_, _, rfl⟩
    · exact ⟨_, _, rfl⟩

/-- So for the write of CONS. -/
theorem State.flushCons_eq (s : State) (n : Nat) : ∃ e o, s.flushCons n = { s with eng := e, out := o } := by
  unfold State.flushCons
  dsimp only
  split
  · exact ⟨_, _, rfl⟩
  · exact (State.hmIssue_eq _ _).imp fun e => Exists.imp fun o h => h

/-- So for the fetching of entries. -/
theorem State.fetchMore_eq (n k : Nat) : ∀ s : State, ∃ e o, s.fetchMore n k = { s with eng := e, out := o } := by
  induction k with
  | zero => exact fun s => ⟨_, _, rfl⟩
  | succ k ih =>
    intro s
    unfold State.fetchMore
    dsimp only
    split
    · obtain ⟨e, o, h⟩ := ih (State.hmIssue _ _)
      obtain ⟨e', o', h'⟩ := State.hmIssue_eq _ _
      exact ⟨e, o, by rw [h, h']; rfl⟩
    · exact ⟨_, _, rfl⟩

/-- Taking changes nothing but the engine and what is put out. -/
theorem State.pull_eq : ∃ e o, s.pull u d = { s with eng := e, out := o } := by
  unfold State.pull
  dsimp only
  obtain ⟨e, o, h⟩ := State.fetchMore_eq (cmdRing u) 8 (State.flushCons _ (cmdRing u))
  obtain ⟨e', o', h'⟩ := State.flushCons_eq _ (cmdRing u)
  exact ⟨e, o, by rw [h, h']; rfl⟩

end Sys2Proof.Machine
end

