-- ==== Sys2Proof/WellFormed.lean ====
section
/-!
DEFINITION. Which terms are commands that the hardware can meet on some profile: operands inside the ranges that
the manual's formats give them. The machine gives every term a meaning, the others too.
-/

namespace Sys2Proof

/-- A switched domain of some profile: 1 to 32 (R60). -/
def domainNo (d : BitVec 6) : Bool := 1 ≤ d.toNat && d.toNat ≤ 32

/-- A barrier flit without a reduction carries neither types nor a record (03, barrier payloads). -/
def plainBar (m : BarMsg) : Bool := !m.red && m.types == 0 && m.record == 0

/-- A PART FAULT carries the code of a UC or of an FT (R327). -/
def codeIsStop (c : BitVec 16) : Bool := c.getLsbD 15

/-- The command's operands lie inside their formats. -/
def Instr.wellFormed (i : Instr) : Bool :=
  match i with
  | .rstAssert _ => true
  | .rstColdRelease _ => true
  | .rstWarmRelease => true
  | .oscLock => true
  | .rstLinkAssert _ => true
  | .rstLinkRelease _ => true
  | .pfailFirstHigh => true
  | .pfailAssert => true
  | .pfailRingDrainEnd => true
  | .pfailCommitDone => true
  | .mcForcedEdge _ _ => true
  | .capInEdge _ _ _ => true
  | .refInEdge _ _ _ => true
  | .refEdgeMissing _ => true
  | .refFreqCheck _ _ => true
  | .waitToRestoreEnd _ => true
  | .refAgreeCompare => true
  | .referenceConflictRepeat => true
  | .measureEnd => true
  | .holdHistoryStore => true
  | .accelStageEnd => true
  | .electSettle => true
  | .standbyTakeoverTimer => true
  | .noStandbyRootRepeat => true
  | .claimHoldEnd => true
  | .pwPdAckRise d => domainNo d
  | .pwPdAckFall d => domainNo d
  | .powerDomainTimeout d => domainNo d
  | .bankClearDone d => domainNo d
  | .trCellHoldReq _ _ => true
  | .trRgnHoldReq _ _ => true
  | .holdBitRx _ _ => true
  | .cellArrive _ _ => true
  | .cellContrib _ _ _ => true
  | .cellPost _ _ _ _ => true
  | .hmResponse _ _ _ => true
  | .hmTimeout _ => true
  | .registerWrite addr _ => addr.extractLsb' 0 2 == 0
  | .sunNowRead => true
  | .snapshotRead addr => addr.extractLsb' 0 2 == 0
  | .capTsRead _ => true
  | .preset => true
  | .tlEnSet _ _ => true
  | .tlEnClear _ _ => true
  | .retrain _ => true
  | .calNow _ => true
  | .accel => true
  | .reelect _ => true
  | .orgUtcOfsWrite _ => true
  | .trEnWrite _ => true
  | .seat => true
  | .reseat _ => true
  | .seatingEnd m => m.regions.all fun x => x.trips.length == 8
  | .copy => true
  | .trellisSetSwitch => true
  | .clrStretch => true
  | .clrSat => true
  | .bsClr => true
  | .soClr => true
  | .syncWinPost _ _ => true
  | .syncWinOp _ _ => true
  | .syncWinCfg _ _ => true
  | .dgLayerHiWrite _ => true
  | .ringEnSet _ _ => true
  | .ringEnClear _ _ => true
  | .ringStopped _ => true
  | .dbNudge _ => true
  | .doorbellPoll _ => true
  | .load => true
  | .fwVerifyDone => true
  | .chal => true
  | .chalDrawn => true
  | .chalExpire => true
  | .gateOpen scope => scope != 0
  | .gateExit => true
  | .sessionTimeLimit => true
  | .rekey => true
  | .confirm => true
  | .retire => true
  | .ship => true
  | .fuseId => true
  | .fuseKey => true
  | .lockoutEnd => true
  | .fcClr _ => true
  | .force => true
  | .fcInjReport _ => true
  | .fcInjUnit _ => true
  | .fcInjCrc _ => true
  | .fcInjWire _ => true
  | .fcInjSelf _ => true
  | .pdEnWrite d _ => d.toNat ≤ 32
  | .bankOwnerWrite _ _ => true
  | .flush => true
  | .lgRdSelWrite _ => true
  | .ledgerReadDone => true
  | .clrHard => true
  | .hsClr => true
  | .hsSparesWrite _ => true
  | .hsFloorWrite _ => true
  | .sparesStale => true
  | .winOpenNow _ => true
  | .winCloseNow _ => true
  | .capClr _ => true
  | .bvClr => true
  | .bistGo _ => true
  | .bistDone _ => true
  | .coreHalt _ => true
  | .coreStep _ => true
  | .unsupportedOpcode _ _ => true
  | .launchAt _ _ => true
  | .barrierArm _ _ => true
  | .signal _ _ => true
  | .swapAt _ _ => true
  | .cfgWrite _ _ => true
  | .partitionOpen _ _ => true
  | .partitionClose _ _ => true
  | .parkAt _ _ => true
  | .windowSet _ _ => true
  | .dump _ _ => true
  | .ledgerNote _ _ => true
  | .captureArm _ _ => true
  | .loadEnv _ _ => true
  | .fence _ _ => true
  | .fenceDone _ => true
  | .replayStart _ _ => true
  | .openNotReceived _ => true
  | .launchCheck _ => true
  | .windowOpen _ => true
  | .windowClose _ => true
  | .loadStep _ => true
  | .signalEntry _ => true
  | .swap _ => true
  | .park _ => true
  | .captureOpen _ => true
  | .captureClose _ => true
  | .eventPresent _ => true
  | .beatSend _ _ => true
  | .beatRx _ _ _ => true
  | .beatTimeout _ => true
  | .acknakRx _ _ _ => true
  | .trainRx _ _ => true
  | .nodeDownRx _ _ => true
  | .lastGaspRx _ _ => true
  | .flitErrorRx _ _ => true
  | .stompedFlitRx _ => true
  | .unknownFlitRx _ _ _ => true
  | .blockLock _ => true
  | .flitLock _ => true
  | .flitLockLost _ => true
  | .calibrateDone _ => true
  | .linkStateTimeout _ => true
  | .lostHoldEnd _ => true
  | .downHeldEnd _ => true
  | .replayTimeout _ => true
  | .forcedRetrain _ => true
  | .flitAging _ => true
  | .phyRecal _ => true
  | .launchRx _ _ => true
  | .swapRx _ _ => true
  | .parkRx _ _ => true
  | .arriveRx _ m _ => plainBar m
  | .arriveRedRx _ m _ => m.red
  | .releaseRx _ m => plainBar m
  | .releaseRedRx _ m => m.red
  | .releaseDue _ _ => true
  | .signalRx _ _ => true
  | .announceRx _ _ => true
  | .assignRx _ _ => true
  | .treeRx _ _ => true
  | .treeOfferRepeat => true
  | .parentWaitEnd _ => true
  | .electRx _ _ => true
  | .mirrorRx _ _ => true
  | .reportRepeat _ => true
  | .delayRx _ _ => true
  | .delayPeriodic => true
  | .locationExpire _ => true
  | .partOpenRx _ _ => true
  | .partOpenAckRx _ _ => true
  | .partDeferredRx _ _ => true
  | .partRefusedRx _ _ => true
  | .partCloseRx _ _ => true
  | .partCloseAckRx _ _ => true
  | .partFaultRx _ m => codeIsStop m.aux
  | .healthRx _ _ => true
  | .openAckTimeout _ => true
  | .openTick _ => true
  | .closeTick _ => true
  | .quiescePoint _ => true
  | .deferTimeout _ => true
  | .reopenHoldEnd => true
  | .trellisWordRx level _ (.down slot _ _) => level != 3 && slot.toNat % 4 == 0
  | .trellisWordRx level _ (.up _ _ _) => level != 0
  | .trellisPacketRx level _ src words => (if src.isSome then level != 0 else level != 3) && 1 ≤ words.2.length && words.2.length ≤ 16
  | .unitErrorReport _ _ _ => true
  | .resultRx _ _ _ _ => true
  | .checkSend => true
  | .regionClockSlip _ => true
  | .laneClockLost _ _ child => child.toNat < 128
  | .hostClockWindow _ => true
  | .trellisAccessRetry _ _ _ => true
  | .telemReport _ _ _ => true
  | .errorWireFault _ _ child => child.toNat < 128
  | .islandWireFault island => island.toNat ≤ 66
  | .stepOverrun _ => true
  | .overrunReadDone _ _ => true
  | .loadLevelChange => true
  | .pwLendRise => true
  | .pwLendFall => true
  | .resumeTick _ => true
  | .waitTimeout _ => true
  | .timerFire _ => true
  | .barrierTimeout _ => true
  | .replayInject _ => true
  | .dumpAbandon => true
  | .faultReport _ => true
  | .collectorSelfFault => true
  | .sundialCheck => true
  | .controlCoreWatchdog _ => true
  | .safeDrainEnd => true
  | .odoInterval => true
  | .pageProgramDone _ => true
  | .sectorEraseDone => true
  | .ledgerScanDone _ _ => true
  | .tempSample => true
  | .healthWindowEnd => true
  | .healthCharge => true
  | .tdcCalibrationDone _ => true
  | .tdcRecal _ => true
  | .trellisActionSample _ => true
  | .contextSlotClearDone _ => true
  | .pwPfailLowSample => true
  | .trainSend _ => true
  | .ckXoEdgesCounted => true
  | .ckHmStop => true
  | .vddGyOff => true
  | .checkerPatternLock => true

end Sys2Proof
end

