-- ==== Sys2Proof/Tests/Slice0.lean ====
section
/-!
SUPPORT. Tests of the model: ill-formed commands that the check refuses, single steps with results worked out from
the manual, and for every statement of Certificates/Slice0/Obligations.lean a state that meets its hypotheses.
-/

namespace Sys2Proof.Tests

set_option Elab.async false

open Sys2Proof Sys2Proof.Machine

-- States to test on.

/-- A Leaf 100,000 s after its Sundial began to count, every domain ON. -/
def leaf : State :=
  { State.reset with
    sun := { State.reset.sun with counting := true, now := htOf 100000000000000 }
    pw := { State.reset.pw with doms := List.replicate 21 Domain.isOn } }

/-- A Hub likewise; its domains 5 and 7 are empty. -/
def hub : State :=
  { State.resetOf .hub with
    sun := { State.reset.sun with counting := true, now := htOf 100000000000000 }
    pw := { (State.resetOf .hub).pw with doms := (List.range 33).map fun d => if d = 5 || d = 7 then {} else Domain.isOn } }

/-- The Leaf with its firmware running and its converters calibrated. -/
def ready : State := { leaf with fw := { leaf.fw with st := .running, tdcOk := true } }

/-- The Leaf in the safe state. -/
def safe : State := { leaf with fc := { leaf.fc with safe := true }, pins := { leaf.pins with flHalt := true } }

/-- The next state, if there is one. -/
def next (o : Host.Outcome State Fault Refusal) : Option State :=
  match o with
  | .next t => some t
  | _ => none

/-- A claim. -/
def claim : ElectMsg := { prio := 192, qual := 0x20, hwid := 5, node := 3, rootClaim := true, standbyClaim := false }

/-- A port in UP at Core revision `rev` whose partner is synchronised. -/
def upPort (rev : BitVec 4 := 5) : Port := { en := true, st := .up, rev := rev, calDone := true, partnerSt := 1, lastBeat := some leaf.stamp, partnerHwid := 9 }

/-- The Leaf with port 7 in UP, and the Hub with port 63 in UP. -/
def linked : State := leaf.modPort 7 fun _ => upPort
def linkedHub : State := hub.modPort 63 fun _ => upPort

/-- The Leaf with a seated Trellis of two regions of one block of one cell, L_tr 1,600 ns and 1,024 cycles in 1,024 ns. -/
def seated : State := leaf.modTr fun r => { r with
  en := true, seat := .seated, regions := 2, blocks := 1, cells := 1, cyc1024 := 1024, k := 100, kMin := 40, ltr := 90, hcc := 5000, lSeat := 8, hPa := 1, hAs := 1
  hTrellis := 9, holdLat := 9, seated := 3 }

/-- The last cell, and one outside. -/
def cell : CellAddr := { region := 1, block := 0, cell := 0 }

/-- Partition 1, generation 1. -/
def tag : PTag := 0x0401

/-- The seated Leaf with an active context of `tag` in slot 0 that has signatures 7. -/
def active : State := seated.modCtx false fun c => { c with st := .active, ptag := tag, cfgA := { sigHost := 7 }, tStart := some (leaf.tick - 1000) }

/-- A table entry of `tag` that is due. -/
def entryOf (a : Action) : Entry := { action := a, ptag := tag, seq := 0xFFFFFFFF, t := leaf.stamp }

/-- The active Leaf that holds the entry. -/
def holding (e : Entry) (s : State := active) : State := s.modBand fun b => { b with table := [e] }

/-- An open partition of `tag` with two children, below its apex. -/
def part : Part :=
  { part := 1, ptag := tag, st := .open_, tOpen := leaf.stamp, tEvent := leaf.stamp, act := { upPort := some 7, children := [0, 1] }, slots := [{ bid := 3 }], bidsM1 := 255 }

/-- The linked Leaf that holds partition `p`. -/
def inPart (p : Part) (s : State := linked) : State := s.modFab fun b => { b with parts := [p] }

/-- A descriptor from (bit offset, value) pairs. -/
def desc (l : List (Nat × Nat)) : Desc := BitVec.ofNat 512 (l.foldl (fun a x => a + x.2 * 2 ^ x.1) 0)

/-- A C-pair of a time at a bit offset. -/
def pairAt (k : Nat) (t : HT80) : Nat × Nat := (k, t.toNat + (~~~t).toNat * 2 ^ 80)

/-- The state whose ring 0 runs and holds descriptor `d` next. -/
def giving (d : Desc) (s : State) : State := s.modRing 0 fun r => { r with en := true, st := .running, fetched := [(r.cons, d)] }

/-- It is taken and passes the common checks. -/
def passes (d : Desc) (s : State) : Bool := (giving d s).takeable false d && (giving d s).commonCheck d == none

/-- The state once it is taken. -/
def taken (d : Desc) (s : State) : State := (giving d s).pull false d

/-- The active Leaf that holds `part`, and the Hub that is its apex. -/
def member : State := inPart { part with member := true } active
def apexHub : State := inPart { part with act := { part.act with apex := true } } hub

/-- A descriptor of `tag` with opcode `op` and flags `fl`, at `t`. -/
def order (op fl : Nat) (t : HT80) (l : List (Nat × Nat) := []) : Desc := desc ([(0, op), (8, fl), (16, tag.toNat), pairAt 64 t] ++ l)

/-- Far enough ahead. -/
def soon : HT80 := leaf.stamp + htOf 10000

/-- An arming of barrier 255 for the step, its release, and the active Leaf that holds both, with LIMIT 1,000. -/
def arm : Arm := { bid := 255, step := true, notify := false, chanEn := false, chan := 0, types := 0, s := 0, cfg := 0, resultAddr := 0, timeout := 0, hostTag := 0 }
def rel : Rel := { bid := 255, round := 0, tApex := leaf.stamp, t := leaf.stamp, j := 0, red := false, record := 0 }
def stepping : State := active.modCtx false fun c => { c with arms := [arm], rels := [rel], cfgA := { c.cfgA with limit := 1000 } }

/-- A descriptor of opcode 0x07 taken 2 s ago, and one of opcode 0x09 that resumes now. -/
def opening : Taken :=
  { num := 0, urgent := false, opcode := 0x07, node := false, ptag := tag, hostTag := 0, takenAt := leaf.tick - 2000000000, body := 0 }
def resuming : Taken := { opening with opcode := 0x09, body := (0 : BitVec 368) ++ leaf.stamp ++ (0x1000 : BitVec 64) }

-- The hypotheses of the statements can be met: the machine as a whole.

/-- StepTakesFront, EmptyQueueIsOneTick. -/
theorem met_StepAndTick :
    ({ leaf with pending := [.preset] } : State).pending = .preset :: [] ∧ leaf.pending = [] ∧ leaf.alive = true ∧ leaf.sun.counting = true ∧
      State.reset.pending = [] ∧ ¬(State.reset.alive = true ∧ State.reset.sun.counting = true) := by decide

/-- InvariantKept: the invariant holds at a Leaf with a command waiting, and the step answers a next state. -/
theorem met_InvariantKept : ({ safe with pending := [.trellisSetSwitch] } : State).Inv ∧ (next (step { safe with pending := [.trellisSetSwitch] })).isSome = true :=
  ⟨by unfold State.Inv; decide, by decide⟩

/-- CommandFrame. -/
theorem met_CommandFrame : reachesKey .preset = false ∧ (next (exec .preset leaf)).isSome = true := by decide

/-- OnlyResetLeavesSafeState: a node in the safe state meets the invariant, and a reset leaves that state. -/
theorem met_OnlyResetLeavesSafeState : safe.Inv ∧ safe.fc.safe = true ∧ (next (exec (.rstAssert .warm) safe)).any (fun t => !t.fc.safe) = true :=
  ⟨by unfold State.Inv; decide, by decide, by decide⟩

/-- TimeComparison: at both ends of the ranges, and with and without a fraction. -/
theorem met_TimeComparison :
    ((5 : HT80) - 5 = 0) ∧ 1 ≤ ((0 : HT80) - (0 - 1)).toNat ∧ ((0 : HT80) - (0 - 1)).toNat ≤ 2 ^ 79 - 1 ∧
      ((604462909807314587353087 : HT80) - 0).toNat = 2 ^ 79 - 1 ∧ 2 ^ 79 ≤ ((604462909807314587353088 : HT80) - 0).toNat ∧ ((0x10000 : HT80).extractLsb' 0 16 = 0) ∧
      ((0x1FFFF : HT80).extractLsb' 0 16 ≠ 0) := by decide

/-- VersionRead. -/
theorem met_VersionRead : leaf.pins.powered = true ∧ leaf.pins.hmRunning = true ∧ leaf.alive = true := by decide

/-- ElectionOrder: PRIO 254 and 255, UNTRUSTED, and claims that differ in each key. -/
theorem met_ElectionOrder :
    (leaf.modOrg fun o => { o with prio := 0xFF }).org.prio = 0xFF ∧ (leaf.modSun fun u => { u with st := .untrusted }).sun.st = .untrusted ∧
      (let s := (leaf.modOrg fun o => { o with prio := 254 }).modElect fun e => { e with hold := false }
       s.org.prio.toNat < 255 ∧ s.sun.st ≠ .untrusted ∧ s.elect.hold = false ∧ s.coresHalted = false) ∧
      ((0 : Byte).toNat < (255 : Byte).toNat) ∧ claim.qual.toNat < ({ claim with qual := 0xFF } : ElectMsg).qual.toNat ∧
      claim.hwid ≠ ({ claim with hwid := 6 } : ElectMsg).hwid ∧
      claimBetter { claim with prio := 1 } { claim with qual := 1 } = true ∧ claimBetter { claim with qual := 1 } claim = true := by decide

/-- ResetAssertion, ResetRelease. -/
theorem met_Resets :
    leaf.pins.powered = true ∧ leaf.pins.rst ≠ .cold ∧ leaf.lg.job = none ∧ leaf.lg.erasing = none ∧
      (leaf.modPins fun p => { p with rst := .cold }).pins.rst = .cold ∧ (leaf.modPins fun p => { p with rst := .cold }).pins.xoRunning = true ∧
      (leaf.modPins fun p => { p with rst := .cold, xoRunning := false }).pins.xoRunning = false ∧
      (let s := leaf.modPins fun p => { p with rst := .warm }
       s.pins.powered = true ∧ s.pins.rst = .warm ∧ s.pins.xoRunning = true ∧ s.fc.torn = false) ∧
      (let s := (leaf.modPins fun p => { p with rst := .warm }).modFc fun f => { f with first := ⟨1, 1⟩ }
       s.pins.rst = .warm ∧ s.pins.xoRunning = true ∧ s.fc.torn = true) ∧
      (leaf.modPins fun p => { p with rst := .cold }).pins.warmLow = false ∧
      (let s := leaf.modPins fun p => { p with rst := .cold, warmLow := true }
       s.pins.powered = true ∧ s.pins.rst = .cold ∧ s.pins.coldLow = false ∧ s.pins.warmLow = true ∧ s.pins.xoRunning = true) ∧
      (let s := leaf.modPins fun p => { p with rst := .cold, edgesOwed := true }
       s.pins.rst = .cold ∧ s.pins.edgesOwed = true) := by decide

/-- SupplyAndPowerFailure. -/
theorem met_SupplyAndPowerFailure :
    (let s := leaf.modSun fun u => { u with counting := false }
     s.alive = true ∧ s.sun.counting = false ∧ s.xoOk = true ∧ s.pdOn 1 = true) ∧
      leaf.pins.powered = true ∧ leaf.alive = true ∧ leaf.sun.counting = true ∧
      (let s := leaf.modPins fun p => { p with pfailRun := some (leaf.tick - 16) }
       s.pins.pfailRun = some (leaf.tick - 16) ∧ s.pw.pfail = false ∧ s.pw.filt = 1 ∧
         tickLe (leaf.tick - 16 + BitVec.ofNat 64 (8 * (s.pw.filt.toNat + 1))) s.tick = true) ∧
      (let s := leaf.modPw fun p => { p with pfail := true, shed := false, pfailAt := leaf.tick - 100000 }
       s.pw.pfail = true ∧ s.pw.drained = false ∧ s.pw.shed = false ∧ tickLe (s.pw.pfailAt + 100000) s.tick = true ∧
         s.fc.inbox = [] ∧ s.eng.busy = false) ∧
      (let s := (leaf.modPw fun p => { p with pfail := true }).modLg fun l => { l with job := some (.odo true) }
       s.pw.pfail = true ∧ s.lg.job = some (.odo true)) := by decide

/-- PowerDomains: the last domain of a Leaf has banks, domain 2 has none. -/
theorem met_PowerDomains :
    leaf.alive = true ∧ leaf.hasDom 2 = true ∧ leaf.hasDom 20 = true ∧ leaf.hasDom 1 = true ∧ leaf.domBanks 2 = [] ∧ leaf.domBanks 12 ≠ [] ∧
      (let s := (leaf.modDom 2 fun x => { x with st := .waking, req := true, ack := false }).modDom 12 fun x => { x with st := .waking, req := true, ack := false }
       (s.dom 2).ack = false ∧ (s.dom 2).req = true ∧ (s.dom 2).st = .waking ∧ s.domBanks 2 = [] ∧
         (s.dom 12).ack = false ∧ (s.dom 12).req = true ∧ (s.dom 12).st = .waking ∧ s.domBanks 12 ≠ []) ∧
      (let s := leaf.modDom 20 fun x => { x with st := .shutting, req := false, ack := true, en := false }
       (s.dom 20).ack = true ∧ (s.dom 20).req = false ∧ (s.dom 20).st = .shutting ∧ (s.dom 20).en = false) ∧
      (let s := leaf.modDom 2 fun x => { x with ack := true, req := true, since := some (leaf.tick - 1000001) }
       (s.dom 2).ack = true ∧ (s.dom 2).req = true ∧ (s.dom 2).since = some (leaf.tick - 1000001) ∧ tickLe (leaf.tick - 1000001 + 1000001) s.tick = true) ∧
      ((leaf.dom 2).ack = false ∧ (leaf.dom 2).req = false) ∧
      (let s := leaf.modDom 9 fun x => { x with st := .waking, clearing := true, en := true }
       (s.dom 9).st = .waking ∧ (s.dom 9).clearing = true ∧ (s.dom 9).en = true) ∧
      leaf.writable 0 = true ∧
      (let s := leaf.modDom 20 fun x => { x with en := false, st := .off }
       s.writable 0 = true ∧ s.emptyDom 20 = false ∧ (s.dom 20).en = false ∧ (s.dom 20).st = .off ∧ (s.domNeeds 20).all s.pdOn = true) ∧
      (let s := (leaf.modDom 2 fun x => { x with st := .off }).modDom 20 fun x => { x with en := false, st := .off }
       s.writable 0 = true ∧ s.emptyDom 20 = false ∧ (s.dom 20).en = false ∧ (s.domNeeds 20).all s.pdOn = false) ∧
      (leaf.emptyDom 12 = false ∧ (leaf.dom 12).en = true ∧ leaf.domHeld 12 = true) ∧
      (leaf.emptyDom 2 = false ∧ (leaf.dom 2).en = true ∧ (leaf.dom 2).st = .on ∧ leaf.domHeld 2 = false) ∧
      (15 < leaf.profile.banks ∧ leaf.pw.owners.getD 13 0 = 1 ∧ leaf.pw.owners.getD 8 0 = 8 ∧ leaf.profile.banks ≤ 16) := by decide

-- The Orangery.

/-- An input declared as `type` at input `n`, whose latest edge came at `last`. -/
def withRef (n : Nat) (type : BitVec 2) (last : Option HT80) (misses : BitVec 2 := 0) : State :=
  leaf.modIn n fun i => { i with type := type, lastEdge := last, expect := last, misses := misses }

/-- ReferenceEdge: each clause, at the ends of the pulse widths and of the windows. -/
theorem met_ReferenceEdge :
    leaf.alive = true ∧ leaf.hasRef 1 = true ∧ leaf.hasRef 2 = false ∧ (leaf.refIn 1).type = 0 ∧ leaf.sun.isRoot = false ∧
      ((withRef 1 1 none).refIn 1).type = 1 ∧ (999 : BitVec 32).toNat < 1000 ∧ 500000000 < (500000001 : BitVec 32).toNat ∧
      1000 ≤ (1000 : BitVec 32).toNat ∧ (500000000 : BitVec 32).toNat ≤ 500000000 ∧ ((withRef 1 1 none).refIn 1).expect = none ∧
      (let s := withRef 1 1 (some (htOf 1000000000))
       (s.refIn 1).type = 1 ∧ (s.refIn 1).expect = some (htOf 1000000000) ∧ (s.ppsError 1 (htOf 1000000000) (htOf 2000001000)).natAbs ≤ 65536000 ∧
         65536000 < (s.ppsError 1 (htOf 1000000000) (htOf 2000001001)).natAbs ∧ (s.refIn 1).misses = 0) ∧
      (let s := withRef 1 1 (some (htOf 1000000000)) 1
       65536000 < (s.ppsError 1 (htOf 1000000000) (htOf 2000001001)).natAbs ∧ (s.refIn 1).misses ≠ 0) ∧
      ((withRef 0 2 none).refIn 0).type = 2 ∧ ((withRef 0 2 none).refIn 0).lastEdge = none ∧
      (let s := withRef 0 3 (some (htOf 1000))
       (s.refIn 0).type = 3 ∧ (s.refIn 0).lastEdge = some (htOf 1000) ∧
         (htDiff (htOf 1042) (htOf 1000) - refPeriod 3).natAbs * 20 ≤ refPeriod 3 ∧ refPeriod 3 < (htDiff (htOf 1043) (htOf 1000) - refPeriod 3).natAbs * 20) := by
  decide

/-- ReferenceQualification: the limits of a frequency, a pair that differs by one more than LIMIT, in conflict and not. -/
theorem met_ReferenceQualification :
    (let s := withRef 0 2 (some (htOf (leaf.tick - 150)))
     s.alive = true ∧ s.hasRef 0 = true ∧ (s.refIn 0).lastEdge = some (htOf (leaf.tick - 150)) ∧ (s.refIn 0).type ≠ 0 ∧ (s.refIn 0).type = 2 ∧
       htLe (htAdd (htOf (leaf.tick - 150)) (missingLimit 2)) s.stamp = true ∧ (100000 : BitVec 32).toInt.natAbs ≤ 100000 ∧
       100000 < (100001 : BitVec 32).toInt.natAbs) ∧
      ((withRef 1 1 none).refIn 1).type = 1 ∧
      (let s := leaf.modIn 0 fun i => { i with goodSince := some (leaf.tick - 10000000000), act := true }
       (s.refIn 0).goodSince = some (leaf.tick - 10000000000) ∧ (s.refIn 0).act = true ∧ (s.refIn 0).qual = false ∧
         tickLe (leaf.tick - 10000000000 + 10000000000) s.tick = true) ∧
      (let f := fun (x : Int) (i : RefIn) => { i with type := 2, qual := true, freqs := List.replicate 10 x }
       let s := (leaf.modIn 0 (f 0)).modIn 1 (f 51)
       let t := s.modOrg fun o => { o with pairs := o.pairs.set 0 { conflict := true } }
       refPairs[0]? = some (0, 1) ∧ s.pairDiff 0 1 = some (51, 10) ∧ s.org.limit.toNat < 51 ∧ s.org.pairs.length = 6 ∧ s.org.ins.length = 4 ∧
         (s.org.pairs.getD 0 {}).conflict = false ∧ (∀ k < 6, (s.org.pairs.getD k {}).conflict = false) ∧
         t.alive = true ∧ tickLe (t.org.conflictAt + 60000000000) t.tick = true ∧ t.pairDiff 0 1 = some (51, 10) ∧ t.org.pairs.length = 6 ∧
         (List.range 6).find? (fun k => (t.org.pairs.getD k {}).conflict) = some 0) ∧
      (let q : RefPair := { conflict := true, calm := 9 }
       q.conflict = true ∧ 40 * 5 ≤ 50 * 4 ∧ 10 ≤ q.calm + 1 ∧ ¬(11 ≤ q.calm + 1)) := by decide

/-- OrangeryTimers: 4 edges of a 1PPS and 1,024 of a frequency, stages 0, 2, 3 and 4, 4 and 3 repetitions, a root with a partition. -/
theorem met_OrangeryTimers :
    (let s := (withRef 0 1 none).modOrg fun o => { o with measure := some ⟨4, 0, 0⟩, target := 4, switching := true }
     s.alive = true ∧ s.org.measure = some ⟨4, 0, 0⟩ ∧ selInput s.org.target = some 0 ∧ s.org.switching = true ∧ (s.refIn 0).type = 1) ∧
      (let s := (withRef 1 2 none).modOrg fun o => { o with measure := some ⟨1024, 0, 0⟩, target := 5, switching := true }
       s.org.measure = some ⟨1024, 0, 0⟩ ∧ selInput s.org.target = some 1 ∧ s.org.switching = true ∧ (s.refIn 1).type ≠ 1) ∧
      (let s := (leaf.modSun fun u => { u with st := .locked }).modOrg fun o => { o with stage := 4, histAt := leaf.tick - 1000000000 }
       tickLe (s.org.histAt + 1000000000) s.tick = true ∧ s.sun.st = .locked ∧ s.org.dirty = false ∧ s.org.stage = 4 ∧ s.org.switching = false ∧
         s.org.accel = false) ∧
      (leaf.modSun fun u => { u with st := .holdover }).sun.st = .holdover ∧
      (let s := ((leaf.modCtx true fun c => { c with st := .ended }).modSun fun u => { u with isRoot := true }).modOrg fun o => { o with accel := true }
       s.org.accel = true ∧ s.sun.isRoot = true ∧ s.fabricOpen = true) ∧
      (let s := leaf.modOrg fun o => { o with accel := true, srcType := 4, stage := 2, stageSince := leaf.tick - BitVec.ofNat 64 (stageDwell 4 2) }
       s.org.accel = true ∧ s.org.srcType ≠ 0 ∧ ¬(s.sun.isRoot = true ∧ s.fabricOpen = true) ∧
         tickLe (s.org.stageSince + BitVec.ofNat 64 (stageDwell s.org.srcType s.org.stage.toNat)) s.tick = true ∧ s.org.stage.toNat < 3) ∧
      (let s := leaf.modOrg fun o => { o with accel := true, srcType := 4, stage := 3, perr := 999 }
       tickLe (s.org.stageSince + BitVec.ofNat 64 (stageDwell s.org.srcType s.org.stage.toNat)) s.tick = true ∧ 3 ≤ s.org.stage.toNat ∧
         s.org.perr.toInt.natAbs < (unitsToPs (lockLimit s.org.srcType)).natAbs ∧ s.sun.st ≠ .untrusted ∧ s.sun.st ≠ .locked ∧
         (s.modSun fun u => { u with st := .locked }).sun.st = .locked) ∧
      (let s := leaf.modOrg fun o => { o with accel := true, srcType := 4, stage := 3, perr := 1000, reps := 3 }
       tickLe (s.org.stageSince + BitVec.ofNat 64 (stageDwell s.org.srcType s.org.stage.toNat)) s.tick = true ∧
         (unitsToPs (lockLimit s.org.srcType)).natAbs ≤ s.org.perr.toInt.natAbs ∧ s.org.reps < 4 ∧ 4 ≤ (s.modOrg fun o => { o with reps := 4 }).org.reps) := by decide

-- The tree and the links.

/-- TreeRoleAndTimers. -/
theorem met_TreeRoleAndTimers :
    (let s := leaf.modElect fun e => { e with hold := false, best := some { claim with hwid := 0 }, improvedAt := leaf.tick - 200000 }
     s.alive = true ∧ s.candidate = true ∧ s.sun.isRoot = false ∧ s.elect.parent = none ∧ s.elect.root = noNode ∧
       tickLe (s.elect.improvedAt + 200000) s.tick = true ∧ s.elect.best = some { claim with hwid := 0 } ∧ ({ claim with hwid := 0 } : ElectMsg).hwid = s.gate.hwid) ∧
      (let s := leaf.modElect fun e => { e with hold := false, best := some { claim with hwid := 0 }, root := 4, withdrawn := true }
       s.candidate = true ∧ s.sun.isRoot = false ∧ s.elect.parent = none ∧ s.elect.root ≠ noNode ∧ s.elect.handed = false ∧ s.elect.withdrawn = true ∧
         tickLe (s.elect.improvedAt + 200000) s.tick = true ∧ s.standing = [] ∧
         ((inPart { part with member := true } leaf).modElect fun _ => s.elect).standing ≠ [] ∧ (s.modElect fun e => { e with handed := true }).elect.handed = true) ∧
      (let s := (leaf.modSun fun u => { u with isStandby := true }).modElect fun e => { e with rootLostAt := some (leaf.tick - 2000), parent := some 7 }
       s.elect.rootLostAt = some (leaf.tick - 2000) ∧ s.sun.isStandby = true ∧ tickLe (leaf.tick - 2000 + 2000) s.tick = true ∧ s.elect.mirrorDone = false ∧
         s.elect.parent ≠ none ∧ (s.modElect fun e => { e with mirrorDone := true }).elect.mirrorDone = true) ∧
      (let s := leaf.modSun fun u => { u with isRoot := true }
       s.sun.isRoot = true ∧ s.elect.standbyPort = none ∧ tickLe (s.fab.noStandbyAt + 60000000000) s.tick = true ∧ s.standbyChoice = none) ∧
      (let s := linked.modElect fun e => { e with firstUp := some (leaf.tick - 2000000) }
       s.alive = true ∧ s.elect.hold = true ∧ s.elect.firstUp = some (leaf.tick - 2000000) ∧ tickLe (leaf.tick - 2000000 + 2000000) s.tick = true ∧ s.upPorts ≠ []) ∧
      tickLe (leaf.elect.offerAt + 1000000) leaf.tick = true ∧
      (let t : TreeMsg := { root := 4, hops := 1, node := 4, offer := true, altOffer := false, utcOfs := 0, utcV := false }
       let s := ((linked.modPort 7 fun q => { q with tree := some t, offeringSince := some 0, qualSince := some 0 }).modPort 0 fun _ =>
         { upPort with tree := some { t with hops := 2 } }).modElect fun e => { e with parent := some 0, root := 4 }
       s.hasPort 7 = true ∧ s.offers 7 = some t ∧ s.elect.parent = some 0 ∧ (7 : PortNo) ≠ 0 ∧ t.hops.toNat < ((s.port 0).tree.map (·.hops.toNat)).getD 255 ∧
         s.tenSeconds (s.port 7).offeringSince = true ∧ s.tenSeconds (s.port 7).qualSince = true) ∧
      linked.hasPort 7 = true ∧ (linked.port 7).partnerNode = noNode ∧
      (let r : NodeRow := { hwid := 8, node := 8, live := true, seenAt := leaf.tick - 20000000000 }
       let s := (leaf.modSun fun u => { u with isRoot := true }).modFab fun b => { b with nodes := [r] }
       s.nodeRow r.hwid = some r ∧ s.sun.isRoot = true ∧ r.live = true ∧ tickLe (r.seenAt + 20000000000) s.tick = true) := by decide

/-- A port in the state `st`, entered `ago` ns ago. -/
def portIn (p : PortNo) (st : LinkSt) (ago : Nat := 0) : State := leaf.modPort p fun _ => { en := true, st := st, since := leaf.tick - BitVec.ofNat 64 ago }

/-- The flits of a message, and an ACK, with the CRC that the verdict names. -/
def electFlit (v : CrcVerdict) (seq : BitVec 5 := 0) : Flit := sealFlit v (flitHead (.elect claim) seq 0)
def ackFlit (v : CrcVerdict) : Flit := sealFlit v (acknakHead 0 false)

/-- The blocks of eight good flits. -/
def goodBlocks : List (BitVec 64) := (List.replicate 8 (ackFlit .good)).flatMap fun f => (List.range 4).map fun k => f.extractLsb' (64 * k) 64

/-- LinkStates: each timer at its limit, the last port, 64 valid headers and eight good flits on phases 0 and 3. -/
theorem met_LinkStates :
    leaf.hasPort 7 = true ∧ leaf.hasPort 8 = false ∧ hub.hasPort 63 = true ∧ ((portIn 7 .train).port 7).st = .train ∧ ((portIn 7 .align).port 7).st = .align ∧
      headersLock 0x55555555555555555555555555555555 = true ∧ headersLock 0x15555555555555555555555555555555 = false ∧
      flitPhase goodBlocks = some 0 ∧ flitPhase ([0, 0, 0] ++ goodBlocks) = some 3 ∧
      (let s := portIn 7 .negotiate 100000
       ((s.port 7).st.limit = some 100000) ∧ tickLe ((s.port 7).since + BitVec.ofNat 64 100000) s.tick = true) ∧
      (let s := portIn 7 .lost 10000
       (s.port 7).st = .lost ∧ tickLe ((s.port 7).since + 10000) s.tick = true) ∧
      (let s := leaf.modPort 7 fun _ => { en := true, st := .downHeld, lastNodeDown := leaf.tick - 512 }
       (s.port 7).st = .downHeld ∧ tickLe ((s.port 7).lastNodeDown + 512) s.tick = true) ∧
      ((portIn 7 .calibrate).port 7).st = .calibrate ∧ ((portIn 7 .calibrate).port 7).partnerCal = false ∧ (linked.port 7).st = .up ∧
      tickLe ((linked.port 7).calAt + 1000000000) linked.tick = true ∧ ((portIn 7 .train).port 7).st ≠ .up ∧
      (let s := portIn 7 .disabled
       (s.port 7).en = true ∧ (s.port 7).st = .disabled ∧ s.mute = false) := by decide +kernel

/-- PortLoss: BEATs 512 ns and 1,024 ns old, 15 and 16 failed flits of 64, eight replays, 16 µs without an ACK. -/
theorem met_PortLoss :
    (linked.port 7).st = .up ∧ linked.mute = false ∧ linked.alive = true ∧ linked.hasPort 7 = true ∧ (linked.port 7).rev ≠ 4 ∧
      (let s := leaf.modPort 7 fun _ => { upPort with lastBeat := some (htOf (leaf.tick - 512)) }
       (s.port 7).st = .up ∧ (s.port 7).lastBeat = some (htOf (leaf.tick - 512)) ∧
         htLe (htAdd (htOf (leaf.tick - 512)) (if (s.port 7).rev = 4 then 1024 else 512)) s.stamp = true) ∧
      (let s := leaf.modPort 7 fun _ => { upPort 4 with lastBeat := some (htOf (leaf.tick - 1024)) }
       htLe (htAdd (htOf (leaf.tick - 1024)) (if (s.port 7).rev = 4 then 1024 else 512)) s.stamp = true) ∧
      lockFails 0x800000000000FFFE = true ∧ lockFails 0xFFFE = false ∧
      (let s := leaf.modPort 7 fun _ => { upPort with replay := [⟨0, .elect claim, false⟩], sameStart := 8, ackAt := leaf.tick }
       (s.port 7).replay ≠ [] ∧ 8 ≤ (s.port 7).sameStart) ∧
      (let s := leaf.modPort 7 fun _ => { upPort with replay := [⟨0, .elect claim, false⟩], ackAt := leaf.tick - 16000 }
       (s.port 7).replay ≠ [] ∧ tickLe ((s.port 7).ackAt + 16000) s.tick = true) ∧
      (let s := linked.modFc fun f => { f with safe := true }
       (s.port 7).st = .up ∧ s.mute = true) := by decide

/-- Beats: on the tick, 10 ns and 11 ns late, once served; an arrival at the limit and after it. -/
theorem met_Beats :
    linked.alive = true ∧ linked.hasPort 7 = true ∧ (linked.port 7).st = .up ∧ linked.beatDue 7 = some linked.tick ∧
      (linked.modSun fun u => { u with now := htOf (leaf.tick + 10) }).beatDue 7 = some linked.tick ∧
      (linked.modSun fun u => { u with now := htOf (leaf.tick + 11) }).beatDue 7 = none ∧
      (linked.modPort 7 fun q => { q with beatAt := some leaf.tick }).beatDue 7 = none ∧
      linked.mute = false ∧ (linked.port 7).exiting = 0 ∧ (linked.modPw fun p => { p with pfail := true }).pw.pfail = true ∧ (linked.port 7).rev ≠ 4 ∧
      linked.pw.pfail = false ∧ (linked.modFc fun f => { f with safe := true }).fc.safe = true ∧ (linked.modFc fun f => { f with safe := true }).mute = true ∧
      ((linked.modPort 7 fun q => { q with exiting := 2 }).port 7).exiting = 2 ∧ ((linked.modPort 7 fun q => { q with exiting := 3 }).port 7).exiting = 3 ∧
      (let q := linked.port 7
       q.lastBeat = some leaf.stamp ∧ htLt (q.beatLimit leaf.stamp) (leaf.stamp + htOf 512 - q.latRx.setWidth 80) = false ∧
         htLt (q.beatLimit leaf.stamp) (leaf.stamp + htOf 512 + 1 - q.latRx.setWidth 80) = true) := by decide

/-- A TRAIN that offers revisions `lo` to `hi`. -/
def train (lo hi : Byte) : TrainMsg :=
  { revMax := hi, revMin := lo, hwid := 9, node := 2, port := 0, asym := 0, negDone := true, calDone := false, isHub := false, rev := 5 }

/-- Training: a revision in both ranges, and none. -/
theorem met_Training :
    (portIn 7 .negotiate).alive = true ∧ (portIn 7 .negotiate).hasPort 7 = true ∧ (portIn 7 .negotiate).mute = false ∧
      ((portIn 7 .negotiate).port 7).st = .negotiate ∧ ((portIn 7 .revFail).port 7).st = .revFail ∧
      chooseRev ((portIn 7 .negotiate).port 7).ownMax.toNat 4 (train 6 7).revMax.toNat (train 6 7).revMin.toNat = none ∧
      chooseRev ((portIn 7 .negotiate).port 7).ownMax.toNat 4 (train 4 5).revMax.toNat (train 4 5).revMin.toNat = some 5 ∧
      (train 4 5).negDone = true ∧ (train 4 5).rev.toNat = 5 ∧ ((portIn 7 .negotiate).modPort 7 fun q => { q with negDone := true }).mute = false ∧
      chooseRev 5 4 4 4 = some 4 ∧ chooseRev 5 5 4 4 = none := by decide

/-- Retry: the oldest message a microsecond old, flits in error and stomped, in turn and out of turn, an unknown type. -/
theorem met_Retry :
    linked.portUp 7 = true ∧
      (let s := linked.modPort 7 fun q => { q with replay := [⟨31, .elect claim, false⟩], ackAt := leaf.tick - 1000, replayAt := leaf.tick - 1000 }
       s.portUp 7 = true ∧ (s.port 7).replay = ⟨31, .elect claim, false⟩ :: [] ∧ tickLe ((s.port 7).ackAt + 1000) s.tick = true ∧
         tickLe ((s.port 7).replayAt + 1000) s.tick = true) ∧
      crcVerdict (ackFlit .bad) = .bad ∧ flitSeqd (ackFlit .bad) = false ∧ crcVerdict (electFlit .bad) = .bad ∧ flitSeqd (electFlit .bad) = true ∧
      (linked.port 7).expects (electFlit .bad) = true ∧ (linked.port 7).expects (electFlit .bad 1) = false ∧ crcVerdict (electFlit .bad 1) = .bad ∧
      crcVerdict (electFlit .good 1) ≠ .bad ∧ flitSeqd (electFlit .good 1) = true ∧ (linked.port 7).expects (electFlit .good 1) = false ∧
      crcVerdict (electFlit .stomped) = .stomped ∧ (linked.port 7).expects (electFlit .stomped) = true ∧ crcVerdict (electFlit .stomped 1) = .stomped ∧
      (linked.port 7).expects (electFlit .stomped 1) = false ∧ flitSeqd (electFlit .stomped 1) = true ∧ knownType 0x18 = false ∧ knownType 0x17 = true := by
  decide +kernel

-- The Trellis and the Bandstand.

/-- A down word of CODE 4 and an effective cycle `c`. -/
def word (c : BitVec 12) (code : BitVec 4 := 4) : BitVec 20 := c ++ (3 : BitVec 4) ++ code

/-- WordsAndLaunchesSampled: a word due now, a send that makes its cycle and one that does not, and each way in which a launch ends. -/
theorem met_WordsAndLaunchesSampled :
    (let a : Act := { ix := 0, t := htOf (leaf.tick + 90), code := 4, arg := 0 }
     let s := seated.modTr fun r => { r with acts := [a] }
     s.alive = true ∧ s.bandRuns = true ∧ s.tr.acts.find? (fun x => x.ix == a.ix) = some a ∧ s.isDue (s.sampleTick a.t) = true ∧
       s.wordTurn (s.sampleTick a.t) a.code = true ∧ s.tr.seat = .seated ∧
       (s.modTr fun r => { r with seat := .failed }).tr.seat ≠ .seated ∧ (s.modTr fun r => { r with seat := .failed }).bandRuns = true) ∧
      (seated.tr.nextSlot (seated.tr.hcc.toNat + 3) + (13 + seated.tr.lSeat.toNat + seated.tr.hPa.toNat + seated.tr.hAs.toNat) ≤
        seated.tr.hcc.toNat + 1 + seated.tr.k.toNat) ∧
      (let r := { seated.tr with k := 24 }
       r.hcc.toNat + 1 + r.k.toNat < r.nextSlot (r.hcc.toNat + 3) + (13 + r.lSeat.toNat + r.hPa.toNat + r.hAs.toNat)) ∧
      (let e := entryOf .launch
       let s := holding e
       s.bandRuns = true ∧ s.entry .launch e.seq = some e ∧ s.launchTurn e = true ∧ s.slotOf e.ptag = some false ∧ (s.ctx false).st = .active ∧
         s.tr.seat = .seated ∧ s.swapBy e.ptag (dueTick e.t) = false ∧ (s.ctx false).cfgA.sigHost ≠ s.pins.latSig ∧
         (holding e seated).launchTurn e = true ∧ (holding e seated).slotOf e.ptag = none ∧
         (s.modTr fun r => { r with seat := .unseated }).tr.seat = .unseated ∧ (s.modTr fun r => { r with seat := .unseated }).launchTurn e = true) ∧
      (let e := entryOf .launch
       let s := (holding e).modCtx false fun c => { c with cfgA := { c.cfgA with sigHost := 0, sigBlock := (holding e).sigBlock (holding e).tr.setA } }
       s.bandRuns = true ∧ s.entry .launch e.seq = some e ∧ s.launchTurn e = true ∧ s.slotOf e.ptag = some false ∧ (s.ctx false).st = .active ∧
         s.tr.seat = .seated ∧ s.swapBy e.ptag (dueTick e.t) = false ∧ (s.ctx false).cfgA.sigHost = s.pins.latSig ∧
         (s.ctx false).cfgA.sigBlock = s.sigBlock s.tr.setA ∧ e.env = false ∧
         (State.sendWord ((s.modBand fun b => { b with sigHost := s.pins.latSig }).freeEntry e.seq)
           { ix := 0, t := e.t, code := wFire, arg := e.arg.setWidth 4, ptag := e.ptag, desc := e.desc }).2 = true) := by decide +kernel

/-- Slot 0 at the last cell: the first cycle of its latest word, and the cell's count where the word is decoded. -/
def slotStart0 : BitVec 64 := seated.tr.slotStart (seated.unit 0 cell) 0 seated.tr.hcc
def decoded : BitVec 12 := (seated.unit 0 cell).count (slotStart0 + 5)

/-- WordsReceived: cycles 2,047 and 2,048 ahead, the last CODE and the first beyond, each pair of copies. -/
theorem met_WordsReceived :
    seated.unitUp 0 cell = true ∧ seated.tr.regionSeated cell.region = true ∧ seated.unitUp 0 { cell with region := 2 } = false ∧
      (let u := seated.unit 0 cell
       let w := word (decoded + 2047)
       wordGood (trellisWord w) = true ∧ wordContent (trellisWord w) = w ∧ (u.effective slotStart0 true w).1 = 2047 ∧ 1 ≤ (w.extractLsb' 0 4).toNat ∧
         (w.extractLsb' 0 4).toNat ≤ 9 ∧ w.extractLsb' 0 4 ≠ wSeat ∧ w.extractLsb' 0 4 ≠ wCheck ∧ w.extractLsb' 0 4 ≠ wSwap ∧
         (u.effective slotStart0 true (word (decoded + 2048) 1)).1 = 2048 ∧ (u.effective slotStart0 true (word (decoded + 2047) wSwap)).1 < 2048 ∧
         wordGood (trellisWord (word (decoded + 2047) wSwap)) = true ∧ wordGood (trellisWord (word (decoded + 2048) 1)) = true) ∧
      9 < ((word 0 10).extractLsb' 0 4).toNat ∧ wordGood (trellisWord (word 0 10)) = true ∧
      (let own : BitVec 12 := (seated.unit 0 cell).count slotStart0 - BitVec.ofNat 12 (seated.tr.frameOffset 0)
       let w := word own wCheck
       w.extractLsb' 0 4 = wCheck ∧ w.extractLsb' 8 12 = own ∧ (word (own + 1) wCheck).extractLsb' 8 12 ≠ own ∧ wordGood (trellisWord w) = true) ∧
      (let x := trellisWord (word 0 1)
       let bad := x ^^^ 0x0100000
       wordGood x = true ∧ wordGood bad = false ∧ wordStomped bad = false ∧ wordGood (stompWord x) = false ∧ wordStomped (stompWord x) = true ∧
         wordGood (trellisWord (word 1 1)) = true ∧ x ≠ trellisWord (word 1 1) ∧ (wordContent x).extractLsb' 0 4 = 1) ∧
      wordGood (trellisWord 0) = true ∧ (wordContent (trellisWord 0)).extractLsb' 0 4 = 0 ∧ seated.tr.regionSeated 1 = true := by decide +kernel

/-- The words of a packet. -/
def packet (kind : Nat) (body : List (BitVec 20) := [0]) : List (BitVec 28) := (pktHeader kind body.length 1 :: body).map trellisWord

/-- The same with an error in its first word, and stomped. -/
def broken (ws : List (BitVec 28)) : List (BitVec 28) := (ws.headD 0 ^^^ 0x0100000) :: ws.tail

/-- PacketsReceived. -/
theorem met_PacketsReceived :
    seated.unitUp 1 cell = true ∧ seated.unitUp 0 cell = true ∧ seated.tr.regionSeated cell.region = true ∧ seated.tr.regionSeated 1 = true ∧
      (broken (packet 1)).all wordGood = false ∧ ((broken (packet 1)).all fun w => wordGood w || wordStomped w) = false ∧
      ((packet 1).map stompWord).all wordGood = false ∧ (((packet 1).map stompWord).all fun w => wordGood w || wordStomped w) = true ∧
      (∀ kind < 16, (packet kind).all wordGood = true ∧ pktKind (packetOf false (packet kind)) = kind ∧ pktKind (packetOf true (packet kind)) = kind) ∧
      (let ws := packet 1 [addrWord (unitAddr 1 cell), 0, 5, 0]
       ws.all wordGood = true ∧ pktKind (packetOf true ws) = 1 ∧ pktLevel (packetOf true ws) = 1 ∧ pktBcast (packetOf true ws) = false ∧
         unitAddr 1 (wordAddr (pktWord (packetOf true ws) 0)) = unitAddr 1 cell) ∧
      (seated.credited 0 cell none false 0).cellIn cell ((15 : BitVec 20).extractLsb' 0 4) = true := by decide +kernel

/-- CellSide: channel 15, each state of its arrivals, a cell outside the channel, contributions of type 2, of SUMX and empty. -/
theorem met_CellSide :
    seated.unitUp 0 cell = true ∧ seated.tr.regionSeated cell.region = true ∧ seated.cellIn cell 15 = true ∧ ((seated.unit 0 cell).chan 15).cur = false ∧
      (let s := seated.modUnit 0 cell fun u => { u with chans := setChan { u.chan 15 with cur := true } u.chans }
       s.cellIn cell 15 = true ∧ ((s.unit 0 cell).chan 15).cur = true ∧ ((s.unit 0 cell).chan 15).next = false) ∧
      (let s := seated.modUnit 0 cell fun u => { u with chans := setChan { u.chan 15 with cur := true, next := true } u.chans }
       s.cellIn cell 15 = true ∧ ((s.unit 0 cell).chan 15).cur = true ∧ ((s.unit 0 cell).chan 15).next = true) ∧
      (let s := seated.modUnit 0 cell fun u => { u with setA := { u.setA with rel := 0x7FFF } }
       s.unitUp 0 cell = true ∧ s.cellIn cell 15 = false) ∧
      (let ctl : BitVec 24 := 0x00010F
       ctl.extractLsb' 0 4 = 15 ∧ ctl.getLsbD 14 = false ∧ ctl.getLsbD 15 = false ∧ ctl.extractLsb' 7 4 ≠ (1 : BitVec 4)) ∧
      (let ctl : BitVec 24 := 0x00088F
       ctl.extractLsb' 0 4 = 15 ∧ ctl.getLsbD 14 = false ∧ ctl.getLsbD 15 = false ∧ ctl.extractLsb' 7 4 = (1 : BitVec 4) ∧
         (decodeFmt (ctl.extractLsb' 11 3) 0x40490FDB).isSome = true) ∧
      (let ctl : BitVec 24 := 0x00C00F
       ctl.extractLsb' 0 4 = 15 ∧ ctl.getLsbD 14 = true ∧ ctl.getLsbD 15 = true) ∧
      (let s := seated.modUnit 0 cell fun u => { u with due := [{ hc := 5000, code := 3, arg := 0 }] }
       (s.unit 0 cell).due = [{ hc := 5000, code := 3, arg := 0 }] ∧ (5000 : BitVec 64).toNat ≤ s.tr.hcc.toNat) := by decide +kernel

/-- TrellisFaultsAndUpkeep: a queue of one report, the host clock at both ends of its window, an access of 10 µs. -/
theorem met_TrellisFaultsAndUpkeep :
    (let s := seated.modUnit 1 cell fun u => { u with first := 1, queued := [(1, 0)] }
     (1 : Level) ≠ 3 ∧ (s.unit 1 cell).queued.length < 2 ∧ (s.unit 1 cell).first ≠ 0) ∧
      seated.unitUp 2 cell = true ∧ seated.tr.seat = .seated ∧ seated.windowEnds = true ∧
      (let c := fun (n : Nat) => (seated.modTr fun r => { r with winCount := n }).tr
       (c 900).countOk (c 900).winCount = false ∧ (c 901).countOk (c 901).winCount = true ∧ (c 1025).countOk (c 1025).winCount = true ∧
         (c 1026).countOk (c 1026).winCount = false) ∧
      (leaf.tr.seat ≠ .seated ∧ (seated.modTr fun r => { r with seatedAt := leaf.tick - 1024 }).windowEnds = false) ∧
      ((seated.modUnit 2 cell fun u => { u with queued := [(faultCode 2 2 7 2, 5)] }).unit 2 cell).queued = [(faultCode 2 2 7 2, 5)] ∧
      seated.unitUp 0 cell = true ∧ seated.tr.checkAt = 0 ∧ (904 : BitVec 64).toNat + 4096 ≤ seated.tr.hcc.toNat ∧
      (let x : Access := { write := false, level := 0, addr := cell, owed := 1, sentAt := leaf.tick - 10000, tries := 2 }
       let s := seated.modTr fun r => { r with accesses := [x] }
       s.tr.accesses = [x] ∧ x.level = 0 ∧ x.addr = cell ∧ tickLe (x.sentAt + 10000) s.tick = true ∧ x.tries < 3 ∧ { x with tries := 3 }.tries = 3 ∧
         x.write = false ∧ { x with write := true }.write = true) ∧
      seated.tr.regionSeated cell.region = true ∧ tickLe ((seated.unit 0 cell).telemAt + 1000000) seated.tick = true ∧
      tickLe ((seated.unit 3 cell).telemAt + 1000000) seated.tick = true ∧ seated.tr.upHold = 0 := by decide +kernel

/-- What a seating measures of region `r`, with round trips of `t` cycles, and of both regions. -/
def region (r : BitVec 7) (t : Byte := 18) (lock : Bool := true) : RegionMeas :=
  { region := r, lock := lock, trips := List.replicate 8 t, phase := 0, arbors := [(1, [1])], upHold := 2, checks := [(0, 0)] }
def meas : SeatMeas := { regions := [region 0, region 1], half0 := 512, half1 := 512 }

/-- TrellisControl: a seating that passes every check, one that fails the second, a reseat that fits and one a cycle too long. -/
theorem met_TrellisControl :
    (let s := seated.modTr fun r => { r with seat := .seating }
     s.alive = true ∧ s.isLeaf = true ∧ s.pdOn 7 = true ∧ s.tr.seat = .seating ∧ s.tr.reseating = false ∧ (s.tr.measured meas).seatCheck meas = none ∧
       (s.tr.measured { meas with regions := [region 0, region 1 18 false] }).seatCheck { meas with regions := [region 0, region 1 18 false] } = some (2, 1)) ∧
      (let r' : Trellis := { seated.tr with reseatRegion := 1, seat := .seating, reseating := true }
       r' = { r' with cyc1024 := satNat 16 (seatCount meas) } ∧ r'.reseating = true ∧ r'.seatCheck { meas with regions := [region 1] } = none ∧
         r'.fits { meas with regions := [region 1] } = true ∧ r'.seatCheck { meas with regions := [region 1 19] } = none ∧
         r'.fits { meas with regions := [region 1 19] } = false) ∧
      seated.writable 7 = true ∧ seated.isLeaf = true ∧ seated.activeSlot = none ∧ active.activeSlot ≠ none ∧ active.writable 7 = true ∧ seated.tr.en = true ∧
      seated.tr.regions ≠ 0 ∧ leaf.tr.en = false ∧ leaf.tr.regions = 0 ∧
      (let s := seated.modTr fun r => { r with switchAt := some (5000, true) }
       s.tr.switchAt = some (5000, true) ∧ (5000 : BitVec 64).toNat ≤ s.tr.hcc.toNat) ∧
      (let s := seated.modTr fun r => { r with switchAt := some (5001, false) }
       s.tr.switchAt = some (5001, false) ∧ s.tr.hcc.toNat < (5001 : BitVec 64).toNat) ∧
      (let u : TUnit := { level := 0, addr := cell, swapAt := some 5000 }
       seated.tr.unitSwitch u = some 5000 ∧ (5000 : BitVec 64).toNat ≤ seated.tr.hcc.toNat) := by decide +kernel

/-- BandstandOutputs: the last opening of a schedule, its closing, levels 14 and 1, lending in both cases. -/
theorem met_BandstandOutputs :
    (let c : Sched := { t0 := leaf.stamp - htOf 1000, period := 1000, length := 100, count := 2, mask := 1, en := true }
     let s := active.modBand fun b => { b with schedA := b.schedA.set 15 c, opened := b.opened.set 15 1 }
     s.bandRuns = true ∧ (s.sched 15).has 1 = true ∧ (s.sched 15).has 2 = false ∧ s.band.opened.getD 15 0 = 1 ∧ s.band.openW.getLsbD 15 = false ∧
       s.edgeTurn ((s.sched 15).openTick (s.band.opened.getD 15 0)) (actionRank .windowOpen) 15 = true) ∧
      (let c : Sched := { t0 := leaf.stamp - htOf 100, period := 1000, length := 100, count := 2, mask := 1, en := true }
       let s := active.modBand fun b => { b with schedA := b.schedA.set 15 c, opened := b.opened.set 15 1, openW := 0x8000 }
       s.band.openW.getLsbD 15 = true ∧ s.edgeTurn ((s.sched 15).closeTick (s.band.opened.getD 15 0 - 1)) (actionRank .windowClose) 15 = true) ∧
      active.fc.safe = false ∧ (seated.modPins fun p => { p with mcPresent := 0x8000 }).pins.mcPresent.getLsbD 15 = true ∧ seated.activeSlot = none ∧
      (let s := seated.modBand fun b => { b with force := true, forceLevel := 15, level := 14, lastChange := leaf.tick - 32 }
       s.bandRuns = true ∧ s.loadTarget = s.band.level.toNat + 1 ∧ s.band.level.toNat < 15 ∧ tickLe (s.band.lastChange + 32) s.tick = true) ∧
      (let s := seated.modBand fun b => { b with force := true, forceLevel := 0, level := 1, lastChange := leaf.tick - 32 }
       s.loadTarget < s.band.level.toNat ∧ tickLe (s.band.lastChange + 32) s.tick = true) ∧
      seated.loadTarget = seated.band.level.toNat ∧
      (let s := seated.modBand fun b => { b with lendEn := true, lendIdle := true }
       s.lendRise = some false ∧ ((s.modPins fun p => { p with lend := true }).lendHolds = true)) ∧
      (let s := active.modBand fun b => { b with lendEn := true, envA := { en := true, lRun := 4, lFloor := 1, rUp := 1, rDn := 1 }, level := 1, descent := some 0 }
       s.lendRise = some true) ∧
      (let s := seated.modPins fun p => { p with lend := true }
       s.pins.lend = true ∧ s.lendHolds = false) ∧ seated.pins.lend = false ∧ (14 : BitVec 4) ≠ 15 := by decide

/-- TableEntriesAct. -/
theorem met_TableEntriesAct :
    (holding (entryOf .loadStep)).dueEntry .loadStep 0xFFFFFFFF = some (entryOf .loadStep) ∧
      (holding (entryOf .signal)).dueEntry .signal 0xFFFFFFFF = some (entryOf .signal) ∧
      (holding (entryOf .signal)).slotOf tag = some false ∧ ((holding (entryOf .signal)).ctx false).st = .active ∧
      (((holding (entryOf .signal)).ctx false).rels.any fun r => (holding (entryOf .signal)).isDue (dueTick r.t)) = false ∧
      (holding (entryOf .signal) seated).dueEntry .signal 0xFFFFFFFF = some (entryOf .signal) ∧ (holding (entryOf .signal) seated).slotOf tag = none ∧
      (holding (entryOf .capOpen)).dueEntry .capOpen 0xFFFFFFFF = some (entryOf .capOpen) ∧
      (holding (entryOf .capClose)).dueEntry .capClose 0xFFFFFFFF = some (entryOf .capClose) ∧
      (holding (entryOf .park)).dueEntry .park 0xFFFFFFFF = some (entryOf .park) ∧ ((holding (entryOf .park)).ctx false).rels = [] ∧ (entryOf .park).desc = none ∧
      (let p : Part := { part := 1, ptag := tag, st := .open_, swap := some { t := leaf.stamp, id := 1 } }
       let s := (holding (entryOf .swap)).modFab fun b => { b with parts := [p] }
       s.bandRuns = true ∧ s.part tag = some p ∧ p.swap = some { t := leaf.stamp, id := 1 } ∧
         s.band.table.find? (fun x => x.action == .swap && x.ptag == tag) = some (entryOf .swap) ∧
         s.edgeTurn (dueTick (entryOf .swap).t) (actionRank .swap) (entryOf .swap).seq.toNat = true) := by decide

/-- An armed object of `tag` whose deadline has just passed, or is now. -/
def lateObj (t : ObjType) (d : HT80 := leaf.stamp - 1) : State := active.setObj false 4095 { type := t, armed := true, deadline := d, value := 1 }

/-- StepAndObjectTimers, the step. -/
theorem met_StepTimers :
    stepping.bandRuns = true ∧ stepping.slotOf tag = some false ∧ (stepping.ctx false).arm arm.bid = some arm ∧ (stepping.ctx false).rels = [rel] ∧
      rel.bid = arm.bid ∧ stepping.isDue (dueTick rel.t) = true :=
  ⟨by decide, by decide, rfl, rfl, by decide, by decide⟩

theorem met_StepOverrun :
    (stepping.ctx false).st = .active ∧ (stepping.ctx false).tStart = some (leaf.tick - 1000) ∧ (stepping.ctx false).cfgA.limit ≠ 0 ∧
      (stepping.ctx false).tArr = none ∧ (stepping.ctx false).overrun = false ∧
      stepping.isDue (leaf.tick - 1000 + (stepping.ctx false).cfgA.limit.setWidth 64) = true ∧ stepping.holdNow = false ∧
      (stepping.ctx false).stepArm = some arm ∧ arm.chanEn = false ∧ (active.ctx false).cfgA.limit = 0 ∧
      (let o : Overrun := { seq := some 0, ptag := tag, region := 1, stamp := leaf.stamp }
       let x : Access := { write := false, level := 2, addr := cell, owed := 1, sentAt := leaf.tick, ix := ixOutstanding }
       let s := active.modBand fun b => { b with overrun := some o }
       let t := s.modTr fun r => { r with accesses := [x] }
       s.band.overrun = some o ∧ o.seq = some 0 ∧ s.tr.accesses.any Access.asks = false ∧ t.band.overrun = some o ∧ t.tr.accesses.any Access.asks = true ∧
         tickLe (htInt o.stamp + 50000) t.tick = false ∧
         tickLe (htInt o.stamp + 50000) (t.modSun fun u => { u with now := htOf (leaf.tick + 50000) }).tick = true) := by decide

/-- StepAndObjectTimers, the objects: the last object, the last barrier. -/
theorem met_ObjectTimers :
    active.alive = true ∧ active.isLeaf = true ∧ (lateObj .counter).activeSlot = some false ∧
      (let o := (lateObj .counter).obj false 4095
       o.type = .counter ∧ o.armed = true ∧ o.deadline ≠ 0 ∧ htLt o.deadline (lateObj .counter).stamp = true) ∧
      (let o := (lateObj .timer).obj false 4095
       o.type = .timer ∧ o.armed = true ∧ o.deadline ≠ 0 ∧ htLt o.deadline (lateObj .timer).stamp = true) ∧
      htLt ((lateObj .counter leaf.stamp).obj false 4095).deadline (lateObj .counter leaf.stamp).stamp = false ∧
      (let s := active.setObj false 255 { type := .barrier, armed := true, deadline := leaf.stamp - 1 }
       (s.obj false 255).type = .barrier ∧ (s.obj false 255).deadline ≠ 0 ∧ htLt (s.obj false 255).deadline s.stamp = true) := by decide

-- Partitions and messages.

/-- PartitionTimers: each time at its tick. -/
theorem met_PartitionTimers :
    (let p := { part with st := .opening, committed := true }
     (inPart p).alive = true ∧ (inPart p).partNo 1 = some p ∧ p.st = .opening ∧ p.committed = true ∧ (inPart p).isDue (dueTick p.tOpen) = true ∧
       (inPart p).slotOf p.ptag = none ∧ (inPart p active).slotOf p.ptag = some false) ∧
      (let p := { part with st := .opening, tOpen := leaf.stamp + htOf 200000 }
       let s := (inPart p).modSun fun u => { u with isRoot := true }
       s.partNo 1 = some p ∧ p.committed = false ∧ s.sun.isRoot = true ∧ s.isDue (dueTick (htSub p.tOpen 200000)) = true) ∧
      (let p := { part with tClose := some leaf.stamp }
       (inPart p).partNo 1 = some p ∧ p.tClose = some leaf.stamp ∧ p.ended = false ∧ (inPart p).isDue (dueTick leaf.stamp) = true) ∧
      (let p := { part with st := .quiesce, tEvent := leaf.stamp + 1 }
       p.st = .quiesce ∧ (inPart p).isDue (dueTick p.tEvent) = false) ∧
      (let p := { part with st := .quiesce }
       (inPart p).partNo 1 = some p ∧ p.st = .quiesce ∧ (inPart p).isDue (dueTick p.tEvent) = true ∧ (inPart p).elect.standbyPort = none ∧
         (inPart p).ctx0.ptag ≠ p.ptag ∧ (inPart p).ctx1.ptag ≠ p.ptag) := by decide +kernel

/-- A PART message of `tag`. -/
def partMsg : PartMsg := { ptag := tag, bidsM1 := 0, node := 2, feat := 0, t := leaf.stamp, aux := 0x8502, dmax := 0 }

/-- FabricTimers. -/
theorem met_FabricTimers :
    (let d : Deferred := { msg := partMsg, since := leaf.tick - 1000000000 }
     let s := (leaf.modSun fun u => { u with isRoot := true }).modFab fun b => { b with defer := [d] }
     s.alive = true ∧ s.fab.defer = [d] ∧ s.sun.isRoot = true ∧ tickLe (d.since + 1000000000) s.tick = true) ∧
      (let s := leaf.modFab fun b => { b with reopenAt := some leaf.tick }
       s.fab.reopenAt = some leaf.tick ∧ s.isDue leaf.tick = true) ∧
      (let s := leaf.modEng fun e => { e with taken := [opening] }
       s.isLeaf = true ∧ s.eng.taken = [opening] ∧ opening.fin = false ∧ opening.opcode = 0x07 ∧ opening.bound = false ∧
         tickLe (opening.takenAt + 2000000000) s.tick = true) ∧
      (let s := leaf.modCtx true fun c => { c with clearing := true }
       (s.ctx true).clearing = true ∧ (s.ctx true).dumpBusy = false) ∧
      ((leaf.modCtx true fun c => { c with dumpBusy := true }).ctx true).dumpBusy = true ∧
      (let s := (seated.modCtx true fun c => { c with st := .parked, ptag := tag }).modEng fun e => { e with taken := [resuming] }
       s.bandRuns = true ∧ s.eng.taken = [resuming] ∧ resuming.body.getLsbD 12 = true ∧ s.isDue (dueTick (field resuming.body 8 80)) = true ∧
         s.slotOf resuming.ptag = some true ∧ (s.ctx true).st = .parked ∧ s.activeSlot = none ∧ s.tr.seat = .seated ∧
         (s.modTr fun r => { r with seat := .failed }).tr.seat ≠ .seated) ∧
      (let j : DumpJob := { slot := none, ptag := tag, desc := none, todo := [], stalled := some (leaf.tick - 10000000) }
       let s := leaf.modEng fun e => { e with dump := some j }
       s.eng.dump = some j ∧ j.stalled = some (leaf.tick - 10000000) ∧ tickLe (leaf.tick - 10000000 + 10000000) s.tick = true) := by decide +kernel

/-- Messages of `tag`. -/
def launchMsg (up : Bool) : LaunchMsg := { ptag := tag, launchId := 1, t := leaf.stamp, origin := 2, up := up, leafOrig := true, chan := 0 }
def swapMsg (up : Bool) : SwapMsg := { ptag := tag, swapId := 1, t := leaf.stamp, origin := 2, up := up, leafOrig := true }
def parkMsg (up : Bool) : ParkMsg := { ptag := tag, bid := 3, round := 0, origin := 2, up := up, leafOrig := true }
def barMsg (round : BitVec 2) : BarMsg := { ptag := tag, bid := 3, round := round, t := leaf.stamp, types := 0, record := 0, red := true }
def signalMsg : SignalMsg := { ptag := tag, destRank := 0, obj := 0, op := 1, xlated := false, value := 1, srcRank := 0, destNode := 1 }

/-- MessageAccepted. -/
theorem met_MessageAccepted :
    leaf.alive = true ∧ leaf.hasPort 7 = true ∧ (leaf.port 7).st ≠ .up ∧ (linked.modFc fun f => { f with safe := true }).mute = true ∧
      linked.portUp 7 = true ∧ linked.takes tag = false ∧ (launchMsg true).ptag = tag ∧ (swapMsg true).ptag = tag ∧ (parkMsg true).ptag = tag ∧
      signalMsg.ptag = tag ∧ (barMsg 0).ptag = tag := by decide

/-- FabricCommandsRelayed: below the apex, at it, a member, and a link of revision 4. -/
theorem met_FabricCommandsRelayed :
    (inPart part).portUp 7 = true ∧ (inPart part).part part.ptag = some part ∧ (inPart part).takes part.ptag = true ∧ part.act.apex = false ∧ part.member = false ∧
      (launchMsg true).up = true ∧ (launchMsg false).up = false ∧ (swapMsg true).up = true ∧ (parkMsg true).up = true ∧ (parkMsg false).up = false ∧
      ((inPart part).port 7).rev ≠ 4 ∧
      (let p := { part with member := true, act := { part.act with apex := true } }
       (inPart p).part p.ptag = some p ∧ (inPart p).takes p.ptag = true ∧ p.act.apex = true ∧ p.member = true) ∧
      (let s := inPart part (leaf.modPort 7 fun _ => upPort 4)
       s.portUp 7 = true ∧ (s.port 7).rev = 4) := by decide +kernel

/-- BarrierMessages: a member, a Leaf that only relays, the current round and another. -/
theorem met_BarrierMessages :
    (inPart part).relayOnly part = true ∧
      (let p := { part with member := true }
       let s := inPart p
       s.portUp 7 = true ∧ s.part p.ptag = some p ∧ s.takes p.ptag = true ∧ (barMsg 0).ptag = p.ptag ∧ s.relayOnly p = false ∧
         p.slot (barMsg 0).bid = some { bid := 3 } ∧ p.act.apex = false ∧ p.act.upPort = some 7 ∧ (barMsg 0).round = ({ bid := 3 } : BarSlot).cur ∧
         (barMsg 1).round ≠ ({ bid := 3 } : BarSlot).cur ∧ signalMsg.ptag = p.ptag ∧ s.isLeaf = true) ∧
      (inPart part linkedHub).isLeaf = false ∧ (inPart part linkedHub).portUp 63 = true ∧ (inPart part linkedHub).takes tag = true := by decide +kernel

/-- TreeMessages. -/
theorem met_TreeMessages :
    (let s := linked.modElect fun e => { e with root := 4, parent := some 7, best := some { claim with qual := 0x21 } }
     let ann : AnnounceMsg := { hwid := 9, node := 2, ports := 8, prof := 1, root := 4, cport := 0xFF }
     let asg : AssignMsg := { hwid := 0, node := noNode, root := 4, route := 0 }
     let tree : TreeMsg := { root := 4, hops := 0xFF, node := 4, offer := false, altOffer := false, utcOfs := 0, utcV := false }
     s.portUp 7 = true ∧ s.sun.isRoot = false ∧ ann.cport = 0xFF ∧ s.elect.root ≠ noNode ∧ ({ asg with hwid := 1 } : AssignMsg).hwid ≠ s.gate.hwid ∧
       asg.hwid = s.gate.hwid ∧ asg.root = s.elect.root ∧ asg.node = s.elect.node ∧ tree.hops = 0xFF ∧ s.elect.rootLostAt = none ∧ s.elect.parent = some 7 ∧ ({ claim with hwid := 7, qual := 0x22 } : ElectMsg).hwid ≠ claim.hwid ∧
       (s.port 7).partnerHwid ≠ claim.hwid ∧ claim.rootClaim = true ∧ claim.standbyClaim = false ∧
       s.elect.best = some { claim with qual := 0x21 } ∧ claimBetter claim { claim with qual := 0x21 } = true ∧
       claimBetter { claim with hwid := 7, qual := 0x22 } { claim with qual := 0x21 } = false ∧
       ({ claim with standbyClaim := true } : ElectMsg).standbyClaim = true ∧ s.sun.isStandby = false ∧ (s.modElect fun e => { e with parent := none }).elect.parent ≠ some 7) := by
  decide

/-- PartMessages: from above and from below, an open copy on the tree, an ended partition. -/
theorem met_PartMessages :
    (inPart part).portUp 7 = true ∧ (inPart part).sun.isRoot = false ∧ (inPart part).part partMsg.ptag = some part ∧ (inPart part).fromAbove 7 partMsg.ptag = true ∧
      (inPart part).opener partMsg.ptag false = [] ∧ part.st = .open_ ∧ part.ended = false ∧
      (let s := inPart part (leaf.modPort 1 fun _ => upPort)
       s.portUp 1 = true ∧ s.fromAbove 1 partMsg.ptag = false ∧ part.act.children.contains 1 = true) ∧
      (let p := { part with ended := true }
       (inPart p).part partMsg.ptag = some p ∧ p.ended = true) ∧
      (let h : HealthMsg := { node := 2, port := 0, fault := 0, t := leaf.stamp, count := 0, kind := 0, index := 0 }
       h.port ≠ 0xFF ∧ ({ h with port := 0xFF } : HealthMsg).port = 0xFF) ∧
      (let c := { part with st := .free }
       let s := linked.modFab fun b => { b with parts := [part, c] }
       s.part partMsg.ptag = some part ∧ s.fromAbove 7 partMsg.ptag = true ∧ s.copyOf partMsg.ptag = some c ∧ (s.placePart c).onTree s.elect.hops = true) ∧
      (inPart part).copyOf partMsg.ptag = none ∧
      ((inPart part).modElect fun e => { e with parent := some 7 }).elect.parent = some 7 := by decide +kernel

-- Rings and descriptors.

/-- RingCommands: a poll that is due, a full ring and one entry more, a request more than 100 µs old. -/
theorem met_RingCommands :
    (let s := ready.modRing 0 fun r => { r with en := true, st := .running, lastPoll := leaf.tick - (leaf.pollNs 0).setWidth 64 }
     s.alive = true ∧ (s.ring 0).poll = true ∧ s.wantsPoll 0 = true ∧ tickLe ((s.ring 0).lastPoll + (s.pollNs 0).setWidth 64) s.tick = true ∧
       s.ringRuns 0 = true ∧ hostRing 0 = true ∧ (((16 : BitVec 512).extractLsb' 0 32 - (s.ring 0).cons).toNat ≤ (s.ring 0).size) ∧
       (s.ring 0).size < ((17 : BitVec 512).extractLsb' 0 32 - (s.ring 0).cons).toNat ∧ (s.ring 0).st ≠ .halted ∧ (s.ring 0).en = true ∧ s.fwReady = true) ∧
      (let s := leaf.modRing 5 fun r => { r with poll := false }
       (s.ring 5).poll = false ∧ hostRing 5 = true) ∧
      leaf.writable 4 = true ∧
      (let s := leaf.modRing 7 fun r => { r with st := .stopping }
       (s.ring 7).st = .stopping ∧ s.eng.ofRing 7 = []) ∧
      (leaf.ring 7).st ≠ .stopping ∧ 7 < leaf.eng.rings.length ∧ (7 : BitVec 3) ≠ 3 ∧
      (let q : HmReq := { kind := .prod 0, write := true, addr := 0, beats := 1 }
       let s := leaf.modEng fun e => { e with hm := [(63, q, leaf.tick - 100001)] }
       s.pins.hmRunning = true ∧ s.eng.hm.find? (fun x => x.1 == 63) = some (63, q, leaf.tick - 100001) ∧ s.isDue (leaf.tick - 100001 + 100001) = true) ∧
      leaf.eng.hmQ = [] ∧ (leaf.ring 7).st ≠ .halted ∧
      ready.fwReady = true ∧ ready.writable 4 = true ∧ ready.isLeaf = true ∧ (ready.ring 0).en = false ∧ hostRing 7 = false ∧ (ready.ring 7).en = false ∧
      leaf.fwReady = false ∧ hub.isLeaf = false ∧ hub.writable 4 = true := by decide +kernel

/-- DescriptorTaken: a descriptor of opcode 3, and one that names a partition the node does not hold. -/
theorem met_DescriptorTaken :
    leaf.takeable false (order 1 0 soon) = false ∧ (giving (order 3 0 soon) leaf).takeable false (order 3 0 soon) = true ∧
      opSupported leaf.isLeaf (descOp (order 3 0 soon)).toNat = false ∧ cmdRing false < leaf.eng.rings.length ∧ cmdRing true < leaf.eng.rings.length ∧
      (giving (order 1 0 soon) leaf).takeable false (order 1 0 soon) = true ∧ ((giving (order 1 0 soon) leaf).commonCheck (order 1 0 soon)).isSome = true ∧
      ((giving (order 2 0 soon) leaf).commonCheck (order 2 0 soon)).isSome = true ∧ ((giving (order 5 0 soon) leaf).commonCheck (order 5 0 soon)).isSome = true ∧
      ((giving (order 0x0F 0 soon) leaf).commonCheck (order 0x0F 0 soon)).isSome = true := by decide +kernel

/-- TimedDescriptors, LAUNCH_AT: channel 15 and 16, late, on a Hub and on a Leaf, alone and with a full table. -/
theorem met_LaunchDescriptors :
    (let d := order 1 0 soon [(256, 16)]
     passes d member = true ∧ descOp d = 0x01 ∧ 15 < (d.extractLsb' 256 8).toNat ∧ (taken d member).part (descTag d) = some { part with member := true }) ∧
      (let d := order 1 0 (leaf.stamp + htOf 1000 - 1) [(256, 15)]
       passes d member = true ∧ (d.extractLsb' 256 8).toNat ≤ 15 ∧ d.getLsbD 12 = false ∧ d.getLsbD 13 = false ∧
         (taken d member).leadShort (d.extractLsb' 64 80) ((taken d member).minLead part) = true) ∧
      (let d := order 1 0 soon
       passes d apexHub = true ∧ (taken d apexHub).isLeaf = false ∧ (taken d apexHub).leadShort (d.extractLsb' 64 80) ((taken d apexHub).minLead part) = false) ∧
      (let d := order 1 0 (leaf.stamp + htOf 1000)
       passes d member = true ∧ (taken d member).isLeaf = true ∧ (taken d member).leadShort (d.extractLsb' 64 80) ((taken d member).minLead part) = false ∧
         (taken d member).envShort d (d.extractLsb' 64 80) = false ∧ (taken d member).tableFull = false) ∧
      (let d := order 1 0x10 (leaf.stamp + htOf 190)
       passes d member = true ∧ d.getLsbD 12 = true ∧ d.getLsbD 13 = false ∧ (taken d member).slotOf (descTag d) = some false ∧
         (taken d member).leadShort (d.extractLsb' 64 80) ((taken d member).lTr + 100) = false ∧ (taken d member).envShort d (d.extractLsb' 64 80) = false ∧
         (taken d member).tableFull = false) := by decide +kernel

/-- A table of 4,096 entries has no place for one more. -/
theorem met_TableFull (s : State) (h : s.band.table.length = 4096) : s.tableFull = true := by simp [State.tableFull, h]

/-- TimedDescriptors, the others. -/
theorem met_SwapDescriptors :
    (let d := order 5 0 soon
     passes d member = true ∧ descOp d = 0x05 ∧ part.rev4 = false ∧ part.swap = none ∧ (taken d member).tr.pending = false ∧
       (taken d member).leadShort (d.extractLsb' 64 80) ((taken d member).minLead part) = false ∧ (taken d member).tableFull = false ∧
       passes d (inPart { part with member := true, rev4 := true } active) = true ∧
       passes d (inPart { part with member := true, swap := some { t := soon, id := 1 } } active) = true) := by decide +kernel

theorem met_ParkDescriptors :
    (let d := order 9 0 soon [(224, 255)]
     let s := inPart { part with member := true } stepping
     passes d s = true ∧ descOp d = 0x09 ∧ d.getLsbD 12 = false ∧ (taken d s).slotOf (descTag d) = some false ∧
       (((taken d s).ctx false).arm (d.extractLsb' 224 8)).elim false (fun a => a.step) = true ∧ (taken d s).parkFree false = true ∧
       (taken d s).tableFull = false ∧
       passes d member = true ∧ (((taken d member).ctx false).arm (d.extractLsb' 224 8)).elim false (fun a => a.step) = false) ∧
      (let d := order 9 0x10 soon
       passes d member = true ∧ d.getLsbD 12 = true ∧ (taken d member).isLeaf = true) := by decide +kernel

theorem met_SignalAndArmDescriptors :
    (let d := order 4 0 0 [(272, 2)]
     passes d member = true ∧ descOp d = 0x04 ∧ d.getLsbD 12 = false ∧ d.extractLsb' 272 8 = 2 ∧ (taken d member).slotOf (descTag d) = some false ∧
       ((taken d member).ctx false).st = .active) ∧
      (let d := order 4 0x10 (leaf.stamp + htOf 100) [(272, 2)]
       passes d member = true ∧ d.getLsbD 12 = true ∧ (taken d member).leadShort (d.extractLsb' 64 80) 100 = false ∧ (taken d member).tableFull = false) ∧
      (let d := desc [(0, 2), (16, tag.toNat), (64, 255)]
       passes d member = true ∧ descOp d = 0x02 ∧ (taken d member).slotOf (descTag d) = some false ∧
         (taken d member).armInvalid ((taken d member).ctx false) part (armOf d) = false ∧ ((taken d member).ctx false).arm (d.extractLsb' 64 8) = none ∧
         (let s := inPart { part with member := true } stepping
          passes d s = true ∧ ((taken d s).ctx false).arm (d.extractLsb' 64 8) = some arm)) ∧
      (let d := desc [(0, 2), (16, tag.toNat), (64, 255), (80, 8)]
       passes d member = true ∧ (taken d member).armInvalid ((taken d member).ctx false) part (armOf d) = true) := by decide +kernel

/-- SettingDescriptors, CFG_WRITE. -/
theorem met_CfgWrite :
    (let d := fun (l : List (Nat × Nat)) => desc ([(0, 6), (16, tag.toNat)] ++ l)
     let ok := fun (x : Desc) => passes x member && (taken x member).slotOf (descTag x) == some false && !(taken x member).swapArmed
     ok (d []) = true ∧ ok (d [(64, 4)]) = true ∧ 3 < ((d [(64, 4)]).extractLsb' 64 8).toNat ∧
       ok (d [(64, 2), (160, 1), (128, 2)]) = true ∧ ((d [(64, 2), (160, 1), (128, 2)]).extractLsb' 160 32).toNat < ((d [(64, 2), (160, 1), (128, 2)]).extractLsb' 128 32).toNat ∧
       ok (d [(64, 2), (160, 2), (128, 2)]) = true ∧ ok (d [(64, 3)]) = true ∧
       ok (d [(64, 1), (72, 1)]) = true ∧ (d [(64, 1), (72, 1)]).extractLsb' 72 8 = 1 ∧
       (d [(64, 1), (72, 1)]).extractLsb' 104 8 = 0 ∧ (d [(64, 1), (72, 1)]).getLsbD 99 = false ∧ ok (d [(64, 2), (160, 0), (128, 2)]) = true ∧
       (d [(64, 2), (160, 1), (128, 2)]).extractLsb' 160 32 ≠ 0 ∧
       (let s := inPart { part with member := true, swap := some { t := soon, id := 1 } } active
        passes (d [(64, 3)]) s = true ∧ (taken (d [(64, 3)]) s).swapArmed = true)) := by decide +kernel

/-- SettingDescriptors, WINDOW_SET: a length of 99 ns, and of 100 ns in a period of 101 ns. -/
theorem met_WindowSet :
    (let d := fun (len : Nat) => order 0x0A 1 soon [(224, 15), (240, 0), (256, 101), (288, len)]
     passes (d 99) seated = true ∧ (taken (d 99) seated).schedBad 15 (schedOf (d 99)) = some 0 ∧
       passes (d 100) seated = true ∧ (taken (d 100) seated).schedBad 15 (schedOf (d 100)) = none ∧ (taken (d 100) seated).swapArmed = false ∧
       (taken (d 100) seated).activeSlot = none ∧
       passes (d 100) active = true ∧ (taken (d 100) active).activeSlot ≠ none ∧
       (let s := inPart { part with member := true, swap := some { t := soon, id := 1 } } active
        passes (d 100) s = true ∧ (taken (d 100) s).swapArmed = true)) := by decide +kernel

/-- SettingDescriptors, LOAD_ENV and CAPTURE_ARM: the ends of the ranges of R220, levels 15, inputs 7 and 8. -/
theorem met_LoadEnv :
    (let d := fun (l up : Nat) => desc [(0, 0x0E), (8, 1), (224, l), (256, up), (288, 1)]
     passes (d 15 1000001) seated = true ∧ envBad (d 15 1000001) = true ∧ envBad (d 16 1) = true ∧ passes (d 15 1000000) seated = true ∧ envBad (d 15 1000000) = false ∧
       (taken (d 15 1000000) seated).swapArmed = false ∧ (taken (d 15 1000000) seated).activeSlot = none ∧
       passes (d 15 1000000) active = true ∧ (taken (d 15 1000000) active).activeSlot ≠ none) ∧
      (let d := order 0x0E 0x11 (leaf.stamp + htOf 100) [(224, 15)]
       passes d seated = true ∧ d.getLsbD 12 = true ∧ (taken d seated).band.envA.en = false ∧ (d.extractLsb' 224 8).toNat ≤ 15 ∧
         (taken d seated).leadShort (d.extractLsb' 64 80) 100 = false ∧ (taken d seated).tableFull = false) := by decide +kernel

theorem met_CaptureArm :
    (let d := order 0x0D 0x11 soon [(384, 8)]
     passes d seated = true ∧ 7 < (d.extractLsb' 384 8).toNat) ∧
      (let d := order 0x0D 0x11 (leaf.stamp + htOf 100) [(384, 7)]
       passes d seated = true ∧ (d.extractLsb' 384 8).toNat ≤ 7 ∧ d.getLsbD 12 = true ∧ (taken d seated).leadShort (d.extractLsb' 64 80) 100 = false ∧
         (taken d seated).tableFull = false) ∧
      (let d := order 0x0D 1 soon [(384, 7), pairAt 224 (soon + 1)]
       passes d seated = true ∧ d.getLsbD 12 = false ∧ htLt (d.extractLsb' 64 80) (d.extractLsb' 224 80) = true ∧ (taken d seated).tableFull 2 = false) := by decide +kernel

/-- ControlDescriptors. -/
theorem met_OpenAndClose :
    (let d := order 7 0 soon
     passes d leaf = true ∧ descOp d = 0x07 ∧ ((taken d leaf).eng.taken.any fun x => !x.fin && x.num != 0 && x.opcode == 0x07 && ptPart x.ptag == ptPart (descTag d)) = false ∧
       (let s := leaf.modEng fun e => { e with taken := [{ opening with num := 0 }], takenNum := 1 }
        passes d s = true ∧ ((taken d s).eng.taken.any fun x => !x.fin && x.num != 1 && x.opcode == 0x07 && ptPart x.ptag == ptPart (descTag d)) = true)) ∧
      passes (order 8 0 soon) member = true := by decide +kernel

theorem met_DumpAndFence :
    (let d := order 0x0B 0 0
     passes d member = true ∧ descOp d = 0x0B ∧ (taken d member).eng.dump = none ∧ d.getLsbD 12 = false ∧ (taken d member).slotOf (descTag d) = some false ∧
       (let s := member.modEng fun e => { e with dump := some { slot := none, ptag := tag, desc := none, todo := [] } }
        passes d s = true ∧ (taken d s).eng.dump.isSome = true)) ∧
      (let d := order 0x0B 0 0
       passes d apexHub = true ∧ (taken d apexHub).eng.dump = none ∧ (taken d apexHub).slotOf (descTag d) = none ∧
         (taken d apexHub).part (descTag d) = some { part with act := { part.act with apex := true } }) ∧
      passes (order 0x0B 0x11 0) leaf = true ∧ (order 0x0B 0x11 0).getLsbD 12 = true ∧ ((order 0x0B 0x11 0).extractLsb' 64 8).toNat ≤ 1 ∧
      (let d := desc [(0, 0x0B), (8, 0x11), (64, 2)]
       passes d leaf = true ∧ descOp d = 0x0B ∧ d.getLsbD 12 = true ∧ 1 < (d.extractLsb' 64 8).toNat) ∧
      passes (desc [(0, 0x0F), (8, 1), (64, 3)]) leaf = true ∧ passes (desc [(0, 0x0F), (8, 1), (64, 2)]) leaf = true ∧
      (let s := leaf.modRing 1 fun r => { r with fence := some 0 }
       let f := { opening with opcode := 0x0F, urgent := true, body := desc [(64, 1)] }
       let s1 := s.modEng fun e => { e with taken := [f] }
       let s2 := s.modEng fun e => { e with taken := [{ opening with num := 0 }, { f with num := 1 }] }
       (s1.ring 1).fence = some 0 ∧ s1.eng.taken.find? (fun x => x.num == 0 && !x.fin) = some f ∧ s1.fenceMet f = true ∧ s2.fenceMet { f with num := 1 } = false) := by
  decide +kernel

/-- ControlDescriptors, replay: steps 5 to 5, no capture mask, a CAPTURE that is due and one that is not. -/
theorem met_Replay :
    (let d := desc [(0, 0x10), (16, tag.toNat), (64, 5), (128, 5)]
     let s := (inPart { part with member := true } (seated.modCtx false fun c => { c with st := .opening, ptag := tag })).modSync fun y => { y with capMask := 1 }
     passes d s = true ∧ descOp d = 0x10 ∧ (taken d s).slotOf (descTag d) = some false ∧ (d.extractLsb' 64 64).toNat ≤ (d.extractLsb' 128 64).toNat ∧
       (taken d s).sync.capMask ≠ 0 ∧ ((taken d s).ctx false).st = .opening ∧ passes d member = true ∧ (taken d member).sync.capMask = 0) ∧
      (let s := active.modSync fun y => { y with replay := some (tag, 0, 0, 0), replayQ := [.capture 7 true 0 leaf.stamp] }
       s.alive = true ∧ s.isLeaf = true ∧ s.activeSlot = some false ∧ s.sync.replayQ = .capture 7 true ((s.ctx false).iStep.setWidth 32) leaf.stamp :: [] ∧
         s.sync.replaying (s.ctx false).ptag (s.ctx false).iStep = true ∧ s.isDue (dueTick (htAdd (s.ctx false).iStart 0 + leaf.stamp)) = true ∧
         s.isDue (dueTick (htAdd (s.ctx false).iStart 0 + (leaf.stamp + 1))) = false) := by decide +kernel

-- Objects and registers.

/-- ObjectOperations: each type, satisfied and not, the first round of a barrier and the one two ahead, operations 0 and 7. -/
theorem met_ObjectOperations :
    (let f : Obj := { type := .flag, value := 1 }
     f.type = .flag ∧ f.value.getLsbD 0 = true ∧ ({ f with value := 0, armed := true } : Obj).value.getLsbD 0 = false ∧
       ({ f with value := 0 } : Obj).satisfied = false) ∧
      (let c : Obj := { type := .counter, value := 4, thresh := 5 }
       c.type = .counter ∧ c.armed = false ∧ c.satisfied = false ∧ ({ c with armed := true } : Obj).armed = true) ∧
      ({ type := .timer } : Obj).type = .timer ∧
      (let b : Obj := { type := .barrier, value := 3 }
       b.type = .barrier ∧ ({ b with chanEn := true } : Obj).chanEn = true ∧ b.chanEn = false ∧ (3 : BitVec 32).extractLsb' 0 2 = b.value.extractLsb' 0 2 ∧
         b.hostCur = false ∧ (1 : BitVec 32).extractLsb' 0 2 = b.value.extractLsb' 0 2 + 2) ∧
      ({} : Obj).type = .none ∧ ((0 : Byte) = 0 ∨ 6 < (0 : Byte).toNat) ∧ 6 < (7 : Byte).toNat ∧
      (1 : Word).extractLsb' 0 3 = 1 ∧ (2 : Word).extractLsb' 0 3 = 2 ∧ (4 : Word).extractLsb' 0 3 = 4 := by decide +kernel

/-- SyncWindow: the active slot, a parked slot under SEL, no slot, a barrier object, TYPE 3, THRESH 1. -/
theorem met_SyncWindow :
    active.isLeaf = true ∧ active.writable 5 = true ∧ active.sync.sel = false ∧ active.activeSlot = some false ∧ leaf.winSlot = none ∧ leaf.writable 5 = true ∧
      leaf.activeSlot = none ∧
      (let s := (leaf.modCtx true fun c => { c with st := .parked }).modSync fun y => { y with sel := true }
       s.sync.sel = true ∧ s.winSlot = some true ∧ s.writable 5 = true) ∧
      (let s := member.setObj false 255 { type := .barrier }
       s.winSlot = some false ∧ s.barrierObj false 255 = true ∧ s.sync.posts = []) ∧
      active.sync.posts = [] ∧ leaf.sync.posts = [] ∧ active.winSlot = some false ∧ (active.ctx false).st = .active ∧
      (let e : PostEv := { slot := false, obj := 4095, op := 1, operand := 1, src := 1, rank := 0 }
       (active.modSync fun y => { y with posts := [e] }).sync.posts = [e]) ∧
      (let s := (leaf.modCtx true fun c => { c with st := .parked }).modSync fun y => { y with sel := true }
       s.sync.posts = [] ∧ s.barrierObj true 4095 = false ∧ (s.ctx true).st ≠ .active) ∧
      (3 : Word).extractLsb' 0 3 = 3 ∧ active.barrierObj false 4095 = false ∧ (0x00010001 : Word).extractLsb' 0 3 = 1 ∧ (0x00010001 : Word).extractLsb' 16 16 ≠ 0 ∧
      leaf.writable 7 = true := by decide +kernel

/-- TimeAndPortRegisters: a node with and without a partition, a root with one, claims heard of and not, a port in each kind of state. -/
theorem met_TimeAndPortRegisters :
    leaf.writable 0 = true ∧ leaf.sun.counting = true ∧ leaf.sun.st = .freerun ∧ leaf.upPorts = [] ∧ linked.upPorts ≠ [] ∧ leaf.writable 1 = true ∧
      leaf.holdsPartition = false ∧ leaf.sun.isRoot = false ∧ active.holdsPartition = true ∧ active.writable 0 = true ∧ active.writable 1 = true ∧
      leaf.org.srcType = 0 ∧ (leaf.modOrg fun o => { o with srcType := 1 }).org.srcType ≠ 0 ∧
      (let s := active.modSun fun u => { u with isRoot := true }
       s.sun.isRoot = true ∧ s.fabricOpen = true ∧ s.writable 1 = true) ∧
      (let t := fun (s : State) (w : Word) => s.modOrg fun o => { o with prio := w.extractLsb' 0 8, osc := w.getLsbD 8 }
       let root := (leaf.modElect fun e => { e with recorded := some claim }).modSun fun u => { u with isRoot := true }
       (0x1C0 : Word).extractLsb' 0 8 = leaf.org.prio ∧ (t leaf 0x1C0).requalify.elect.recorded = none ∧ (0x1C1 : Word).extractLsb' 0 8 ≠ leaf.org.prio ∧
         (t leaf 0x1C1).sendClaim.requalify.elect.recorded = none ∧ root.writable 1 = true ∧ (t root 0x1C0).requalify.elect.recorded ≠ none ∧
         (t root 0x1C0).requalify.sun.isRoot = true ∧ (t root 0x1C1).sendClaim.requalify.elect.recorded ≠ none ∧
         (t root 0x1C1).sendClaim.requalify.sun.isRoot = true) ∧
      (let w : Word := 0xA1
       ready.writable 0 = true ∧ (7 : PortNo).toNat < ready.ports.length ∧ (w.extractLsb' 4 4).toNat ≤ 10 ∧ w.getLsbD 8 = false ∧ w.getLsbD 9 = false ∧
         ready.tlEnOk 7 = true ∧ (ready.port 7).st = .disabled ∧ ready.pins.linkLow.getLsbD 7 = false ∧ ready.mute = false ∧ leaf.tlEnOk 7 = false ∧
         (linked.port 7).st = .up ∧ linked.mute = false ∧ (linked.port 7).exiting = 0 ∧ linked.writable 0 = true ∧
         ((linked.modPw fun p => { p with pfail := true }).writable 0 = true ∧ (linked.modPw fun p => { p with pfail := true }).mute = true) ∧
         (portIn 7 .train).writable 0 = true ∧ ((portIn 7 .train).port 7).st ≠ .disabled ∧ ((portIn 7 .train).port 7).st ≠ .up) := by decide +kernel

/-- RegisterPortAndReads: the addresses at the ends of each range. -/
theorem met_RegisterPortAndReads :
    (leaf.modPins fun p => { p with powered := false }).pins.powered = false ∧ (leaf.modPins fun p => { p with hmRunning := false }).pins.hmRunning = false ∧
      (let s := leaf.modPins fun p => { p with rst := .warm }
       s.pins.powered = true ∧ s.pins.hmRunning = true ∧ s.alive = false) ∧
      leaf.pins.powered = true ∧ leaf.pins.hmRunning = true ∧ leaf.alive = true ∧ leaf.xoOk = true ∧ leaf.fc.safe = false ∧
      safe.alive = true ∧ safe.xoOk = true ∧ safe.fc.safe = true ∧ (0x1FFC : BitVec 18).toNat < 0x2000 ∧ 0x2400 ≤ (0x2400 : BitVec 18).toNat ∧
      0x20000 ≤ (0x20000 : BitVec 18).toNat ∧ 0x8100 ≤ (0x8100 : BitVec 18).toNat ∧ (0xFFFC : BitVec 18).toNat < 0x10000 ∧ (0xFC : BitVec 18).toNat < 0x100 ∧
      (7 : BitVec 3).toNat < leaf.ports.length ∧ leaf.pdOn 2 = true ∧ State.reset.pdOn 2 = false ∧ (leaf.readWord 0x3808).isSome = true := by decide +kernel

-- Ledger, health and Gatehouse.

/-- A service record asked for by the block. -/
def svc : SvcReq := { code := 4, host := false, note := 0 }

/-- The Leaf whose Grotto is at `j`. -/
def writing (j : Job) (pos : Nat := 1) (tries : Nat := 0) : State := leaf.modLg fun l => { l with job := some j, jPos := pos, tries := tries, ready := true, scanning := false }

/-- LedgerRecords: the first page of a sector and another, the third bad page, the last second before an interval. -/
theorem met_LedgerRecords :
    leaf.alive = true ∧ leaf.lg.job = none ∧ (writing (.svc svc)).lg.job = some (.svc svc) ∧ svc.desc = none ∧ (writing (.odo false)).lg.job = some (.odo false) ∧
      (writing (.odo false)).lg.jPos % 16 ≠ 0 ∧ (writing (.odo false) 4080).lg.jPos % 16 = 0 ∧ (writing (.odo false) 4080).lg.erasing = none ∧
      (writing (.odo false) 1 2).lg.tries = 2 ∧ (writing (.odo false)).lg.tries < 2 ∧ (writing (.odo false)).pw.pfail = false ∧
      (writing (.odo true)).lg.job = some (.odo true) ∧ (leaf.modLg fun l => { l with erasing := some 255 }).lg.erasing = some 255 ∧ leaf.lg.erasing = none ∧
      (let s := leaf.modLg fun l => { l with ready := true, odo := { l.odo with poweredS := 10 } }
       s.lg.ready = true ∧ s.lg.odo.poweredS.toNat % 10 = 0 ∧ s.lg.odo.poweredS ≠ 0 ∧ s.lg.odo.poweredS ≠ s.lg.odoAt ∧ s.pw.pfail = false ∧
         s.writable 0 = true ∧ (s.lg.lastFlush.elim true fun x => tickLe (x + 1000000000) s.tick) = true ∧
         (((s.modLg fun l => { l with lastFlush := some (leaf.tick - 999999999) }).lg.lastFlush).elim true fun x => tickLe (x + 1000000000) s.tick) = false ∧
         (((s.modLg fun l => { l with lastFlush := some (leaf.tick - 1000000000) }).lg.lastFlush).elim true fun x => tickLe (x + 1000000000) s.tick) = true) ∧
      leaf.writable 0 = true ∧ leaf.lg.ready = false := by decide +kernel

/-- LedgerReadsAndNotes: codes 255 and 256, a queue of 15 and of 16. -/
theorem met_LedgerReadsAndNotes :
    tickLe (leaf.lg.sampleAt + 1000000000) leaf.tick = true ∧ tickLe ((leaf.modLg fun l => { l with sampleAt := leaf.tick - 999999999 }).lg.sampleAt + 1000000000) leaf.tick = false ∧
      leaf.lg.scanning = true ∧ leaf.gate.life = .blank ∧ (leaf.modGate fun g => { g with life := .field }).gate.life ≠ .blank ∧ (writing (.svc svc)).lg.scanning = false ∧
      leaf.writable 0 = true ∧ leaf.lg.ready = false ∧ leaf.pw.pfail = false ∧ (leaf.modLg fun l => { l with ready := true }).lg.ready = true ∧
      (let s := (writing (.svc svc)).modGate fun g => { g with life := .field }
       let t := fun (w : Word) => s.modLg fun l => { l with
         rdArea := w.extractLsb' 0 2, rdIndex := w.extractLsb' 8 22, rdBusy := true, rdValid := false, rdErased := false }
       s.writable 0 = true ∧ s.gate.life ≠ .blank ∧ (t 0).rdAddr.isSome = true ∧ (t 3).rdAddr = none) ∧
      (let s := leaf.modLg fun l => { l with rdBusy := true, ready := true, rdArea := 1, rdIndex := 0, log := [.valid 5] }
       s.lg.rdBusy = true ∧ s.lg.ready = true ∧ s.lg.absent = false ∧ s.lg.rdArea = 1 ∧ s.lg.log[s.lg.logAt s.lg.rdIndex.toNat]? = some (.valid 5) ∧
         (let t := s.modLg fun l => { l with rdIndex := 1 }
          t.lg.log[t.lg.logAt t.lg.rdIndex.toNat]? = none)) ∧
      leaf.lg.rdBusy = false := by decide +kernel

theorem met_LedgerNote :
    (let d := fun (c : Nat) => desc [(0, 0x0C), (8, 1), (64, c)]
     let s := fun (life : Life) (q : Nat) => (writing (.odo false)).modLg (fun l => { l with queue := List.replicate q svc }) |>.modGate fun g => { g with life := life }
     passes (d 255) (s .field 0) = true ∧ ((d 255).extractLsb' 64 16).toNat < 256 ∧ passes (d 256) (s .retired 0) = true ∧ 256 ≤ ((d 256).extractLsb' 64 16).toNat ∧
       (taken (d 256) (s .retired 0)).gate.life = .retired ∧ passes (d 256) leaf = true ∧ (taken (d 256) leaf).gate.life ≠ .retired ∧ (taken (d 256) leaf).lg.ready = false ∧
       passes (d 256) (s .field 16) = true ∧ (taken (d 256) (s .field 16)).lg.ready = true ∧ (taken (d 256) (s .field 16)).lg.logFull = false ∧
       16 ≤ (taken (d 256) (s .field 16)).lg.queue.length ∧ passes (d 256) (s .field 15) = true ∧ (taken (d 256) (s .field 15)).lg.queue.length < 16 ∧
       (taken (d 256) (s .field 15)).lg.sealed = false ∧ (taken (d 256) (s .field 15)).pw.pfail = false ∧ (taken (d 256) (s .field 15)).gate.life ≠ .blank) := by
  decide +kernel

/-- HealthCommands: a new window, a charge 1 ms later, spares 3,600 s old and younger, scores at both thresholds. -/
theorem met_HealthCommands :
    (let s := leaf.modSun fun u => { u with now := htOf 100032000000000 }
     s.alive = true ∧ s.scoring = true ∧ s.tick.toNat % 64000000000 = 0 ∧ s.tick ≠ s.hs.window ∧ (s.modHs fun h => { h with window := s.tick }).hs.window = s.tick) ∧
      leaf.alive = true ∧ leaf.scoring = true ∧ leaf.tick.toNat % 64000000000 ≠ 0 ∧
      (let s := leaf.modHs fun h => { h with due := true, window := leaf.tick - 1000000 }
       s.scoring = true ∧ s.hs.due = true ∧ s.tick = s.hs.window + 1000000) ∧
      (leaf.modHs fun h => { h with evalDue := true }).hs.evalDue = true ∧ leaf.tick ≠ leaf.hs.window + 1000000 ∧
      leaf.hs.due = false ∧
      (let s := leaf.modHs fun h => { h with stale := false, sparesAt := some (leaf.tick - 3600000000000) }
       s.hs.stale = false ∧ 3600 ≤ s.sparesAge.toNat) ∧
      (leaf.modHs fun h => { h with sparesAt := some (leaf.tick - 3599999999999) }).sparesAge.toNat < 3600 ∧ leaf.writable 3 = true ∧
      leaf.hs.tAdv.toNat ≤ leaf.hs.tExp.toNat ∧ leaf.gate.life ≠ .factory ∧ leaf.gate.scope.getLsbD 1 = false ∧
      (leaf.modGate fun g => { g with life := .factory }).gate.life = .factory ∧ ({ hard := true } : Score).hard = true ∧
      leaf.hs.tExp.toNat * 256 ≤ ({ s := 0x4000 } : Score).s.toNat ∧ ({ s := 0x3FFF } : Score).s.toNat < leaf.hs.tExp.toNat * 256 := by decide +kernel

/-- A FIELD device with a header, and one in SERVICE with every scope. -/
def gated (life : Life) (scope : BitVec 3 := 0) (chal : Option (BitVec 128) := some 5) : State :=
  (leaf.modLg fun l => { l with hdrA := some (.valid 0), ready := true, scanning := false }).modGate fun g => { g with
    life := life, scope := scope, chal := chal, lc := 3, keyOk := true }

/-- Its owner key. -/
def key : BitVec 256 := ((gated .field).kOwn).getD 0

/-- GatehouseCommands. -/
theorem met_GatehouseCommands :
    (gated .field).writable 0 = true ∧ (gated .field).gate.life = .field ∧ (gated .field).gate.locked = false ∧
      ((gated .service).modGate fun g => { g with locked := true }).gate.locked = true ∧ leaf.gate.life ≠ .field ∧ leaf.gate.life ≠ .service ∧
      (gated .field).gate.chal = some 5 ∧ (gated .field).kOwn = some key ∧ (2 : BitVec 3).getLsbD 1 = true ∧ (gated .field).partsHeld = false ∧
      ((gated .field).modCtx true fun c => { c with st := .ended }).partsHeld = true ∧ (7 : BitVec 3) ≠ 0 ∧
      (gated .field 0 none).gate.chal = none ∧ (gated .field 0 none).kOwn = some key ∧ (gated .service 7).gate.life = .service ∧ (gated .service 7).gate.scope.getLsbD 2 = true ∧
      (gated .service 7).gate.eOwn ≠ 16 ∧ (gated .service 7).kOwn = some key ∧ ((gated .service 7).modGate fun g => { g with eOwn := 16 }).gate.eOwn = 16 ∧
      (gated .service 7).gate.staged = none ∧ ((gated .service 7).modGate fun g => { g with staged := some 1 }).gate.staged = some 1 ∧
      (gated .service 7).lg.ready = true ∧ (gated .factory).gate.life = .factory ∧ (gated .factory).lg.ready = true := by decide +kernel

/-- A response does not enter the MAC, so any state has a right response to OPEN and to CONFIRM, and a wrong one. -/
theorem mac_of_hwid (s t : State) (k : List Byte) (c : BitVec 128) (x : Byte) (h : t.gate.hwid = s.gate.hwid) : t.ghMac k c x = s.ghMac k c x := by
  unfold State.ghMac
  rw [h]

theorem hwid_of_resp (s : State) (m : BitVec 256) : (s.modGate fun g => { g with resp := m }).gate.hwid = s.gate.hwid := rfl

theorem resp_of_resp (s : State) (m : BitVec 256) : (s.modGate fun g => { g with resp := m }).gate.resp = m := rfl

theorem met_GatehouseResponses (s : State) (k : List Byte) (c : BitVec 128) (x : Byte) :
    (∃ m, (s.modGate fun g => { g with resp := m }).gate.resp = (s.modGate fun g => { g with resp := m }).ghMac k c x) ∧
      ∃ m, (s.modGate fun g => { g with resp := m }).gate.resp ≠ (s.modGate fun g => { g with resp := m }).ghMac k c x := by
  refine ⟨⟨s.ghMac k c x, ?_⟩, s.ghMac k c x + 1, ?_⟩
  · rw [resp_of_resp, mac_of_hwid _ _ _ _ _ (hwid_of_resp s _)]
  · rw [resp_of_resp, mac_of_hwid _ _ _ _ _ (hwid_of_resp s _)]
    generalize s.ghMac k c x = m
    simp

/-- FusesAndGateTimers: 300 s, eight hours, the seventh failure and the eighth. -/
theorem met_FusesAndGateTimers :
    (let s := leaf.modGate fun g => { g with resp := 1 }
     s.writable 0 = true ∧ s.gate.life = .blank ∧ s.gate.resp.extractLsb' 0 64 ≠ 0 ∧ s.gate.resp.extractLsb' 0 64 ≠ BitVec.allOnes 64) ∧
      (gated .field).gate.life ≠ .blank ∧ leaf.gate.hwidFuse = 0 ∧
      (let s := (leaf.modGate fun g => { g with hwidFuse := 1 }).modLg fun l => { l with cfgWritten := true }
       s.gate.hwidFuse ≠ 0 ∧ s.lg.cfgWritten = true ∧ s.lg.absent = false ∧ (s.modLg fun l => { l with absent := true }).lg.absent = true) ∧
      (leaf.modGate fun g => { g with drawing := true }).gate.drawing = true ∧ leaf.gate.drawing = false ∧
      (let s := (gated .field).modGate fun g => { g with chalAt := leaf.tick - 300000000000 }
       s.gate.chal ≠ none ∧ tickLe (s.gate.chalAt + 300000000000) s.tick = true) ∧
      (let s := (gated .field).modGate fun g => { g with chalAt := leaf.tick - 299999999999 }
       tickLe (s.gate.chalAt + 300000000000) s.tick = false) ∧
      (let s := (gated .service).modGate fun g => { g with openedAt := leaf.tick - 28800000000000 }
       s.gate.life = .service ∧ tickLe (s.gate.openedAt + 28800000000000) s.tick = true) ∧
      (let s := (gated .field).modGate fun g => { g with locked := true, fails := 7, lockedAt := leaf.tick - 60000000000 }
       s.gate.locked = true ∧ s.gate.fails.toNat < 8 ∧ tickLe (s.gate.lockedAt + 60000000000) s.tick = true) ∧
      8 ≤ ((gated .field).modGate fun g => { g with fails := 8 }).gate.fails.toNat := by decide +kernel

-- Faults, firmware, capture and tests.

/-- A report of `code`. -/
def report (code : BitVec 16) : Report := { code := code, loc := 0, partV := false, ptag := 0, stamp := leaf.stamp, detail := 0 }

/-- A history of `n` records of which the last is of `code`. -/
def history (n : Nat) (code : BitVec 16) : Collector :=
  { leaf.fc with hist := List.replicate (n - 1) (cpair ((uc 4 1).setWidth 256 <<< 32)) ++ [cpair (code.setWidth 256 <<< 32)] }

/-- CollectorRules: each class, masked and not, VALID and not, 31 and 32 records. -/
theorem met_CollectorRules :
    codeClass (ce 4 1) = 1 ∧ codeClass (uc 4 1) = 2 ∧ codeClass (ft 4 1) = 3 ∧ leaf.fc.valid = false ∧
      ({ leaf.fc with mask := cpair 0x10 } : Collector).mask.v.getLsbD (codeUnit (uc 4 1)).toNat = true ∧ leaf.fc.mask.v.getLsbD (codeUnit (uc 4 1)).toNat = false ∧
      ({ leaf.fc with first := cpair (1 <<< 56) } : Collector).valid = true ∧
      ({ leaf.fc with promote := cpair 0x10 } : Collector).promote.v.getLsbD (codeUnit (ce 4 1)).toNat = true ∧
      (history 31 (ce 4 1)).hist.length < 32 ∧ (history 32 (ce 4 1)).hist.length = 32 ∧
      (∃ c ∈ (history 32 (ce 4 1)).hist, codeClass (c.v.extractLsb' 32 16) = 1) ∧
      (history 32 (uc 4 1)).hist.length = 32 ∧ (∀ c ∈ (history 32 (uc 4 1)).hist, codeClass (c.v.extractLsb' 32 16) ≠ 1) := by decide +kernel

/-- FaultCommands: a report 9,999 ns and 10,000 ns after its like, the last island and the first beyond. -/
theorem met_FaultCommands :
    leaf.alive = true ∧ leaf.fc.inbox = [] ∧ (leaf.modFc fun f => { f with inbox := [report (ft 1 3)] }).fc.inbox = report (ft 1 3) :: [] ∧
      (let s := leaf.modFc fun f => { f with recent := [(ft 1 3, 0, false, 0, leaf.tick - 9999)] }
       s.fc.coalesces (s.fc.classify (report (ft 1 3))) s.tick = true) ∧
      (let s := leaf.modFc fun f => { f with recent := [(ft 1 3, 0, false, 0, leaf.tick - 10000)] }
       codeClass (report (ft 1 3)).code = 3 ∧ s.fc.coalesces (s.fc.classify (report (ft 1 3))) s.tick = false) ∧
      codeClass (report (uc 4 1)).code ≠ 3 ∧ leaf.fc.safe = false ∧ ready.coreRuns true = true ∧ leaf.coreRuns false = false ∧
      (10 : Byte).toNat < 3 + leaf.ports.length ∧ 3 + leaf.ports.length ≤ (11 : Byte).toNat ∧
      (let s := safe.modFc fun f => { f with safeAt := leaf.tick - 100000 }
       s.alive = true ∧ s.fc.safe = true ∧ s.eng.quiet = false ∧ s.isDue (s.fc.safeAt + 100000) = true) ∧
      (safe.modEng fun e => { e with quiet := true }).eng.quiet = true := by decide +kernel

/-- A FACTORY device with a seated Trellis, and a fault code of level 2. -/
def factory : State := seated.modGate fun g => { g with life := .factory }

/-- FaultRegisters. -/
theorem met_FaultRegisters :
    safe.pins.powered = true ∧ safe.pins.hmRunning = true ∧ safe.alive = true ∧ safe.xoOk = true ∧ (0 : Word).extractLsb' 0 16 = safe.fc.first.v.extractLsb' 16 16 ∧
      (0xFFFF : Word).extractLsb' 0 16 ≠ safe.fc.first.v.extractLsb' 16 16 ∧ leaf.writable 0 = true ∧ leaf.gate.life ≠ .factory ∧ factory.writable 0 = true ∧
      factory.gate.life = .factory ∧ factory.isLeaf = true ∧
      (let w : Word := (faultCode 2 2 7 2).setWidth 32
       let s := factory.modFc fun f => { f with injLoc := mkLoc 1 }
       codeLevel (w.extractLsb' 0 16) = 2 ∧ s.hasUnit (codeLevel (w.extractLsb' 0 16)) (locAddr s.fc.injLoc) = true ∧ codeLevel (w.extractLsb' 0 16) ≠ 3 ∧
         (s.unit (codeLevel (w.extractLsb' 0 16)) (locAddr s.fc.injLoc)).first = 0 ∧ s.hasUnit 2 (locAddr s.fc.injLoc) = true) := by decide +kernel

/-- FirmwareAndConverters. -/
theorem met_FirmwareAndConverters :
    leaf.writable 0 = true ∧ leaf.loadAllowed = true ∧ ready.loadAllowed = false ∧ leaf.pw.pfail = false ∧
      (let s := leaf.modPw fun p => { p with pfail := true }
       s.writable 0 = true ∧ s.loadAllowed = true ∧ s.pw.pfail = true) ∧
      leaf.fw.st ≠ .verifying ∧ (leaf.modFw fun f => { f with st := .verifying }).fw.st = .verifying ∧ leaf.pdOn 2 = true ∧
      (leaf.modFw fun f => { f with calibrating := true }).fw.calibrating = true ∧ leaf.hasTdc 15 = true ∧ leaf.hasTdc 0xFF = true ∧ leaf.hasTdc 16 = false ∧
      leaf.fw.calibrating = false ∧ (leaf.modFw fun f => { f with tdcAt := leaf.tick - 10000000000 }).isDue (leaf.tick - 10000000000 + 10000000000) = true ∧
      State.reset.pdOn 2 = false := by decide +kernel

/-- The Leaf whose capture input 7 takes rising edges. -/
def capturing : State := leaf.modCapIn 7 fun c => { c with en := true, lastEdge := some leaf.stamp }

/-- CaptureAndTestCommands: inside and after the dead time, 63 and 64 stamps, the last bank and the first beyond. -/
theorem met_CaptureAndTestCommands :
    State.reset.pdOn 2 = false ∧ capturing.alive = true ∧ capturing.pdOn 2 = true ∧ (capturing.capIn 7).takes false = true ∧ (capturing.capIn 7).takes true = false ∧
      (let s := (active.modCapIn 7 fun c => { c with en := true }).modSync fun y => { y with capMask := 0x80, replay := some (tag, 0, 0, 0) }
       (s.capIn 7).takes false = true ∧ s.liveIgnored 7 = true) ∧
      (capturing.capIn 7).winMode = false ∧
      (let s := capturing.modCapIn 7 fun c => { c with winMode := true }
       (s.capIn 7).winMode = true ∧ (s.capIn 7).winOpen = false ∧ ((s.modCapIn 7 fun c => { c with winOpen := true }).capIn 7).winOpen = true) ∧
      (let s := (active.modCapIn 7 fun c => { c with en := true }).modSync fun y => { y with capMask := 0x80 }
       s.liveIgnored 7 = false ∧ (s.capIn 7).deadTime leaf.stamp = false ∧ s.activeSlot = some false ∧ s.sync.capMask.getLsbD 7 = true) ∧
      capturing.liveIgnored 7 = false ∧ (capturing.capIn 7).deadTime leaf.stamp = true ∧ (capturing.capIn 7).deadTime (leaf.stamp + htOf 1000000) = false ∧
      capturing.activeSlot = none ∧ (List.replicate 63 ({ t := 0, falling := false, injected := false } : CapEnt)).length < 64 ∧
      64 ≤ (List.replicate 64 ({ t := 0, falling := false, injected := false } : CapEnt)).length ∧
      leaf.writable 2 = true ∧ (leaf.capIn 7).en = false ∧ (leaf.capIn 7).slope ≠ 0 ∧ ready.fw.tdcOk = true ∧ capturing.fw.tdcOk = false ∧ (capturing.capIn 7).en = true ∧
      capturing.writable 2 = true ∧ leaf.writable 8 = true ∧ leaf.bv.port.toNat < leaf.ports.length ∧ leaf.bv.src ≠ 2 ∧ leaf.traceOpen = true ∧
      (leaf.modGate fun g => { g with life := .field }).traceOpen = false := by decide +kernel

theorem met_TestCommands :
    (let s := leaf.modTst fun x => { x with check := true, pattern := 1, port := 7 }
     s.tst.check = true ∧ s.tst.pattern ≠ 0 ∧ s.laneOn s.tst.port = true) ∧
      leaf.tst.check = false ∧ (leaf.modTst fun x => { x with busy := true }).tst.busy = true ∧ leaf.tst.busy = false ∧ leaf.writable 0 = true ∧
      (leaf.modGate fun g => { g with life := .field }).testPageOpen = false ∧ leaf.testPageOpen = true ∧ leaf.profile.banks ≤ ((16 : Word).extractLsb' 0 5).toNat ∧
      (let s := leaf.modPw fun p => { p with owners := p.owners.set 15 0xF }
       ((15 : Word).extractLsb' 0 5).toNat < s.profile.banks ∧ s.pdOn (9 + 15 / 4) = true ∧ s.pw.owners.getD ((15 : Word).extractLsb' 0 5).toNat 0 = 0xF ∧ s.tst.busy = false) ∧
      leaf.writable 3 = true ∧ (leaf.modFw fun f => { f with st := .loading }).loading = true ∧ leaf.loading = false ∧ leaf.fw.st ≠ .running ∧
      ready.testPageOpen = true ∧ ready.loading = false ∧ ready.fw.st = .running ∧ ready.fw.idle0 = false ∧ (5 : Word).getLsbD 0 = true ∧ (5 : Word).getLsbD 1 = false ∧
      (5 : Word).getLsbD 2 = true ∧ ready.writable 3 = true := by decide +kernel

-- Ill-formed commands, which the check refuses, and commands at the ends of the same ranges, which it takes.

theorem test_wf_domain : (Instr.pwPdAckRise 0).wellFormed = false ∧ (Instr.pwPdAckFall 33).wellFormed = false ∧ (Instr.powerDomainTimeout 63).wellFormed = false ∧
    (Instr.bankClearDone 0).wellFormed = false ∧ (Instr.pwPdAckRise 1).wellFormed = true ∧ (Instr.bankClearDone 32).wellFormed = true := by decide

theorem test_wf_enable : (Instr.pdEnWrite 33 true).wellFormed = false ∧ (Instr.pdEnWrite 32 true).wellFormed = true := by decide

theorem test_wf_address : (Instr.registerWrite 0x2025 0).wellFormed = false ∧ (Instr.snapshotRead 0x3806).wellFormed = false ∧
    (Instr.registerWrite 0x2024 0).wellFormed = true := by decide

theorem test_wf_scope : (Instr.gateOpen 0).wellFormed = false ∧ (Instr.gateOpen 7).wellFormed = true := by decide

theorem test_wf_barrier : (Instr.arriveRx 0 (barMsg 0) 0).wellFormed = false ∧ (Instr.releaseRx 0 { barMsg 0 with red := false, types := 1 }).wellFormed = false ∧
    (Instr.arriveRedRx 0 { barMsg 0 with red := false } 0).wellFormed = false ∧ (Instr.releaseRedRx 0 { barMsg 0 with red := false }).wellFormed = false ∧
    (Instr.releaseRx 0 { barMsg 0 with red := false }).wellFormed = true := by decide +kernel

theorem test_wf_fault : (Instr.partFaultRx 0 { partMsg with aux := 0x7FFF }).wellFormed = false ∧ (Instr.partFaultRx 0 { partMsg with aux := 0x8000 }).wellFormed = true := by
  decide

theorem test_wf_packet : (Instr.trellisPacketRx 3 cell (some 0) (false, [])).wellFormed = false ∧ (Instr.trellisPacketRx 0 cell (some 0) (false, packet 1)).wellFormed = false ∧
    (Instr.trellisPacketRx 3 cell (some 0) (false, packet 1)).wellFormed = true := by decide +kernel

theorem test_wf_child : (Instr.laneClockLost 3 cell 128).wellFormed = false ∧ (Instr.errorWireFault 3 cell 255).wellFormed = false ∧
    (Instr.laneClockLost 3 cell 127).wellFormed = true ∧ (Instr.islandWireFault 67).wellFormed = false ∧ (Instr.islandWireFault 66).wellFormed = true := by decide

-- Worked examples of the manual.

/-- 00_scope.md, below R9: an HT80 C-pair. -/
theorem test_cpair_bytes : bytesOf 10 (0x000000000001_86A0_8000 : HT80).toNat = [0x00, 0x80, 0xA0, 0x86, 0x01, 0, 0, 0, 0, 0] ∧
    bytesOf 10 (cpair (0x000000000001_86A0_8000 : HT80)).c.toNat = [0xFF, 0x7F, 0x5F, 0x79, 0xFE, 0xFF, 0xFF, 0xFF, 0xFF, 0xFF] := by decide +kernel

/-- 01_hall_time_and_steps.md, below R20: 5,000,000,000.25 ns and a lead of 1,000 ns; a comparison across the wrap. -/
theorem test_hall_time : htAdd 0x000000012A05F2004000 1000 = 0x000000012A05F5E84000 ∧ dueTick 0x000000012A05F5E84000 = 5000001001 ∧
    htLe 0x000000012A05F5E84000 0x000000012A05F5E84000 = true ∧ htLe 0x000000012A05F5E84200 0x000000012A05F5E84000 = false ∧
    htLt 0xFFFFFFFFFFFFFF9C0000 0x00000000000000320000 = true := by decide +kernel

/-- 02_ports_and_integration.md, below R58: levels 2 to 14. -/
theorem test_gray : ((List.range 13).map fun k => gray (BitVec.ofNat 4 (k + 2))) = [3, 2, 6, 7, 5, 4, 12, 13, 15, 14, 10, 11, 9] := by decide +kernel

/-- 06_trellis.md, worked example: K = 60 and HCC 18,000,000,117 give the word 0x4B131 in S slot 18,000,000,128. -/
theorem test_fire_word :
    (let s := seated.modTr fun r => { r with hcc := 18000000116, k := 60, lSeat := 8, hPa := 1, hAs := 1 }
     let t := (s.sendWord { ix := 0, t := htOf 12000000000, code := wFire, arg := 3 }).1
     t.tr.slots = [(18000000128, 0x4B131)] ∧ (t.rootCycle 18000000128).out = [.word 18000000128 (trellisWord 0x4B131)] ∧
       (t.rootCycle 18000000136).out = [.word 18000000136 (trellisWord 0x4B131)]) := by decide +kernel

/-- 08_barriers_and_exact_reduction.md, worked example: FP32 contributions with S = 16 and the sum 40.5. -/
theorem test_fx96 :
    (decodeFmt 1 0x40490FDB).map (fun v => sumxX (toFx96 v 16)) = some 0x3243F6C00 ∧ (decodeFmt 1 0x2F800000).map (fun v => sumxX (toFx96 v 16)) = some 1 ∧
      (decodeFmt 1 0x2FC00000).map (fun v => sumxX (toFx96 v 16)) = some 2 ∧ (decodeFmt 1 0x2F000000).map (fun v => sumxX (toFx96 v 16)) = some 0 ∧
      sumxF64 (sumxSlot 0x2880000000 16 0 0) = 0x4044400000000000 ∧ sumxF32 (sumxSlot 0x2880000000 16 0 0) = 0x42220000 := by decide +kernel

/-- 10_determinism_ledger_and_replay.md, below R288. -/
theorem test_provenance_sum : (12288 : BitVec 64) * 0x5A170C3E92D46B81 = 0x524BBB87D4283000 := by decide +kernel

/-- 12_faults_and_safe_state.md, above R323: "port lost" and the refusal "no partition store". -/
theorem test_fault_codes : uc 0x03 0x03 = 0xB0C3 ∧ refusal 0x05 0x10 = 0x3150 := by decide +kernel

/-- 14_grotto_health_and_gatehouse.md, worked example below R384: F of 21,600 s, and 16,000 units that take 1,216. -/
theorem test_health_decay : decay 21600 = 16742795 := by decide +kernel

theorem test_health_score : (({ s := 16000, win := 1216 } : Score).step 16742795).s = 17183 := by decide +kernel

/-- The same example: EXPEL is capped at ADVISE while the spares stand at 30, and no longer with 40. -/
theorem test_health_cap :
    (let s := leaf.modHs fun h => { h with tAdv := 16, tExp := 64, floor := 32, spares := 30, sparesAt := some leaf.tick }
     s.verdictOf { s := 17183 } = (1, true) ∧ (s.modHs fun h => { h with spares := 40 }).verdictOf { s := 17183 } = (2, false)) := by decide +kernel

/-- 16_register_map.md, below R415: the swap of T = 90,000,000,256 ns as five words. -/
theorem test_swap_words :
    (let p := { part with member := true, swap := some { t := htOf 90000000256, id := 1 } }
     let s := inPart p active
     [0x3C04, 0x3C08, 0x3C0C, 0x3C10, 0x3C14].map s.readWord =
       [some 0x05000000, some 0x0014F46B, some 0xFFFF0000, some 0x0B94FAFF, some 0xFFFFFFEB] ∧
       [0x3C04, 0x3C08, 0x3C0C, 0x3C10, 0x3C14].map (inPart part active).readWord =
       [some 0, some 0, some 0xFFFF0000, some 0xFFFFFFFF, some 0xFFFFFFFF]) := by decide +kernel

/-- 09_sync_objects_and_signals.md, worked example: posts of 1 to a COUNTER with THRESH 3, CONSUME and a wait of 2,000 ns. -/
theorem test_counter_wait :
    (let o : Obj := { type := .counter, thresh := 3, consume := true, wakeEn := true, wchan := 1, timeout := 2000 }
     let a := (o.apply 1 1 (htOf 89999999500)).obj
     let b := (a.apply 5 0 (htOf 90000000000)).obj
     let c := (b.apply 1 1 (htOf 90000000800)).obj
     let d := c.apply 1 1 (htOf 90000002000)
     a.value = 1 ∧ b.armed = true ∧ b.deadline = htOf 90000002000 ∧ c.value = 2 ∧ c.armed = true ∧ d.obj.value = 0 ∧ d.obj.armed = false ∧ d.wake = true) := by
  decide +kernel

/-- FIPS 180-4 and RFC 4231 test case 2, the CRC-32C check value, and the first SipHash-2-4 vector of its paper (R77, R282, R362). -/
theorem test_sha256 : packBytes 256 (sha256 [0x61, 0x62, 0x63]).reverse = 0xba7816bf8f01cfea414140de5dae2223b00361a396177a9cb410ff61f20015ad := by decide +kernel

theorem test_hmac : packBytes 256 (hmac256 [0x4A, 0x65, 0x66, 0x65] ([0x77, 0x68, 0x61, 0x74, 0x20, 0x64, 0x6F, 0x20, 0x79, 0x61, 0x20, 0x77, 0x61, 0x6E, 0x74, 0x20,
    0x66, 0x6F, 0x72, 0x20, 0x6E, 0x6F, 0x74, 0x68, 0x69, 0x6E, 0x67, 0x3F])).reverse = 0x5bdcc146bf60754e6a042426089575c75a003f089d2739839dec58b964ec3843 := by
  decide +kernel

theorem test_crc32c : crc32c [0x31, 0x32, 0x33, 0x34, 0x35, 0x36, 0x37, 0x38, 0x39] = 0xE3069283 := by decide +kernel

theorem test_siphash : sipHash 0x0706050403020100 0x0F0E0D0C0B0A0908 ((List.range 15).map (BitVec.ofNat 8)) = 0xA129CA6149BE45E5 := by decide +kernel

-- Single steps.

/-- The answer of a command on a state. -/
def after (c : Instr) (s : State) : State := (next (exec c s)).getD s

/-- R2, R4: GY_VERSION; a write to the Identity page has no effect. -/
theorem test_version : (after (.snapshotRead 4) leaf).rp.rdata = 0x04020000 ∧ (after (.registerWrite 4 5) leaf).rp.err = false ∧
    (after (.registerWrite 4 5) leaf).sun = leaf.sun := by decide +kernel

/-- R2: the Partitions page on a Leaf, and the Trellis page on a Hub. -/
theorem test_absent_pages : (after (.registerWrite 0x8000 1) leaf).rp.err = true ∧ (after (.snapshotRead 0x3000) hub).rp.err = true ∧ (after (.snapshotRead 0x3000) hub).rp.rdata = 0 ∧
    (after (.snapshotRead 0x3000) leaf).rp.err = false := by decide +kernel

/-- R22: PRESET in FREERUN loads the staged time and counts the step; not with a port in UP. -/
theorem test_preset :
    (after .preset (leaf.modSun fun u => { u with staged := htOf 5 })).sun.now = htOf 5 ∧ (after .preset leaf).sun.stepCnt = 1 ∧ (after .preset linked).rp.err = true := by
  decide +kernel

/-- R12: the step of an empty queue is one tick. -/
theorem test_tick : (next (step { State.reset with sun := leaf.sun })).map (fun t => t.sun.now) = some (leaf.sun.now + 0x10000) := by decide +kernel

/-- The step takes the command at the front, and the queue is first in, first out. -/
theorem test_queue : (next (step { leaf with pending := [.sunNowRead, .preset] })).map (fun t => (t.pending, t.sun.snap)) = some ([.preset], leaf.stamp) := by decide +kernel

/-- R82, R83: a disabled port goes to TRAIN, and on to ALIGN with its block lock. -/
theorem test_link : ((after (.tlEnSet 7 0x81) ready).port 7).st = .train ∧ ((after (.blockLock (7, 0x55555555555555555555555555555555)) (after (.tlEnSet 7 0x81) ready)).port 7).st = .align := by decide +kernel

/-- A port the Leaf lacks. -/
theorem test_absent_port : exec (.blockLock (8, 0)) leaf = .fault .absentUnit := rfl

/-- R61, R325: an unmasked UC latches FC_FIRST and raises the fault pair; FC_CLR with its SEQ clears both. -/
theorem test_fault_pins :
    (let s := after (.faultReport (.unit (report (uc 4 1)))) leaf
     s.fc.valid = true ∧ s.pins.flErrP = true ∧ s.pins.flErrN = false ∧ s.fc.safe = false ∧
       (let t := after (.fcClr ((s.fc.first.v.extractLsb' 16 16).setWidth 32)) s
        t.fc.valid = false ∧ t.pins.flErrP = false ∧ t.pins.flErrN = true)) := by decide +kernel

/-- R333: an FT takes the node to the safe state; R338: only a reset leaves it. -/
theorem test_safe_state :
    (let s := after (.faultReport (.unit (report (ft 1 3)))) leaf
     s.fc.safe = true ∧ s.pins.flHalt = true ∧ (after (.rstAssert .warm) s).fc.wasSafe = true ∧ (after .rstWarmRelease (after (.rstAssert .warm) s)).fc.safe = false) := by
  decide +kernel

/-- R52, R301: the host's nudge reads the doorbell block of a running ring once. -/
theorem test_nudge : ((after (.dbNudge 1) (giving 0 leaf)).eng.hm.map fun x => (x.2.1.write, x.2.1.beats)) = [(false, 1)] := by decide +kernel

/-- R215, R216: an opening drives mc_win of the controllers of its mask; one that no schedule steers stays high. -/
theorem test_window :
    (let c : Sched := { t0 := leaf.stamp, period := 1000, length := 100, count := 1, mask := 1, en := true }
     let s := (active.modBand fun b => { b with schedA := b.schedA.set 0 c }).modPins fun p => { p with mcPresent := 0x8001 }
     s.driveWin.pins.mcWin = 0x8000 ∧ (after (.windowOpen 0) s).pins.mcWin = 0x8001) := by decide +kernel

/-- R344: an OFF domain whose requirements are ON is asked to wake. -/
theorem test_wake :
    (let s := leaf.modDom 20 fun x => { x with en := false, st := .off }
     (after (.pdEnWrite 20 true) s).dom 20 = { en := true, st := .waking, req := true, since := some leaf.tick }) := by decide +kernel

/-- A root whose standby on port 7 owes the acknowledgement of a MIRROR, with ASSIGN waiting on port 6. -/
def mirroring : State :=
  { (linked.modPort 7 fun q => { q with replay := [⟨4, .mirror { ptag := 0, op := 2, shadow := false, nodeHi := 0, index := 1, entry := 0 }, false⟩] }).modPort 6
      fun _ => { upPort with waiting := [{ cls := 7, ready := 0, msg := .assign { hwid := 1, node := 1, root := 0, route := 0 } }] } with
    sun := { leaf.sun with isRoot := true }, elect := { leaf.elect with standbyPort := some 7 } }

/-- R128: the ASSIGN leaves only after the link acknowledgement of the MIRROR. -/
theorem test_mirror_before_assign :
    (mirroring.startAll.port 6).replay = [] ∧ ((mirroring.startAll.ackUpTo 7 4).startAll.port 6).waiting = [] := by decide +kernel

end Sys2Proof.Tests
end

section
/-!
SUPPORT. Every command answers: it names its unit by a guard, and beyond the guard it has a next state.
-/

namespace Sys2Proof.Machine

variable {s : State} {f : State → State}

/-- The result is a next state, or names a unit that the profile lacks. -/
def Answers (r : Result) : Prop := (∃ t, r = .next t) ∨ r = .fault .absentUnit

theorem Answers.next (t : State) : Answers (.next t) := .inl ⟨t, rfl⟩

theorem Answers.absent : Answers (.fault .absentUnit) := .inr rfl

/-- A guard that names an absent unit where it lets nothing pass. -/
theorem Answers.guarded {c : Prop} [Decidable c] {r : Result} (h : Answers r) : Answers (if c then r else .fault .absentUnit) := by
  split
  · exact h
  · exact .absent

theorem onPort_answers {p : PortNo} : Answers (onPort p s f) := .guarded (.next _)

theorem onLeaf_answers : Answers (onLeaf s f) := .guarded (.next _)

theorem onRef_answers {n : Nat} : Answers (onRef n s f) := .guarded (.next _)

theorem onDom_answers {d : Nat} : Answers (onDom d s f) := .guarded (.next _)

theorem onDomPin_answers {d : Nat} : Answers (onDomPin d s f) := .guarded (.next _)

theorem execPwPdAckRise_answers (d : BitVec 6) : Answers (execPwPdAckRise d s) := by
  unfold execPwPdAckRise
  split
  · exact onDomPin_answers
  · exact onDom_answers

theorem execPwPdAckFall_answers (d : BitVec 6) : Answers (execPwPdAckFall d s) := by
  unfold execPwPdAckFall
  split
  · exact onDomPin_answers
  · exact onDom_answers

/-- Every command answers, by the guard that it goes through: none where the whole block is meant or a register is written. -/
theorem exec_answers (c : Instr) (s : State) : Answers (exec c s) :=
  match c with
  | .rstAssert .. | .rstColdRelease .. | .rstWarmRelease | .oscLock | .pfailFirstHigh | .pfailAssert | .pfailRingDrainEnd | .pfailCommitDone
  | .capInEdge .. | .refAgreeCompare | .referenceConflictRepeat | .measureEnd | .holdHistoryStore | .accelStageEnd | .electSettle
  | .standbyTakeoverTimer | .noStandbyRootRepeat | .claimHoldEnd | .hmResponse .. | .hmTimeout .. | .registerWrite .. | .sunNowRead
  | .snapshotRead .. | .capTsRead .. | .preset | .tlEnSet .. | .tlEnClear .. | .retrain .. | .calNow .. | .accel | .reelect .. | .orgUtcOfsWrite ..
  | .trEnWrite .. | .seat | .reseat .. | .copy | .clrStretch | .clrSat | .bsClr | .soClr | .syncWinPost .. | .syncWinOp .. | .syncWinCfg ..
  | .dgLayerHiWrite .. | .ringEnSet .. | .ringEnClear .. | .ringStopped .. | .dbNudge .. | .doorbellPoll .. | .load | .fwVerifyDone | .chal
  | .chalDrawn | .chalExpire | .gateOpen .. | .gateExit | .sessionTimeLimit | .rekey | .confirm | .retire | .ship | .fuseId | .fuseKey
  | .lockoutEnd | .fcClr .. | .force | .fcInjReport .. | .fcInjUnit .. | .fcInjCrc .. | .fcInjWire .. | .fcInjSelf .. | .pdEnWrite ..
  | .bankOwnerWrite .. | .flush | .lgRdSelWrite .. | .ledgerReadDone | .clrHard | .hsClr | .hsSparesWrite .. | .hsFloorWrite .. | .sparesStale
  | .winOpenNow .. | .winCloseNow .. | .capClr .. | .bvClr | .bistGo .. | .bistDone .. | .coreHalt .. | .coreStep .. | .unsupportedOpcode ..
  | .launchAt .. | .barrierArm .. | .signal .. | .swapAt .. | .cfgWrite .. | .partitionOpen .. | .partitionClose .. | .parkAt .. | .windowSet ..
  | .dump .. | .ledgerNote .. | .captureArm .. | .loadEnv .. | .fence .. | .fenceDone .. | .replayStart .. | .swap .. | .treeOfferRepeat
  | .delayPeriodic | .locationExpire .. | .openAckTimeout .. | .openTick .. | .closeTick .. | .quiescePoint .. | .deferTimeout .. | .reopenHoldEnd
  | .dumpAbandon | .faultReport .. | .collectorSelfFault | .sundialCheck | .controlCoreWatchdog .. | .safeDrainEnd | .odoInterval
  | .pageProgramDone .. | .sectorEraseDone | .ledgerScanDone .. | .tempSample | .healthWindowEnd | .healthCharge | .pwPfailLowSample
  | .ckXoEdgesCounted | .ckHmStop | .vddGyOff | .checkerPatternLock => .next _
  | .rstLinkAssert .. | .rstLinkRelease .. | .beatSend .. | .beatRx .. | .beatTimeout .. | .acknakRx .. | .trainRx .. | .nodeDownRx ..
  | .lastGaspRx .. | .flitErrorRx .. | .stompedFlitRx .. | .unknownFlitRx .. | .blockLock .. | .flitLock .. | .flitLockLost .. | .calibrateDone ..
  | .linkStateTimeout .. | .lostHoldEnd .. | .downHeldEnd .. | .replayTimeout .. | .forcedRetrain .. | .flitAging .. | .phyRecal .. | .launchRx ..
  | .swapRx .. | .parkRx .. | .arriveRx .. | .arriveRedRx .. | .releaseRx .. | .releaseRedRx .. | .signalRx .. | .announceRx .. | .assignRx ..
  | .treeRx .. | .parentWaitEnd .. | .electRx .. | .mirrorRx .. | .reportRepeat .. | .delayRx .. | .partOpenRx .. | .partOpenAckRx ..
  | .partDeferredRx .. | .partRefusedRx .. | .partCloseRx .. | .partCloseAckRx .. | .partFaultRx .. | .healthRx .. | .trainSend .. => onPort_answers
  | .mcForcedEdge .. | .trCellHoldReq .. | .trRgnHoldReq .. | .holdBitRx .. | .cellArrive .. | .cellContrib .. | .cellPost .. | .seatingEnd ..
  | .trellisSetSwitch | .openNotReceived .. | .launchCheck .. | .windowOpen .. | .windowClose .. | .loadStep .. | .signalEntry .. | .park ..
  | .captureOpen .. | .captureClose .. | .eventPresent .. | .releaseDue .. | .trellisWordRx .. | .trellisPacketRx .. | .unitErrorReport ..
  | .resultRx .. | .checkSend | .regionClockSlip .. | .laneClockLost .. | .hostClockWindow .. | .trellisAccessRetry .. | .telemReport ..
  | .errorWireFault .. | .stepOverrun .. | .overrunReadDone .. | .loadLevelChange | .pwLendRise | .pwLendFall | .resumeTick .. | .waitTimeout ..
  | .timerFire .. | .barrierTimeout .. | .replayInject .. | .trellisActionSample .. | .contextSlotClearDone .. => onLeaf_answers
  | .refInEdge .. | .refEdgeMissing .. | .refFreqCheck .. | .waitToRestoreEnd .. => onRef_answers
  | .powerDomainTimeout .. | .bankClearDone .. => onDom_answers
  | .islandWireFault .. | .tdcCalibrationDone .. | .tdcRecal .. => .guarded (.next _)
  | .pwPdAckRise d => execPwPdAckRise_answers d
  | .pwPdAckFall d => execPwPdAckFall_answers d

end Sys2Proof.Machine
end

section
/-!
SUPPORT. What each command leaves alone: but for those of `reachesKey`, the key of the state.
-/

namespace Sys2Proof.Machine

variable {s : State}

theorem execForce_still : Still s (execForce s) := onReg_still fun _ => (State.rpOk_key ..).trans (ite_key (State.raiseNow_key ..) rfl)

theorem execIslandWireFault_still (island : Byte) : Still s (execIslandWireFault island s) := by
  unfold execIslandWireFault
  split
  · exact whenAlive_still fun _ => State.raiseNow_key ..
  · exact .fault _

theorem execTdcCalibrationDone_still (failed : Option Byte) : Still s (execTdcCalibrationDone failed s) := by
  unfold execTdcCalibrationDone
  split
  · exact whenAlive_still fun _ => ite_key (State.calibrated_key ..) rfl
  · exact .fault _

theorem execTdcRecal_still (failed : Option Byte) : Still s (execTdcRecal failed s) := by
  unfold execTdcRecal
  split
  · exact whenAlive_still fun _ => ite_key ((State.modFw_key ..).trans (State.calibrated_key ..)) rfl
  · exact .fault _

/-- MODE of the word that an FC_INJ command writes (R340). -/
theorem injWord_mode (w : Word) {m : Nat} (h : m < 8) : ((injWord w m).extractLsb' 16 3).toNat = m := by
  have bits : (injWord w m).extractLsb' 16 3 = BitVec.ofNat 3 m := by
    refine BitVec.eq_of_getLsbD_eq fun i hi => ?_
    have shifted : (m * 2 ^ 16).testBit (16 + i) = m.testBit i := by rw [Nat.testBit_mul_two_pow]; simp
    simp only [injWord, BitVec.getLsbD_extractLsb', BitVec.getLsbD_or, BitVec.getLsbD_and, BitVec.getLsbD_not, BitVec.getLsbD_ofNat, shifted]
    obtain rfl | rfl | rfl : i = 0 ∨ i = 1 ∨ i = 2 := by omega
    all_goals simp
  rw [bits, BitVec.toNat_ofNat, Nat.mod_eq_of_lt h]

/-- Only a fault of the collector itself (MODE 4) changes its record at once; the other injections report, or set up a flit to
be damaged. -/
theorem State.inject1_key {mode : Nat} (code : BitVec 16) (count : Byte) (h : mode ≠ 4) : (s.inject1 code mode count).key = s.key := by
  have drew2 : s.drew.drew.key = s.key := (State.drew_key _).trans (State.drew_key s)
  unfold State.inject1
  refine ite_key ((State.raise_key ..).trans drew2) (ite_key (ite_key ((State.unitFault_key ..).trans drew2) rfl) ?_)
  refine ite_key (State.modPort_key ..) (ite_key (ite_key (State.unitFault_key ..) rfl) ?_)
  rw [if_neg h]

theorem State.writeFcInj_key {w : Word} (h : (w.extractLsb' 16 3).toNat ≠ 4) : (s.writeFcInj w).key = s.key := by
  unfold State.writeFcInj
  refine ite_key (State.rpErr_key s) ((State.rpOk_key ..).trans ?_)
  refine (ite_key (State.inject1_key _ _ h) rfl).trans (State.modFc_key _ _ fun _ => rfl)

/-- FC_INJ of a MODE other than 4. -/
theorem onFcInj_still (w : Word) {m : Nat} (h : m < 4) : Still s (onReg 0 s fun t => t.writeFcInj (injWord w m)) :=
  onReg_still fun _ => State.writeFcInj_key (by rw [injWord_mode w (by omega)]; omega)

/-- Every command but those of `reachesKey` leaves the key of the state as it was. -/
theorem exec_still (c : Instr) (h : reachesKey c = false) : Still s (exec c s) := by
  cases c with
  | rstAssert | rstColdRelease | rstWarmRelease | pfailAssert | pfailRingDrainEnd | pwPdAckRise | pwPdAckFall | powerDomainTimeout | bankClearDone
  | hmResponse | hmTimeout | registerWrite | load | fwVerifyDone | fcClr | fcInjSelf | pdEnWrite | bistGo | faultReport | collectorSelfFault
  | ckXoEdgesCounted | vddGyOff => cases h
  | fcInjReport w => exact onFcInj_still w (by decide)
  | fcInjUnit w => exact onFcInj_still w (by decide)
  | fcInjCrc w => exact onFcInj_still w (by decide)
  | fcInjWire w => exact onFcInj_still w (by decide)
  | oscLock => exact execOscLock_still
  | rstLinkAssert p => exact execRstLinkAssert_still p
  | rstLinkRelease p => exact execRstLinkRelease_still p
  | pfailFirstHigh => exact execPfailFirstHigh_still
  | pfailCommitDone => exact execPfailCommitDone_still
  | mcForcedEdge m stamp => exact execMcForcedEdge_still m stamp
  | capInEdge n falling stamp => exact execCapInEdge_still n falling stamp
  | refInEdge n stamp widthNs => exact execRefInEdge_still n stamp widthNs
  | refEdgeMissing n => exact execRefEdgeMissing_still n
  | refFreqCheck n ppb => exact execRefFreqCheck_still n ppb
  | waitToRestoreEnd n => exact execWaitToRestoreEnd_still n
  | refAgreeCompare => exact execRefAgreeCompare_still
  | referenceConflictRepeat => exact execReferenceConflictRepeat_still
  | measureEnd => exact execMeasureEnd_still
  | holdHistoryStore => exact execHoldHistoryStore_still
  | accelStageEnd => exact execAccelStageEnd_still
  | electSettle => exact execElectSettle_still
  | standbyTakeoverTimer => exact execStandbyTakeoverTimer_still
  | noStandbyRootRepeat => exact execNoStandbyRootRepeat_still
  | claimHoldEnd => exact execClaimHoldEnd_still
  | trCellHoldReq a level => exact execTrCellHoldReq_still a level
  | trRgnHoldReq region level => exact execTrRgnHoldReq_still region level
  | holdBitRx region level => exact execHoldBitRx_still region level
  | cellArrive a chan => exact execCellArrive_still a chan
  | cellContrib a ctl data => exact execCellContrib_still a ctl data
  | cellPost a obj op val => exact execCellPost_still a obj op val
  | sunNowRead => exact execSunNowRead_still
  | snapshotRead addr => exact execSnapshotRead_still addr
  | capTsRead n => exact execCapTsRead_still n
  | preset => exact execPreset_still
  | tlEnSet p w => exact execTlEnSet_still p w
  | tlEnClear p w => exact execTlEnClear_still p w
  | retrain p => exact execRetrain_still p
  | calNow p => exact execCalNow_still p
  | accel => exact execAccel_still
  | reelect w => exact execReelect_still w
  | orgUtcOfsWrite w => exact execOrgUtcOfsWrite_still w
  | trEnWrite w => exact execTrEnWrite_still w
  | seat => exact execSeat_still
  | reseat region => exact execReseat_still region
  | seatingEnd m => exact execSeatingEnd_still m
  | copy => exact execCopy_still
  | trellisSetSwitch => exact execTrellisSetSwitch_still
  | clrStretch => exact execClrStretch_still
  | clrSat => exact execClrSat_still
  | bsClr => exact execBsClr_still
  | soClr => exact execSoClr_still
  | syncWinPost obj w => exact execSyncWinPost_still obj w
  | syncWinOp obj w => exact execSyncWinOp_still obj w
  | syncWinCfg obj w => exact execSyncWinCfg_still obj w
  | dgLayerHiWrite w => exact execDgLayerHiWrite_still w
  | ringEnSet n w => exact execRingEnSet_still n w
  | ringEnClear n w => exact execRingEnClear_still n w
  | ringStopped n => exact execRingStopped_still n
  | dbNudge w => exact execDbNudge_still w
  | doorbellPoll n => exact execDoorbellPoll_still n
  | chal => exact execChal_still
  | chalDrawn => exact execChalDrawn_still
  | chalExpire => exact execChalExpire_still
  | gateOpen scope => exact execGateOpen_still scope
  | gateExit => exact execGateExit_still
  | sessionTimeLimit => exact execSessionTimeLimit_still
  | rekey => exact execRekey_still
  | confirm => exact execConfirm_still
  | retire => exact execRetire_still
  | ship => exact execShip_still
  | fuseId => exact execFuseId_still
  | fuseKey => exact execFuseKey_still
  | lockoutEnd => exact execLockoutEnd_still
  | force => exact execForce_still
  | bankOwnerWrite b code => exact execBankOwnerWrite_still b code
  | flush => exact execFlush_still
  | lgRdSelWrite w => exact execLgRdSelWrite_still w
  | ledgerReadDone => exact execLedgerReadDone_still
  | clrHard => exact execClrHard_still
  | hsClr => exact execHsClr_still
  | hsSparesWrite w => exact execHsSparesWrite_still w
  | hsFloorWrite w => exact execHsFloorWrite_still w
  | sparesStale => exact execSparesStale_still
  | winOpenNow n => exact execWinOpenNow_still n
  | winCloseNow n => exact execWinCloseNow_still n
  | capClr n => exact execCapClr_still n
  | bvClr => exact execBvClr_still
  | bistDone firstFail => exact execBistDone_still firstFail
  | coreHalt w => exact execCoreHalt_still w
  | coreStep w => exact execCoreStep_still w
  | unsupportedOpcode u d => exact execUnsupportedOpcode_still u d
  | launchAt u d => exact execLaunchAt_still u d
  | barrierArm u d => exact execBarrierArm_still u d
  | signal u d => exact execSignal_still u d
  | swapAt u d => exact execSwapAt_still u d
  | cfgWrite u d => exact execCfgWrite_still u d
  | partitionOpen u d => exact execPartitionOpen_still u d
  | partitionClose u d => exact execPartitionClose_still u d
  | parkAt u d => exact execParkAt_still u d
  | windowSet u d => exact execWindowSet_still u d
  | dump u d => exact execDump_still u d
  | ledgerNote u d => exact execLedgerNote_still u d
  | captureArm u d => exact execCaptureArm_still u d
  | loadEnv u d => exact execLoadEnv_still u d
  | fence u d => exact execFence_still u d
  | fenceDone u => exact execFenceDone_still u
  | replayStart u d => exact execReplayStart_still u d
  | openNotReceived part => exact execOpenNotReceived_still part
  | launchCheck seq => exact execLaunchCheck_still seq
  | windowOpen sched => exact execWindowOpen_still sched
  | windowClose sched => exact execWindowClose_still sched
  | loadStep seq => exact execLoadStep_still seq
  | signalEntry seq => exact execSignalEntry_still seq
  | swap ptag => exact execSwap_still ptag
  | park seq => exact execPark_still seq
  | captureOpen seq => exact execCaptureOpen_still seq
  | captureClose seq => exact execCaptureClose_still seq
  | eventPresent a => exact execEventPresent_still a
  | beatSend p stamp => exact execBeatSend_still p stamp
  | beatRx p m stamp => exact execBeatRx_still p m stamp
  | beatTimeout p => exact execBeatTimeout_still p
  | acknakRx p seq nak => exact execAcknakRx_still p seq nak
  | trainRx p m => exact execTrainRx_still p m
  | nodeDownRx p m => exact execNodeDownRx_still p m
  | lastGaspRx p m => exact execLastGaspRx_still p m
  | flitErrorRx p f => exact execFlitErrorRx_still p f
  | stompedFlitRx f => exact execStompedFlitRx_still f
  | unknownFlitRx p type sequenced => exact execUnknownFlitRx_still p type sequenced
  | blockLock headers => exact execBlockLock_still headers
  | flitLock blocks => exact execFlitLock_still blocks
  | flitLockLost failed => exact execFlitLockLost_still failed
  | calibrateDone p => exact execCalibrateDone_still p
  | linkStateTimeout p => exact execLinkStateTimeout_still p
  | lostHoldEnd p => exact execLostHoldEnd_still p
  | downHeldEnd p => exact execDownHeldEnd_still p
  | replayTimeout p => exact execReplayTimeout_still p
  | forcedRetrain p => exact execForcedRetrain_still p
  | flitAging p => exact execFlitAging_still p
  | phyRecal p => exact execPhyRecal_still p
  | launchRx p m => exact execLaunchRx_still p m
  | swapRx p m => exact execSwapRx_still p m
  | parkRx p m => exact execParkRx_still p m
  | arriveRx p m tc => exact execArriveRx_still p m tc
  | arriveRedRx p m tc => exact execArriveRedRx_still p m tc
  | releaseRx p m => exact execReleaseRx_still p m
  | releaseRedRx p m => exact execReleaseRedRx_still p m
  | releaseDue ptag bid => exact execReleaseDue_still ptag bid
  | signalRx p m => exact execSignalRx_still p m
  | announceRx p m => exact execAnnounceRx_still p m
  | assignRx p m => exact execAssignRx_still p m
  | treeRx p m => exact execTreeRx_still p m
  | treeOfferRepeat => exact execTreeOfferRepeat_still
  | parentWaitEnd p => exact execParentWaitEnd_still p
  | electRx p m => exact execElectRx_still p m
  | mirrorRx p m => exact execMirrorRx_still p m
  | reportRepeat p => exact execReportRepeat_still p
  | delayRx p m => exact execDelayRx_still p m
  | delayPeriodic => exact execDelayPeriodic_still
  | locationExpire hwid => exact execLocationExpire_still hwid
  | partOpenRx p m => exact execPartOpenRx_still p m
  | partOpenAckRx p m => exact execPartOpenAckRx_still p m
  | partDeferredRx p m => exact execPartDeferredRx_still p m
  | partRefusedRx p m => exact execPartRefusedRx_still p m
  | partCloseRx p m => exact execPartCloseRx_still p m
  | partCloseAckRx p m => exact execPartCloseAckRx_still p m
  | partFaultRx p m => exact execPartFaultRx_still p m
  | healthRx p m => exact execHealthRx_still p m
  | openAckTimeout part => exact execOpenAckTimeout_still part
  | openTick part => exact execOpenTick_still part
  | closeTick part => exact execCloseTick_still part
  | quiescePoint part => exact execQuiescePoint_still part
  | deferTimeout part => exact execDeferTimeout_still part
  | reopenHoldEnd => exact execReopenHoldEnd_still
  | trellisWordRx level a w => exact execTrellisWordRx_still level a w
  | trellisPacketRx level a src words => exact execTrellisPacketRx_still level a src words
  | unitErrorReport a code cnt => exact execUnitErrorReport_still a code cnt
  | resultRx level a ctl data => exact execResultRx_still level a ctl data
  | checkSend => exact execCheckSend_still
  | regionClockSlip region => exact execRegionClockSlip_still region
  | laneClockLost level a child => exact execLaneClockLost_still level a child
  | hostClockWindow ends => exact execHostClockWindow_still ends
  | trellisAccessRetry write level a => exact execTrellisAccessRetry_still write level a
  | telemReport level a due => exact execTelemReport_still level a due
  | errorWireFault level a child => exact execErrorWireFault_still level a child
  | islandWireFault island => exact execIslandWireFault_still island
  | stepOverrun ptag => exact execStepOverrun_still ptag
  | overrunReadDone ptag region => exact execOverrunReadDone_still ptag region
  | loadLevelChange => exact execLoadLevelChange_still
  | pwLendRise => exact execPwLendRise_still
  | pwLendFall => exact execPwLendFall_still
  | resumeTick part => exact execResumeTick_still part
  | waitTimeout obj => exact execWaitTimeout_still obj
  | timerFire obj => exact execTimerFire_still obj
  | barrierTimeout bid => exact execBarrierTimeout_still bid
  | replayInject n => exact execReplayInject_still n
  | dumpAbandon => exact execDumpAbandon_still
  | sundialCheck => exact execSundialCheck_still
  | controlCoreWatchdog core => exact execControlCoreWatchdog_still core
  | safeDrainEnd => exact execSafeDrainEnd_still
  | odoInterval => exact execOdoInterval_still
  | pageProgramDone readBackOk => exact execPageProgramDone_still readBackOk
  | sectorEraseDone => exact execSectorEraseDone_still
  | ledgerScanDone answers idBytes => exact execLedgerScanDone_still answers idBytes
  | tempSample => exact execTempSample_still
  | healthWindowEnd => exact execHealthWindowEnd_still
  | healthCharge => exact execHealthCharge_still
  | tdcCalibrationDone failed => exact execTdcCalibrationDone_still failed
  | tdcRecal failed => exact execTdcRecal_still failed
  | trellisActionSample ix => exact execTrellisActionSample_still ix
  | contextSlotClearDone slot => exact execContextSlotClearDone_still slot
  | pwPfailLowSample => exact execPwPfailLowSample_still
  | trainSend p => exact execTrainSend_still p
  | ckHmStop => exact execCkHmStop_still
  | checkerPatternLock => exact execCheckerPatternLock_still

/-- The bytes of the banks stand in their cells and in the marks of the banks under test. -/
theorem read_of_key {t : State} (h : t.key = s.key) (a : Nat) : t.pw.read a = s.pw.read a := by
  obtain ⟨-, -, -, -, hmem, hscrambled, -, -⟩ := key_parts h
  simp only [Power.read, Power.unlisted, hmem, hscrambled]

end Sys2Proof.Machine
end

section
/-!
SUPPORT. What every command upholds: the invariant of the block, the profile and the queue.
-/

namespace Sys2Proof.Machine

/-- `t` has the invariant if `s` has it, and the profile and the queue of `s`. -/
structure Upholds (s t : State) : Prop where
  inv : s.Inv → t.Inv
  profile : t.profile = s.profile
  pending : t.pending = s.pending

variable {s t u : State}

theorem Upholds.refl : Upholds s s := ⟨id, rfl, rfl⟩

theorem Upholds.trans (h : Upholds s t) (g : Upholds t u) : Upholds s u :=
  ⟨fun i => g.inv (h.inv i), g.profile.trans h.profile, g.pending.trans h.pending⟩

theorem Upholds.of_key (h : t.key = s.key) : Upholds s t :=
  have ⟨hprofile, hpending, _⟩ := key_parts h
  ⟨Inv.of_key h, hprofile, hpending⟩

theorem Upholds.of_kept (hup : s.isUp = true) (h : Kept s t) : Upholds s t := ⟨h.inv hup, h.profile, h.pending⟩

theorem Upholds.ite {c : Prop} [Decidable c] (h : c → Upholds s t) (g : ¬ c → Upholds s u) : Upholds s (if c then t else u) := by
  split
  · exact h ‹_›
  · exact g ‹_›

/-- A block that is not up is not alive. -/
theorem not_alive_of_not_up (h : s.isUp = false) : s.alive = false := by
  simp only [State.isUp] at h
  simp [State.alive, h]

theorem not_up_of_unpowered (h : s.pins.powered = false) : s.isUp = false := by simp [State.isUp, h]

theorem not_up_of_reset (h : s.pins.rst ≠ .none) : s.isUp = false := by simp [State.isUp, h]

/-- A node that is not up is not in the safe state. -/
theorem safe_of_not_up (i : s.Inv) (h : s.isUp = false) : s.fc.safe = false := by
  obtain ⟨-, -, -, hsafe, -, -⟩ := i
  cases hs : s.fc.safe
  · rfl
  · rw [hsafe hs] at h
    cases h

-- Commands of a block that is up; any other they leave alone.

/-- A block that is not alive keeps its key. -/
def Idle (s : State) (r : Result) : Prop := s.alive = false → Still s r

theorem whenAlive_idle {f : State → State} : Idle s (whenAlive s f) := fun h => .next (by simp [h])

theorem onReg_idle {d : Nat} {f : State → State} : Idle s (onReg d s f) := fun h =>
  .next (ite_key (by simpa [State.regOk, h] using State.rpErr_key s) rfl)

theorem onSafeReg_idle {f : State → State} : Idle s (onSafeReg s f) := fun h =>
  .next (ite_key (by simpa [h] using State.rpErr_key s) rfl)

theorem onDom_idle {d : Nat} {f : State → State} : Idle s (onDom d s f) := fun h => by
  unfold onDom
  split
  · exact whenAlive_idle h
  · exact .fault _

theorem onDomPin_still {d : Nat} {f : State → State} (h : ∀ t, (f t).key = t.key) : Still s (onDomPin d s f) := by
  unfold onDomPin
  split
  · exact .next (ite_key (h s) rfl)
  · exact .fault _

theorem execPwPdAckRise_idle (d : BitVec 6) : Idle s (execPwPdAckRise d s) := fun h => by
  unfold execPwPdAckRise
  rw [if_pos (by simp [h])]
  exact onDomPin_still fun _ => State.modDom_key ..

theorem execPwPdAckFall_idle (d : BitVec 6) : Idle s (execPwPdAckFall d s) := fun h => by
  unfold execPwPdAckFall
  rw [if_pos (by simp [h])]
  exact onDomPin_still fun _ => State.modDom_key ..

theorem Keeps.upholds {r : Result} (k : Keeps s r) (i : Idle s r) (h : r = .next t) : Upholds s t := by
  cases hup : s.isUp
  · exact .of_key (i (not_alive_of_not_up hup) t h)
  · exact .of_kept hup (k hup t h)

-- The resets and the supply (R39, R44, R45).

/-- A cold reset, or the loss of the supply, with pins that show no fault. -/
theorem State.coldClear_upholds {p : Pins} (hp : p.flErrP = false) (hn : p.flErrN = p.powered)
    (hh : p.flHalt = (p.powered && p.rst != .none)) : Upholds s (s.coldClear p) :=
  have ⟨hprofile, hpending, _⟩ := key_parts (State.cutFlash_key s)
  ⟨fun i => State.coldClear_inv i hp hn hh, hprofile, hpending⟩

theorem State.warmClear_upholds {p : Pins} (hp : p.flErrP = false) (hn : p.flErrN = p.powered)
    (hh : p.flHalt = (p.powered && p.rst != .none)) (hr : p.rst ≠ .none) : Upholds s (s.warmClear p) :=
  ⟨fun i => State.warmClear_inv i hp hn hh hr, rfl, rfl⟩

/-- The level of a reset input changes nothing but itself where the block has no supply. -/
theorem State.unpoweredReset_upholds (k : RstSt) (h : s.pins.powered = false) : Upholds s (s.modPins fun p => { p with rst := k }) := by
  refine ⟨fun i => ?_, rfl, rfl⟩
  have hsafe : s.fc.safe = false := safe_of_not_up i (not_up_of_unpowered h)
  obtain ⟨hwf, hwhole, hpins, -, hports, hdoms⟩ := i
  refine ⟨hwf, hwhole, ?_, fun e => ?_, hports, hdoms⟩
  · simpa [State.pinsTrue, State.isUp, h] using hpins
  · simp [hsafe] at e

theorem State.outOfReset_profile : s.outOfReset.profile = s.profile := (key_parts (State.bringPd1_key _)).1

theorem State.outOfReset_pending : s.outOfReset.pending = s.pending := (key_parts (State.bringPd1_key _)).2.1

/-- The end of a cold reset with ck_xo running. -/
theorem State.coldStart_upholds (hp : s.pins.powered = true) (hr : s.pins.rst ≠ .none) : Upholds s s.coldStart := by
  obtain ⟨hprofile, hpending, -⟩ := key_parts (t := s.coldStart) (State.lgSend_key ..)
  refine ⟨fun i => ?_, hprofile.trans State.outOfReset_profile, hpending.trans State.outOfReset_pending⟩
  have hsafe : s.fc.safe = false := safe_of_not_up i (not_up_of_reset hr)
  obtain ⟨hwf, hwhole, -, -, hports, hdoms⟩ := i
  exact State.coldStart_inv hwf hwhole hp hsafe hports hdoms

/-- The end of a warm reset with ck_xo running. -/
theorem State.warmStart_upholds (hp : s.pins.powered = true) (hr : s.pins.rst ≠ .none) : Upholds s s.warmStart := by
  refine ⟨fun i => ?_, ?_, ?_⟩
  · have hsafe : s.fc.safe = false := safe_of_not_up i (not_up_of_reset hr)
    obtain ⟨hwf, hwhole, -, -, hports, hdoms⟩ := i
    exact State.warmStart_inv hwf hwhole hp hsafe hports hdoms
  · unfold State.warmStart; dsimp only; split <;> exact State.outOfReset_profile
  · unfold State.warmStart; dsimp only; split <;> exact State.outOfReset_pending

/-- The end of a cold reset: it may wait for the other reset, or for the edges of ck_xo. -/
theorem State.endCold_upholds (hp : s.pins.powered = true) (hr : s.pins.rst ≠ .none) : Upholds s s.endCold := by
  unfold State.endCold
  exact .ite (fun _ => .refl) fun _ => .ite (fun _ => State.coldStart_upholds hp hr) fun _ => ⟨id, rfl, rfl⟩

theorem execRstAssert_upholds (k : RstKind) (h : execRstAssert k s = .next t) : Upholds s t := by
  cases h
  cases k with
  | cold =>
    refine .trans (t := s.modPins fun p => { p with coldLow := true }) ⟨id, rfl, rfl⟩ (.ite (fun hp => ?_) fun hp => ?_)
    · exact State.coldClear_upholds rfl hp.symm (by simpa [Pins.inReset] using hp)
    · exact State.unpoweredReset_upholds _ (by simpa using hp)
  | warm =>
    refine .trans (t := s.modPins fun p => { p with warmLow := true }) ⟨id, rfl, rfl⟩ ?_
    refine .ite (fun _ => .refl) fun _ => .ite (fun hp => ?_) fun hp => ?_
    · exact State.warmClear_upholds rfl hp.symm (by simpa [Pins.inReset] using hp) nofun
    · exact State.unpoweredReset_upholds _ (by simpa using hp)

/-- The pins of a block that is held in a cold reset with its supply on. -/
theorem State.heldCold_upholds (xo : BitVec 3) (h : s.isUp = false) :
    Upholds s (s.modPins fun p => { p with
      powered := true, rst := .cold, coldLow := false, xoSel := xo, flErrP := false, flErrN := true, flHalt := true }) := by
  refine ⟨fun i => ?_, rfl, rfl⟩
  have hsafe := safe_of_not_up i h
  obtain ⟨hwf, hwhole, -, -, hports, hdoms⟩ := i
  refine ⟨hwf, hwhole, rfl, fun e => ?_, hports, hdoms⟩
  simp [hsafe] at e

theorem execRstColdRelease_upholds (xo : BitVec 3) (h : execRstColdRelease xo s = .next t) : Upholds s t := by
  cases h
  refine .ite (fun hc => ?_) fun _ => .refl
  have hup : s.isUp = false := by
    simp only [Bool.or_eq_true, decide_eq_true_eq, Bool.not_eq_true'] at hc
    rcases hc with hr | hp
    · exact not_up_of_reset (by rw [hr]; decide)
    · exact not_up_of_unpowered hp
  exact (State.heldCold_upholds xo hup).trans (State.endCold_upholds rfl nofun)

theorem execRstWarmRelease_upholds (h : execRstWarmRelease s = .next t) : Upholds s t := by
  cases h
  refine .trans (t := s.modPins fun p => { p with warmLow := false }) ⟨id, rfl, rfl⟩ (.ite (fun hc => ?_) fun _ => ?_)
  · simp only [Bool.and_eq_true, decide_eq_true_eq] at hc
    obtain ⟨⟨hr, hp⟩, -⟩ := hc
    exact State.endCold_upholds hp (by rw [hr]; decide)
  refine .ite (fun _ => .refl) fun hr => .ite (fun hp => ?_) fun hp => .ite (fun _ => ?_) fun _ => ⟨id, rfl, rfl⟩
  · exact State.unpoweredReset_upholds _ (by simpa using hp)
  · have hr : s.pins.rst = .warm := by simpa using hr
    exact State.warmStart_upholds (by simpa using hp) (by simp [hr])

theorem execCkXoEdgesCounted_upholds (h : execCkXoEdgesCounted s = .next t) : Upholds s t := by
  cases h
  refine .ite (fun hc => ?_) fun _ => .refl
  obtain ⟨hp, -⟩ := (Bool.and_eq_true ..).mp hc
  refine .trans (t := s.modPins fun p => { p with xoRunning := true }) ⟨id, rfl, rfl⟩ ?_
  dsimp only
  split
  next hr => exact State.coldStart_upholds hp (by rw [hr]; decide)
  next hr => exact State.warmStart_upholds hp (by rw [hr]; decide)
  next => exact ⟨id, rfl, rfl⟩

theorem execVddGyOff_upholds (h : execVddGyOff s = .next t) : Upholds s t := by
  cases h
  refine .ite (fun hp => ?_) fun _ => .refl
  have hdoms : (s.drew.modPw fun p => { p with doms := p.doms.map fun x => { x with ack := false } }).key = s.key :=
    (State.modPw_key _ _ fun p => by simp only [Power.core, List.length_map]).trans (State.drew_key s)
  exact .trans (.of_key hdoms) (State.coldClear_upholds rfl rfl rfl)

/-- Every command upholds the invariant, the profile and the queue. -/
theorem exec_upholds (c : Instr) (h : exec c s = .next t) : Upholds s t := by
  by_cases hc : reachesKey c = false
  · exact .of_key (exec_still c hc t h)
  cases c with
  | rstAssert k => exact execRstAssert_upholds k h
  | rstColdRelease xo => exact execRstColdRelease_upholds xo h
  | rstWarmRelease => exact execRstWarmRelease_upholds h
  | ckXoEdgesCounted => exact execCkXoEdgesCounted_upholds h
  | vddGyOff => exact execVddGyOff_upholds h
  | pfailAssert => exact execPfailAssert_keeps.upholds whenAlive_idle h
  | pfailRingDrainEnd => exact execPfailRingDrainEnd_keeps.upholds whenAlive_idle h
  | hmResponse tag err data => exact (execHmResponse_keeps tag err data).upholds whenAlive_idle h
  | hmTimeout tag => exact (execHmTimeout_keeps tag).upholds whenAlive_idle h
  | fwVerifyDone => exact execFwVerifyDone_keeps.upholds whenAlive_idle h
  | faultReport source => exact (execFaultReport_keeps source).upholds whenAlive_idle h
  | collectorSelfFault => exact execCollectorSelfFault_keeps.upholds whenAlive_idle h
  | pwPdAckRise d => exact (execPwPdAckRise_keeps d).upholds (execPwPdAckRise_idle d) h
  | pwPdAckFall d => exact (execPwPdAckFall_keeps d).upholds (execPwPdAckFall_idle d) h
  | powerDomainTimeout d => exact (execPowerDomainTimeout_keeps d).upholds onDom_idle h
  | bankClearDone d => exact (execBankClearDone_keeps d).upholds onDom_idle h
  | load => exact execLoad_keeps.upholds onReg_idle h
  | pdEnWrite d en => exact (execPdEnWrite_keeps d en).upholds onReg_idle h
  | bistGo w => exact (execBistGo_keeps w).upholds onReg_idle h
  | fcInjSelf w => exact (execFcInjSelf_keeps w).upholds onReg_idle h
  | fcClr w => exact (execFcClr_keeps w).upholds onSafeReg_idle h
  | registerWrite a w => exact (execRegisterWrite_keeps a w).upholds onSafeReg_idle h
  | _ => exact absurd rfl hc

/-- The passing of a tick (R13, R388): a block that is not alive stands still. -/
theorem State.passTick_inv (i : s.Inv) : s.passTick.Inv := by
  cases hup : s.isUp
  · have idle : s.passTick = s := by simp [State.passTick, not_alive_of_not_up hup]
    rwa [idle]
  · exact State.passTick_kept.inv hup i

theorem step_inv (i : s.Inv) (h : step s = .next t) : t.Inv := by
  unfold step at h
  split at h
  next c rest _ => exact (exec_upholds c h).inv i
  next => cases h; exact State.passTick_inv i

end Sys2Proof.Machine
end

section
/-!
SUPPORT. The read of a register that no snapshot holds and that has no side effect, at the offset of GY_VERSION.
-/

namespace Sys2Proof.Machine

variable {s : State}

/-- The constant of R4, and the parts of the release number that it spells. -/
theorem gyVersion_bytes :
    gyVersion = 0x04020000 ∧ gyVersion.extractLsb' 24 8 = 4 ∧ gyVersion.extractLsb' 16 8 = 2 ∧ gyVersion.extractLsb' 8 8 = 0 ∧
      gyVersion.extractLsb' 0 8 = 0 := by decide

/-- No wide value has a word at the offset of GY_VERSION. -/
theorem snapped_version (r : RegPort) : r.snapped 0x04 = none := by
  simp [RegPort.snapped, snapTable, List.zipIdx]

theorem readWord_version : s.readWord 0x04 = some gyVersion := by simp [State.readWord, State.readIdentity]

theorem readReg_version : s.readReg 0x04 = s.rpOk gyVersion := by
  simp [State.readReg, readWord_version, snapped_version, snapTable]

end Sys2Proof.Machine
end

section
/-!
The statements of the scope: what every command and every step keeps, and the version that the block reads.
-/

namespace Sys2Proof.Machine

/-- Settles O4: the state at reset is the reset state of a Leaf, and that of either profile has the invariant. -/
theorem invariantAtReset : Obligations.InvariantAtReset := resetOf_inv .leaf

/-- Settles O5: a command upholds the invariant, and so does the passing of a tick. -/
theorem invariantKept : Obligations.InvariantKept := fun _ _ i h => step_inv i h

/-- Settles O6: every guard answers, and a next state has the profile and the queue of the state before. -/
theorem everyCommandAnswers : Obligations.EveryCommandAnswers := by
  unfold Obligations.EveryCommandAnswers
  intro c s
  rcases exec_answers c s with ⟨t, h⟩ | h
  · have upheld := exec_upholds c h
    exact .inl ⟨t, h, upheld.pending, upheld.profile⟩
  · exact .inr h

/-- Settles O7: outside `reachesKey` a command leaves the key alone, and the frame is read off the key. -/
theorem commandFrame : Obligations.CommandFrame := by
  unfold Obligations.CommandFrame
  intro c s t hc h
  have hkey : t.key = s.key := exec_still c hc t h
  obtain ⟨-, -, hpins, hfc, -, -, hdoms, hports⟩ := key_parts hkey
  exact ⟨hpins, hfc, hports, hdoms, read_of_key hkey⟩

/-- Settles O11: the read goes to the Identity page, which holds the version whatever the strap and the snapshots say. -/
theorem versionRead : Obligations.VersionRead := by
  unfold Obligations.VersionRead
  intro s hp hm ha
  have read : exec (.snapshotRead 0x0004) s = .next (s.readReg 0x04) := onRead_open (f := fun s => s.readReg 0x04) hp hm ha
  exact ⟨s.rpOk gyVersion, by rw [read, readReg_version], rfl, gyVersion_bytes⟩

end Sys2Proof.Machine
end

section
/-!
SUPPORT. Hall time as numbers: what R17, R18 and R19 compute on the 80 bits of a time.
-/

namespace Sys2Proof.Machine

theorem htInt_toNat (t : HT80) : (htInt t).toNat = t.toNat / 2 ^ 16 := by
  have h := t.isLt
  simp only [htInt, BitVec.extractLsb'_toNat, Nat.shiftRight_eq_div_pow]
  omega

theorem htFrac_toNat (t : HT80) : (htFrac t).toNat = t.toNat % 2 ^ 16 := by
  simp [htFrac, BitVec.extractLsb'_toNat]

theorem htOf_toNat (i : Tick) : (htOf i).toNat = i.toNat * 2 ^ 16 := by
  have append : (htOf i).toNat = i.toNat <<< 16 ||| 0 := BitVec.toNat_append ..
  rw [append, Nat.or_zero, Nat.shiftLeft_eq]

theorem htAdd_toNat (t : HT80) (d : Nat) : (htAdd t d).toNat = (t.toNat + d * 2 ^ 16) % 2 ^ 80 := by
  simp [htAdd, BitVec.toNat_add]

/-- R17: the integer parts add modulo 2^64. -/
theorem htInt_htAdd (t : HT80) (d : Nat) : htInt (htAdd t d) = htInt t + BitVec.ofNat 64 d := by
  refine BitVec.eq_of_toNat_eq ?_
  rw [BitVec.toNat_add, BitVec.toNat_ofNat, htInt_toNat, htInt_toNat, htAdd_toNat]
  omega

/-- R17: the fraction stays. -/
theorem htFrac_htAdd (t : HT80) (d : Nat) : htFrac (htAdd t d) = htFrac t := by
  refine BitVec.eq_of_toNat_eq ?_
  rw [htFrac_toNat, htFrac_toNat, htAdd_toNat]
  omega

theorem htLt_iff (a b : HT80) : htLt a b = true ↔ 1 ≤ (b - a).toNat ∧ (b - a).toNat < 2 ^ 79 := by
  simp only [htLt, Bool.and_eq_true, bne_iff_ne, decide_eq_true_eq, ne_eq, ← BitVec.toNat_inj, Nat.one_le_iff_ne_zero]
  rfl

theorem htLe_iff (a b : HT80) : htLe a b = true ↔ (b - a).toNat < 2 ^ 79 := by simp [htLe]

/-- The two differences of two times add up to 0 modulo 2^80. -/
theorem toNat_sub_swap (a b : HT80) : (a - b).toNat = (2 ^ 80 - (b - a).toNat) % 2 ^ 80 := by
  rw [← BitVec.toNat_neg, BitVec.neg_sub, BitVec.add_comm, BitVec.sub_eq_add_neg]

/-- R19: the due tick of a time is its count of nanoseconds rounded up. -/
theorem htOf_dueTick_toNat (t : HT80) : (htOf (dueTick t)).toNat = (t.toNat + (2 ^ 16 - 1)) / 2 ^ 16 * 2 ^ 16 % 2 ^ 80 := by
  have hlt := t.isLt
  have hfrac : htFrac t = 0 ↔ t.toNat % 2 ^ 16 = 0 := by rw [← BitVec.toNat_inj, htFrac_toNat]; rfl
  rw [htOf_toNat]
  unfold dueTick
  split
  next h =>
    rw [htInt_toNat]
    have := hfrac.mp h
    omega
  next h =>
    rw [BitVec.toNat_add, htInt_toNat, show ((1 : Tick).toNat) = 1 from rfl]
    have := mt hfrac.mpr h
    omega

/-- R19: the due tick is not before its time. -/
theorem htLe_dueTick (t : HT80) : htLe t (htOf (dueTick t)) = true := by
  have hlt := t.isLt
  rw [htLe_iff, BitVec.toNat_sub, htOf_dueTick_toNat]
  omega

/-- R19: the due tick is less than a nanosecond after its time. -/
theorem dueTick_htLt (t : HT80) : htLt (htOf (dueTick t)) (htAdd t 1) = true := by
  have hlt := t.isLt
  rw [htLt_iff, BitVec.toNat_sub, htOf_dueTick_toNat, htAdd_toNat]
  omega

end Sys2Proof.Machine
end

section
/-!
SUPPORT. The passing of one tick: it leaves the key alone where no domain waits to shut down.
-/

namespace Sys2Proof.Machine

variable {s : State}

theorem step_of_empty (h : s.pending = []) : step s = .next s.passTick := by simp [step, h]

theorem State.passTick_of_dead (h : s.alive = false) : s.passTick = s := by simp [State.passTick, h]

/-- R388: while the Sundial does not count, a tick only settles what has come to its end. -/
theorem State.passTick_of_stopped (h : s.alive = true) (g : s.sun.counting = false) :
    s.passTick = s.settleDoms.settleEdges.settleVerdicts.startOdo := by
  have hs := s.settled_now
  simp only [State.hall, Prod.mk.injEq] at hs
  simp [State.passTick, h, hs.2, g]

/-- R344: a domain that is ON with EN at 1 stays ON. -/
theorem State.settleDoms_of_enabled (h : ∀ d < s.profile.domains, (s.dom d).st = .on → (s.dom d).en = true) : s.settleDoms = s := by
  unfold State.settleDoms
  refine List.foldlRecOn (motive := (· = s)) _ _ rfl fun t ht d hd => ?_
  subst ht
  by_cases on : (t.dom d).st = .on
  · simp [h d (List.mem_range.mp hd) on]
  · simp [on]

theorem State.passTick_key (h : ∀ d < s.profile.domains, (s.dom d).st = .on → (s.dom d).en = true) : s.passTick.key = s.key := by
  have settled : s.settleDoms.settleEdges.settleVerdicts.startOdo.key = s.key := by
    rw [State.settleDoms_of_enabled h]
    exact (State.startOdo_key _).trans ((State.settleVerdicts_key _).trans (State.settleEdges_key _))
  have ended : (if s.alive then s.settleDoms.settleEdges.settleVerdicts.startOdo else s).key = s.key := ite_key settled rfl
  unfold State.passTick
  refine ite_key ended (.trans ?_ ended)
  refine (State.trySafe_key _).trans ((State.flushAnswers_key _).trans ((State.lanesTick_key _).trans ?_))
  refine (ite_key ((State.bandTick_key _).trans (State.hostEdges_key _)) rfl).trans ?_
  refine (State.handOver_key _).trans ((State.stopAccel_key _).trans ((State.rampRate_key _).trans ((State.modSun_key ..).trans ?_)))
  exact ite_key ((State.takeTick_key _).trans (State.applyPosts_key _)) rfl

/-- R12, R13: hall time over one tick of a block that is up. -/
theorem State.passTick_advance (h : s.alive = true) : s.passTick.sun.now = s.sun.now + if s.sun.counting then 65536 else 0 := by
  cases g : s.sun.counting
  · rw [State.passTick_of_stopped h g]
    simpa using congrArg Prod.fst s.settled_now
  · rw [State.passTick_now s h g]
    rfl

end Sys2Proof.Machine
end

section
/-!
The statements of hall time: its arithmetic, and the tick.
-/

namespace Sys2Proof.Machine

/-- Settles O9: bits 79 to 16 are the integer part, bits 15 to 0 the fraction. -/
theorem durationAddition : Obligations.DurationAddition := fun t d => ⟨htInt_htAdd t d, htFrac_htAdd t d⟩

/-- Settles O10: the order is read off the difference, whose opposite is its complement to 2^80; the due tick rounds up. -/
theorem timeComparison : Obligations.TimeComparison := by
  unfold Obligations.TimeComparison
  refine ⟨fun a b => ?_, fun t => ⟨fun h => if_pos h, fun h => if_neg h, htLe_dueTick t, dueTick_htLt t⟩⟩
  have hlt := (b - a).isLt
  simp only [← Bool.not_eq_true, htLt_iff, htLe_iff, toNat_sub_swap a b, ← BitVec.toNat_inj, BitVec.ofNat_eq_ofNat, BitVec.toNat_ofNat]
  omega

/-- Settles O2: such a step is the passing of a tick, which moves hall time by its count alone, and keeps the key where nothing shuts down. -/
theorem emptyQueueIsOneTick : Obligations.EmptyQueueIsOneTick := by
  unfold Obligations.EmptyQueueIsOneTick
  intro s hq
  refine ⟨fun h => ?_, fun h => ⟨s.passTick, step_of_empty hq, State.passTick_advance h, State.passTick_kept.pending.trans hq,
    State.passTick_kept.profile, State.passTick_inv, fun enabled => ?_⟩⟩
  · rw [step_of_empty hq, State.passTick_of_dead h]
  · have hkey := State.passTick_key enabled
    obtain ⟨-, -, hpins, hfc, -, -, -, hports⟩ := key_parts hkey
    exact ⟨hpins, hfc, hports, read_of_key hkey⟩

end Sys2Proof.Machine
end

section
/-!
SUPPORT. The ports under what a command does on its way: one lemma for each operation that a port goes through.
-/

namespace Sys2Proof.Machine

variable (s : State)

theorem hasPort_iff {s : State} {p : PortNo} : s.hasPort p = true ↔ p.toNat < s.ports.length := by simp [State.hasPort]

/-- What a change of a port does not touch. -/
theorem State.modPort_see {α : Type} (p q : PortNo) (g : Port → Port) (f : Port → α) (h : ∀ x, f (g x) = f x) :
    f ((s.modPort p g).port q) = f (s.port q) := by
  simp only [State.port, State.modPort, State.modPorts, List.getD_eq_getElem?_getD, List.getElem?_modify]
  split <;> cases s.ports[q.toNat]? <;> simp [h]

/-- A port of the node after its change. -/
theorem State.modPort_port {s : State} {p : PortNo} (g : Port → Port) (h : p.toNat < s.ports.length) :
    (s.modPort p g).port p = g (s.port p) := by
  simp [State.port, State.modPort, State.modPorts, h]

/-- Two changes of a port are one. -/
theorem State.modPort_modPort (p : PortNo) (f g : Port → Port) : (s.modPort p f).modPort p g = s.modPort p fun q => g (f q) := by
  simp only [State.modPort, State.modPorts, List.modify_modify_eq]
  rfl

@[simp] theorem State.modPort_pins (p : PortNo) (f : Port → Port) : (s.modPort p f).pins = s.pins := rfl
@[simp] theorem State.modPort_mute (p : PortNo) (f : Port → Port) : (s.modPort p f).mute = s.mute := rfl

theorem State.emitAt_port (stamp : HT80) (o : Out) (p : PortNo) : (s.emitAt stamp o).port p = s.port p := by
  obtain ⟨b, h⟩ := s.emitAt_eq stamp o
  rw [h]
  rfl

theorem State.emit_ports_length (o : Out) : (s.emit o).ports.length = s.ports.length := by
  obtain ⟨b, h⟩ := s.emitAt_eq s.stamp o
  rw [State.emit, h]
  rfl

theorem State.modPort_ports_length (p : PortNo) (f : Port → Port) : (s.modPort p f).ports.length = s.ports.length := by
  simp [State.modPort]

theorem State.traced_drew_port (stamp : HT80) (src : Nat) (p q : PortNo) (d : List Byte) : (s.traced stamp src p d).drew.port q = s.port q := by
  obtain ⟨b, h⟩ := s.traced_eq stamp src p d
  rw [h]
  rfl

theorem State.traced_drew_mute (stamp : HT80) (src : Nat) (p : PortNo) (d : List Byte) : (s.traced stamp src p d).drew.mute = s.mute := by
  obtain ⟨b, h⟩ := s.traced_eq stamp src p d
  rw [h]
  rfl

theorem State.tracedMsg_drew_port (stamp : HT80) (src : Nat) (p q : PortNo) (n : BitVec 5) (m : Msg) :
    (s.tracedMsg stamp src p n m).drew.port q = s.port q := by
  obtain ⟨b, h⟩ := s.tracedMsg_eq stamp src p n m
  rw [h]
  rfl

end Sys2Proof.Machine
end

section
/-!
SUPPORT. Beats: what BEAT_SEND and BEAT_RX do on a port in UP, by the state of the node.
-/

namespace Sys2Proof.Machine

variable {s : State} {p : PortNo} {stamp : HT80} {t : Tick} {m : BeatMsg}

/-- The served beat is noted. -/
def State.beatServed (s : State) (p : PortNo) (t : Tick) : State := s.modPort p fun q => { q with beatAt := some t }

/-- The port has sent the BEAT that is due; it left the pins with the latency of the path after its stamp (R86, R89). -/
def State.beatGiven (s : State) (p : PortNo) (t : Tick) (stamp : HT80) : State :=
  ((s.beatServed p t).modPort p fun q => { q with
    beatIdx := q.beatIdx + 1, txStamps := ((q.beatIdx, stamp + (s.port p).latTx.setWidth 80) :: q.txStamps).take 16, unacked := 0 }).emitAt
      (stamp + (s.port p).latTx.setWidth 80) (.beat p (s.beatMsg p))

/-- The port has sent a NODE_DOWN of its leave in the place of the beat. -/
def State.beatLeft (s : State) (p : PortNo) (t : Tick) : State :=
  ((s.beatServed p t).emit (.nodeDown p (s.nodeDownMsg 1))).modPort p fun q => { q with exiting := q.exiting - 1 }

theorem State.beatLeft_exiting (hp : p.toNat < s.ports.length) : ((s.beatLeft p t).port p).exiting = (s.port p).exiting - 1 := by
  rw [State.beatLeft, State.modPort_port, State.emit, State.emitAt_port, State.beatServed, State.modPort_port _ hp]
  rwa [State.emit_ports_length, State.beatServed, State.modPort_ports_length]

theorem not_mute (h : s.mute = false) : s.fc.safe = false ∧ s.pw.pfail = false := by simpa [State.mute] using h

theorem execBeatSend_idle (ha : s.alive = true) (hp : s.hasPort p = true) (hd : s.beatDue p = none) : execBeatSend p stamp s = .next s := by
  simp [execBeatSend, onPort_alive (hasPort_iff.mp hp) ha, hd]

section Due
variable (ha : s.alive = true) (hp : s.hasPort p = true) (hu : (s.port p).st = .up) (hd : s.beatDue p = some t)
include ha hp hu hd

/-- What goes out in the place of a beat that is due, by the state of the node (R28, R83, R100, R101). -/
theorem execBeatSend_due : execBeatSend p stamp s = .next (
    if s.pw.pfail && (s.port p).rev != 4 then (s.beatServed p t).emit (.lastGasp p s.lastGaspMsg)
    else if s.fc.safe then (s.beatServed p t).emit (.nodeDown p (s.nodeDownMsg 2))
    else if s.pw.pfail then s
    else if (s.port p).exiting != 0 then
      if ((s.beatLeft p t).port p).exiting = 0 then (s.beatLeft p t).portExit p else s.beatLeft p t
    else s.beatGiven p t stamp) := by
  simp only [execBeatSend, onPort_alive (hasPort_iff.mp hp) ha, hd, hu]
  rfl

/-- R28, R86: a BEAT with its departure at the pins. -/
theorem execBeatSend_beat (hm : s.mute = false) (he : (s.port p).exiting = 0) : execBeatSend p stamp s = .next (s.beatGiven p t stamp) := by
  obtain ⟨hsafe, hpfail⟩ := not_mute hm
  rw [execBeatSend_due ha hp hu hd]
  simp [hsafe, hpfail, he]

/-- R101: in the power-fail state a LAST_GASP in the place of a BEAT. -/
theorem execBeatSend_lastGasp (hf : s.pw.pfail = true) (hr : (s.port p).rev ≠ 4) :
    execBeatSend p stamp s = .next ((s.beatServed p t).emit (.lastGasp p s.lastGaspMsg)) := by
  rw [execBeatSend_due ha hp hu hd, if_pos (by simpa [hf] using hr)]

/-- R100: in the safe state a NODE_DOWN in the place of a BEAT. -/
theorem execBeatSend_safe (hf : s.pw.pfail = false ∨ (s.port p).rev = 4) (hs : s.fc.safe = true) :
    execBeatSend p stamp s = .next ((s.beatServed p t).emit (.nodeDown p (s.nodeDownMsg 2))) := by
  rw [execBeatSend_due ha hp hu hd, if_neg (by rcases hf with h | h <;> simp [h]), if_pos hs]

/-- R83: a NODE_DOWN of a port that takes leave, and has more of them to send. -/
theorem execBeatSend_leave (hm : s.mute = false) (he : (s.port p).exiting = 2 ∨ (s.port p).exiting = 3) :
    execBeatSend p stamp s = .next (s.beatLeft p t) := by
  obtain ⟨hsafe, hpfail⟩ := not_mute hm
  have left : ((s.beatLeft p t).port p).exiting = (s.port p).exiting - 1 := State.beatLeft_exiting (hasPort_iff.mp hp)
  rw [execBeatSend_due ha hp hu hd, left]
  rcases he with e | e <;> simp [hsafe, hpfail, e]

end Due

/-- R28, R99: the last multiple of the interval of BEATs is due for 10 ns, once. -/
theorem beatDue_iff : s.beatDue p = some t ↔ t = s.tick - BitVec.ofNat 64 (s.tick.toNat % (s.port p).beatEvery) ∧
    s.tick.toNat % (s.port p).beatEvery ≤ 10 ∧ (s.port p).beatAt ≠ some t := by
  simp only [State.beatDue]
  split
  next h =>
    simp only [Bool.and_eq_true, decide_eq_true_eq, bne_iff_ne] at h
    obtain ⟨hm, hb⟩ := h
    constructor
    · rintro ⟨⟩
      exact ⟨rfl, hm, hb⟩
    · rintro ⟨rfl, -, -⟩
      rfl
  next h =>
    refine iff_of_false nofun ?_
    rintro ⟨rfl, hm, hb⟩
    exact h (by simp [hm, hb])

/-- R87: a flit on a port in UP is recorded, whatever becomes of it. -/
theorem onFlit_up {head : List Byte} {f : State → State} (ha : s.alive = true) (hp : s.hasPort p = true) (hu : (s.port p).st = .up) :
    onFlit p stamp head s f = .next (f (s.traced stamp 0 p head).drew) := by
  simp [onFlit, onPort_alive (hasPort_iff.mp hp) ha, Port.locked, hu]

/-- A BEAT that arrived at `a` comes after the limit of R99. -/
def Port.tooLate (q : Port) (a : HT80) : Bool := q.lastBeat.elim false fun t => htLt (q.beatLimit t) a

/-- The three ways of a BEAT on a port in UP: without effect, too late, and good. -/
theorem execBeatRx_up (ha : s.alive = true) (hp : s.hasPort p = true) (hu : (s.port p).st = .up) {a : HT80} (hs : a = stamp - (s.port p).latRx.setWidth 80) :
    execBeatRx p m stamp s = .next (
      if s.mute then (s.traced a 0 p (beatHead m)).drew
      else if (s.port p).tooLate a then (s.traced a 0 p (beatHead m)).drew.portLost p 1 .lost
      else ((s.traced a 0 p (beatHead m)).drew.modPort p fun q => { q with
        lastBeat := some a, rxStamps := ((m.idx, a) :: q.rxStamps).take 16, partnerTp := m.tp, partnerSt := m.state,
        partnerRootSt := m.rootState }).afterBeat p m (m.tp && !(s.port p).partnerTp)) := by
  subst hs
  simp only [execBeatRx, onFlit_up ha hp hu, State.traced_drew_port, State.traced_drew_mute, hu]
  rfl

end Sys2Proof.Machine
end

section
/-!
The statement of the beats.
-/

namespace Sys2Proof.Machine

/-- Settles O23: a due beat by the state of the node (R28, R83, R100, R101), and a BEAT by the time at which it comes (R99). -/
theorem beats : Obligations.Beats := by
  unfold Obligations.Beats
  intro s p stamp ha hp hu
  refine ⟨fun t hd => ⟨fun ⟨hm, he⟩ => execBeatSend_beat ha hp hu hd hm he, fun ⟨hf, hr⟩ => execBeatSend_lastGasp ha hp hu hd hf hr,
      fun ⟨hf, hs⟩ => execBeatSend_safe ha hp hu hd hf hs, fun h => ?_⟩,
    execBeatSend_idle ha hp, fun t => beatDue_iff, fun m a hs => ?_⟩
  · have hm : s.mute = false := h.elim And.left And.left
    exact ⟨_, execBeatSend_leave ha hp hu hd hm (h.imp And.right And.right), rfl⟩
  · have rx : exec (.beatRx p m stamp) s = _ := execBeatRx_up ha hp hu hs
    rw [rx]
    refine ⟨fun ⟨hm, inTime⟩ => ?_, fun t hm hl late => ?_, fun hm => by rw [if_pos hm]⟩
    · have good : (s.port p).tooLate a = false := by
        unfold Port.tooLate
        cases hl : (s.port p).lastBeat with
        | none => rfl
        | some t => exact inTime t hl
      simp [hm, good]
    · have bad : (s.port p).tooLate a = true := by simp [Port.tooLate, hl, late]
      simp [hm, bad]

end Sys2Proof.Machine
end

section
/-!
SUPPORT. Sequenced messages: what acceptance changes, and where a message does nothing or is stale.
-/

namespace Sys2Proof.Machine

variable {s : State} {p : PortNo} {m : Msg}

/-- R14, R94: acceptance in one change of the port, and the ACK that it owes. -/
theorem State.received_accepts (s : State) (p : PortNo) (m : Msg) :
    s.received p m = (State.modPort (s.tracedMsg s.arrival 0 p (s.port p).rxSeq m).drew p
      fun q => { q with lastRx := s.arrival, rxSeq := q.rxSeq + 1, discarding := false, nakAt := none }).emit (.acknak p (s.port p).rxSeq false) := by
  have seq : (((s.tracedMsg s.arrival 0 p (s.port p).rxSeq m).drew.modPort p fun q => { q with lastRx := s.arrival }).port p).rxSeq = (s.port p).rxSeq := by
    rw [State.modPort_see _ p p (fun q => { q with lastRx := s.arrival }) Port.rxSeq fun _ => rfl, State.tracedMsg_drew_port]
  simp only [State.received, State.accept, seq, State.modPort_modPort]

/-- R94, R100, R101: a message on a port that the node does not use. -/
theorem onMsg_unusable {f : State → State} (ha : s.alive = true) (hp : s.hasPort p = true) (h : (s.port p).st ≠ .up ∨ s.mute = true) :
    onMsg p m s f = .next s := by
  rw [onMsg, onPort_alive (hasPort_iff.mp hp) ha, if_neg]
  rcases h with h | h <;> simp [h]

theorem onScoped_unusable {f : State → Part → State} (ha : s.alive = true) (hp : s.hasPort p = true) (h : (s.port p).st ≠ .up ∨ s.mute = true) :
    onScoped p m s f = .next s := onMsg_unusable ha hp h

/-- R14, R94: a message on a port that the node uses. -/
theorem onMsg_portUp {f : State → State} (h : s.portUp p = true) : onMsg p m s f = .next (f (s.received p m)) := by
  simp only [State.portUp, Bool.and_eq_true, beq_iff_eq, Bool.not_eq_true'] at h
  obtain ⟨⟨⟨ha, hp⟩, hu⟩, hm⟩ := h
  simp [onMsg, onPort_alive (hasPort_iff.mp hp) ha, hu, hm]

/-- A partition is looked up in vain where the node does not take its messages. -/
theorem State.part_filter_stale {t : PTag} (ht : s.takes t = false) : (s.part t).filter (fun _ => s.takes t) = none := by
  rw [ht]
  cases s.part t <;> rfl

/-- R159, R162: a message of a partition that the node does not hold, or no longer. -/
theorem onScoped_stale {f : State → Part → State} {t : PTag} (h : s.portUp p = true) (ht : s.takes t = false) (hm : msgTag m = t) :
    onScoped p m s f = .next ((s.received p m).countStale t) := by
  subst hm
  rw [onScoped, onMsg_portUp h]
  simp only [State.received_part, State.received_takes, State.part_filter_stale ht]

/-- R159, R162: a stale SWAP; a port of revision 4 does not know the flit at all. -/
theorem execSwapRx_stale {x : SwapMsg} (h : s.portUp p = true) (ht : s.takes x.ptag = false) (hr : (s.port p).rev ≠ 4) :
    execSwapRx p x s = .next ((s.received p (.swap x)).countStale x.ptag) := by
  rw [execSwapRx, onMsg_portUp h, State.received_rev, if_neg hr]
  simp only [State.received_part, State.received_takes, State.part_filter_stale ht]

end Sys2Proof.Machine
end

section
/-!
The statement of the messages.
-/

namespace Sys2Proof.Machine

/-- Settles O37: every message goes through `onMsg`, which accepts it or leaves the state alone, and those of a partition through `onScoped`. -/
theorem messageAccepted : Obligations.MessageAccepted := by
  unfold Obligations.MessageAccepted
  refine ⟨⟨State.received_accepts, fun s p tc op b x ha hp h => ?_⟩, fun s p t h ht => ?_⟩
  · have unused (m : Msg) (f : State → State) : onMsg p m s f = .next s := onMsg_unusable ha hp h
    have ofPart (m : Msg) (f : State → Part → State) : onScoped p m s f = .next s := onScoped_unusable ha hp h
    exact ⟨fun m => show execLaunchRx p m s = _ from ofPart .., fun m => show execSwapRx p m s = _ from unused ..,
      fun m => show execParkRx p m s = _ from ofPart .., show execArriveRx p b tc s = _ from ofPart ..,
      show execArriveRedRx p b tc s = _ from ofPart .., show execReleaseRx p b s = _ from ofPart .., show execReleaseRedRx p b s = _ from ofPart ..,
      fun m => show execSignalRx p m s = _ from ofPart .., fun m => show execAnnounceRx p m s = _ from unused ..,
      fun m => show execAssignRx p m s = _ from unused .., fun m => show execTreeRx p m s = _ from unused ..,
      fun m => show execElectRx p m s = _ from unused .., fun m => show execMirrorRx p m s = _ from unused ..,
      fun m => show execDelayRx p m s = _ from unused .., show execPartOpenRx p x s = _ from unused ..,
      show execPartOpenAckRx p x s = _ from unused .., show execPartDeferredRx p x s = _ from unused ..,
      show execPartRefusedRx p x s = _ from unused .., show execPartCloseRx p x s = _ from unused .., show execPartCloseAckRx p x s = _ from unused ..,
      show execPartFaultRx p x s = _ from unused .., fun m => show execHealthRx p m s = _ from unused ..⟩
  · have stale {m : Msg} {f : State → Part → State} (hm : msgTag m = t) := onScoped_stale (f := f) h ht hm
    refine ⟨fun m hm => show execLaunchRx p m s = _ from stale hm, fun _ hm hr => ?_, fun m hm => show execParkRx p m s = _ from stale hm,
      fun m hm => show execSignalRx p m s = _ from stale hm, fun m tc hm => show execArriveRedRx p m tc s = _ from stale hm,
      fun m hm => show execReleaseRedRx p m s = _ from stale hm⟩
    subst hm
    exact execSwapRx_stale h ht hr

end Sys2Proof.Machine
end

section
/-!
SUPPORT. The deadlines of a step: the release that is due, the overrun, and the end of its reads.
-/

namespace Sys2Proof.Machine

variable {s : State} {k : Bool} {t : PTag}

/-- A Leaf whose Trellis root runs is up. -/
theorem bandRuns_up (h : s.bandRuns = true) : s.isLeaf = true ∧ s.alive = true := by
  simp only [State.bandRuns, State.pdOn, Bool.and_eq_true] at h
  obtain ⟨⟨⟨hl, ha, -⟩, -⟩, -⟩ := h
  exact ⟨hl, ha⟩

/-- A slot that holds the context of an active step. -/
theorem filter_active (hk : s.slotOf t = some k) (h : (s.ctx k).st = .active) :
    (s.slotOf t).filter (fun k => (s.ctx k).st = .active) = some k := by simp [hk, h]

theorem tickLt_irrefl (a : Tick) : tickLt a a = false := by simp [tickLt]

/-- R213: the only release of a slot, once it is due. -/
theorem execReleaseDue_single {a : Arm} {r : Rel} (hb : s.bandRuns = true) (hk : s.slotOf t = some k) (harm : (s.ctx k).arm a.bid = some a)
    (hrel : (s.ctx k).rels = [r]) (hbid : r.bid = a.bid) (hdue : s.isDue (dueTick r.t) = true) :
    execReleaseDue t a.bid s = .next (s.releaseNow k a r) := by
  obtain ⟨hl, ha⟩ := bandRuns_up hb
  have found : [r].find? (fun x => x.bid == a.bid) = some r := by simp [hbid]
  simp only [execReleaseDue, onLeaf_alive hl ha, hk, harm, hrel, found, hdue]
  simp [tickLt_irrefl, hbid]

/-- R239: what keeps a step that began at `st` from overrunning now. -/
def State.withinLimit (s : State) (k : Bool) (st : Tick) : Bool :=
  (s.ctx k).cfgA.limit = 0 || (s.ctx k).tArr.isSome || (s.ctx k).overrun || !s.bandRuns || !s.isDue (st + (s.ctx k).cfgA.limit.setWidth 64)

section Step
variable {st : Tick} (hb : s.bandRuns = true) (hk : s.slotOf t = some k) (hact : (s.ctx k).st = .active) (hst : (s.ctx k).tStart = some st)
include hb hk hact hst

/-- R239: a step overruns whose host has not arrived at the limit. -/
theorem execStepOverrun_host (hlim : (s.ctx k).cfgA.limit ≠ 0) (harr : (s.ctx k).tArr = none) (hnew : (s.ctx k).overrun = false)
    (hdue : s.isDue (st + (s.ctx k).cfgA.limit.setWidth 64) = true) (hhold : s.holdNow = false) {a : Arm} (harm : (s.ctx k).stepArm = some a)
    (hhost : a.chanEn = false) :
    execStepOverrun t s = .next ((s.modCtx k fun c => { c with overrun := true }).raiseNow (uc 0x09 0x05) (mkLoc 0) (some t)
      (detail [(24, 1, 2), (28, 4, ((s.ctx k).step.setWidth 32).toNat)])) := by
  obtain ⟨hl, ha⟩ := bandRuns_up hb
  have held : (s.modCtx k fun c => { c with overrun := true }).holdNow = false := by cases k <;> exact hhold
  have due : s.withinLimit k st = false := by
    simp only [State.withinLimit, hlim, harr, hnew, hb, hdue]
    rfl
  unfold State.withinLimit at due
  simp only [execStepOverrun, onLeaf_alive hl ha, filter_active hk hact, hst, due, held, harm, Option.elim, hhost]
  rfl

/-- R239: no limit, or one that has not come. -/
theorem execStepOverrun_early (h : (s.ctx k).cfgA.limit = 0 ∨ s.isDue (st + (s.ctx k).cfgA.limit.setWidth 64) = false) :
    execStepOverrun t s = .next s := by
  obtain ⟨hl, ha⟩ := bandRuns_up hb
  have early : s.withinLimit k st = true := by
    rcases h with h | h
    · rw [State.withinLimit, decide_eq_true h]; rfl
    · rw [State.withinLimit, h, Bool.not_false, Bool.or_true]
  unfold State.withinLimit at early
  simp only [execStepOverrun, onLeaf_alive hl ha, filter_active hk hact, hst, early]
  rfl

end Step

section Reads
variable {o : Overrun} (hb : s.bandRuns = true) (ho : s.band.overrun = some o)
include hb ho

/-- R240: the record of the cell found, once its reads have answered or their time is over. -/
theorem execOverrunReadDone_records {q : BitVec 16} {b c : BitVec 6} (hq : o.seq = some q)
    (hend : s.tr.accesses.any Access.asks = false ∨ tickLe (htInt o.stamp + 50000) s.tick = true)
    (eb : b = s.tr.outstandingOf 2 ⟨o.region, 0, 0⟩) (ec : c = if b = 0x3F then 0x3F else s.tr.outstandingOf 1 ⟨o.region, b, 0⟩) :
    execOverrunReadDone o.ptag o.region s =
      .next (State.putGroup ((s.modBand fun b => { b with overrun := none }).modTr fun r => { r with accesses := r.accesses.filter (!·.asks) }) 3
        [({ kind := 0x41, flags := 1, ptag := o.ptag, code := uc 0x09 0x05, seq := q, stamp := o.stamp, node := s.elect.node
            loc := mkLoc o.region.toNat b.toNat c.toNat, detail := 0 } : EvRec).bits]) := by
  obtain ⟨hl, ha⟩ := bandRuns_up hb
  subst eb ec
  have ended : (s.tr.accesses.any Access.asks && !tickLe (htInt o.stamp + 50000) s.tick) = false := by
    rcases hend with h | h <;> simp only [h, Bool.false_and, Bool.not_true, Bool.and_false]
  simp only [execOverrunReadDone, onLeaf_alive hl ha, ho, Option.filter_some, beq_self_eq_true, Bool.and_self, if_true, ended, hq]
  rfl

/-- R240: reads that may still answer. -/
theorem execOverrunReadDone_waits (hask : s.tr.accesses.any Access.asks = true) (hopen : tickLe (htInt o.stamp + 50000) s.tick = false) :
    execOverrunReadDone o.ptag o.region s = .next s := by
  obtain ⟨hl, ha⟩ := bandRuns_up hb
  simp only [execOverrunReadDone, onLeaf_alive hl ha, ho, Option.filter_some, beq_self_eq_true, Bool.and_self, if_true, hask, hopen, Bool.not_false]

end Reads

end Sys2Proof.Machine
end

section
/-!
SUPPORT. The deadlines of objects (R20, R263, R265): what expires in the active context, by the type of the object.
-/

namespace Sys2Proof.Machine

variable {s : State} {k : Bool} {o : Nat} {f : ObjType → Bool}

/-- The slot that is active holds an active context. -/
theorem activeSlot_st (h : s.activeSlot = some k) : (s.ctx k).st = .active := by
  unfold State.activeSlot at h
  split at h
  next h0 => cases h; exact h0
  next =>
    split at h
    next h1 => cases h; exact h1
    next => cases h

/-- R20: a deadline that the tick has not passed. -/
theorem expireObj_early (h : htLt (s.obj k o).deadline s.stamp = false) : s.expireObj k o = s := by
  simp [State.expireObj, Obj.overdue, h]

theorem objDue_early (hk : s.activeSlot = some k) (h : htLt (s.obj k o).deadline s.stamp = false) : s.objDue o f = s := by
  simp [State.objDue, State.activeObj, hk, expireObj_early h]

/-- An object of the active context that a command of its type names. -/
theorem objDue_expires (hk : s.activeSlot = some k) (hf : f (s.obj k o).type = true) : s.objDue o f = s.expireObj k o := by
  simp [State.objDue, State.activeObj, hk, hf]

section Late
variable (hk : s.activeSlot = some k) (hd : (s.obj k o).deadline ≠ 0) (hl : htLt (s.obj k o).deadline s.stamp = true)
include hk hd hl

/-- It is neither early nor of a context that has stopped. -/
theorem late_expires : ¬(!(s.obj k o).overdue s.stamp || (s.ctx k).st != .active) = true := by
  have hz : (s.obj k o).deadline ≠ 0#80 := hd
  simp [Obj.overdue, hz, hl, activeSlot_st hk]

/-- R263: a wait expires. -/
theorem expireObj_wait (ht : (s.obj k o).type = .counter ∨ (s.obj k o).type = .flag) (harm : (s.obj k o).armed = true) :
    s.expireObj k o = (s.setObj k o { s.obj k o with expired := true, armed := false, deadline := 0 }).raiseNow (uc 0x0B 0x02) 0
      (some (s.ctx k).ptag) (detail [(24, 2, o), (28, 4, (s.obj k o).value.toNat)]) := by
  simp only [State.expireObj]
  rw [if_neg (late_expires hk hd hl)]
  rcases ht with ht | ht <;> simp only [ht, harm, if_true]

/-- R262: a TIMER fires. -/
theorem expireObj_timer (ht : (s.obj k o).type = .timer) (harm : (s.obj k o).armed = true) :
    s.expireObj k o = s.setObj k o { s.obj k o with armed := (s.obj k o).rel, deadline := 0, cnt16 := satInc (s.obj k o).cnt16 } := by
  simp only [State.expireObj]
  rw [if_neg (late_expires hk hd hl)]
  simp only [ht, harm, if_true]

/-- R265: a BARRIER expires. -/
theorem expireObj_barrier (ht : (s.obj k o).type = .barrier) :
    s.expireObj k o = (s.setObj k o { s.obj k o with expired := true, deadline := 0 }).raiseNow (uc 0x0B 0x03) 0 (some (s.ctx k).ptag)
      (detail [(24, 1, o), (25, 1, if (s.obj k o).localDone then 1 else 0), (28, 4, (s.obj k o).value.toNat)]) := by
  simp only [State.expireObj]
  rw [if_neg (late_expires hk hd hl)]
  simp only [ht]

end Late

end Sys2Proof.Machine
end

section
/-!
The statement of the deadlines.
-/

namespace Sys2Proof.Machine

/-- Settles O34: the step's release, overrun and reads, and then the objects by their types. -/
theorem stepAndObjectTimers : Obligations.StepAndObjectTimers := by
  unfold Obligations.StepAndObjectTimers
  refine ⟨fun s t k hb hk => ⟨fun a r harm hrel hbid hdue => execReleaseDue_single hb hk harm hrel hbid hdue,
    fun st hact hst hlim harr hnew hdue hhold ⟨a, harm, hhost⟩ => execStepOverrun_host hb hk hact hst hlim harr hnew hdue hhold harm hhost,
    fun st hact hst h => execStepOverrun_early hb hk hact hst h,
    fun o q b c ho hq hend eb ec => execOverrunReadDone_records hb ho hq hend eb ec,
    fun o ho hask hopen => execOverrunReadDone_waits hb ho hask hopen⟩, fun s k o b ha hl hk => ?_⟩
  have acts (n : Nat) (f : ObjType → Bool) : onLeaf s (fun s => s.objDue n f) = .next (s.objDue n f) := onLeaf_alive hl ha
  refine ⟨fun ⟨ht, harm, hd, late⟩ => (acts ..).trans (congrArg _ ?_), fun ⟨ht, harm, hd, late⟩ => (acts ..).trans (congrArg _ ?_),
    fun early => ⟨(acts ..).trans (congrArg _ (objDue_early hk early)), (acts ..).trans (congrArg _ (objDue_early hk early))⟩,
    fun ⟨ht, hd, late⟩ => (acts ..).trans (congrArg _ ?_)⟩
  · rw [objDue_expires hk (by rcases ht with ht | ht <;> simp [ht]), expireObj_wait hk hd late ht harm]
  · rw [objDue_expires hk (by simp [ht]), expireObj_timer hk hd late ht harm]
  · rw [objDue_expires hk (by simp [ht]), expireObj_barrier hk hd late ht]

end Sys2Proof.Machine
end

section
/-!
SUPPORT. The bits of a word under the writing of one of them.
-/

namespace Sys2Proof.Machine

theorem getLsbD_setBit {n : Nat} (x : BitVec n) (i j : Nat) (b : Bool) (h : j < n) :
    (setBit x i b).getLsbD j = if i = j then b else x.getLsbD j := by
  have mask : (BitVec.ofNat n (2 ^ i)).getLsbD j = decide (i = j) := by rw [BitVec.getLsbD_ofNat, Nat.testBit_two_pow, decide_eq_true h, Bool.true_and]
  have inside : decide (j < n) = true := decide_eq_true h
  cases b <;> simp only [setBit, Bool.false_eq_true, if_true, if_false, BitVec.getLsbD_and, BitVec.getLsbD_or, BitVec.getLsbD_not, mask, inside] <;>
    split <;> simp_all

/-- A field that the bit is not in. -/
theorem extractLsb'_setBit {n : Nat} (x : BitVec n) (i : Nat) (b : Bool) {start len : Nat} (h : i < start ∨ start + len ≤ i) (hn : start + len ≤ n) :
    (setBit x i b).extractLsb' start len = x.extractLsb' start len := by
  refine BitVec.eq_of_getLsbD_eq fun j hj => ?_
  rw [BitVec.getLsbD_extractLsb', BitVec.getLsbD_extractLsb', getLsbD_setBit x i (start + j) b (by omega), if_neg (by omega)]

end Sys2Proof.Machine
end

section
/-!
SUPPORT. The registers of the Sundial, the Orangery and the election: what their commands write.
-/

namespace Sys2Proof.Machine

variable {s : State} {w : Word}

/-- R22: a preset that is allowed. -/
def State.presetTaken (s : State) : State := ((s.loadSun s.sun.staged).modSun fun u => { u with stepCnt := satInc u.stepCnt }).rpOk

theorem writeSunCtl_preset : s.writeSunCtl 1 =
    if s.sun.counting && s.sun.st == .freerun && s.upPorts.isEmpty && !s.holdsPartition then s.presetTaken else s.rpErr := rfl

theorem presetTaken_key : s.presetTaken.key = s.key :=
  (State.rpOk_key ..).trans ((State.modSun_key ..).trans (State.loadSun_key ..))

theorem execPreset_taken (hw : s.writable 0 = true) (hc : s.sun.counting = true) (hst : s.sun.st = .freerun) (hup : s.upPorts = [])
    (hpart : s.holdsPartition = false) : execPreset s = .next s.presetTaken := by
  rw [execPreset, onReg_writable hw, writeSunCtl_preset]
  simp [hc, hst, hup, hpart]

theorem execPreset_refused (hw : s.writable 0 = true)
    (h : s.sun.counting = false ∨ s.sun.st ≠ .freerun ∨ s.upPorts ≠ [] ∨ s.holdsPartition = true) : execPreset s = .next s.rpErr := by
  have barred : ¬(s.sun.counting && s.sun.st == .freerun && s.upPorts.isEmpty && !s.holdsPartition) = true := by
    simp only [Bool.and_eq_true, beq_iff_eq, List.isEmpty_iff, Bool.not_eq_true']
    rintro ⟨⟨⟨hc, hst⟩, hup⟩, hpart⟩
    simp [hc, hst, hup, hpart] at h
  rw [execPreset, onReg_writable hw, writeSunCtl_preset, if_neg barred]

/-- R112, R114: no acceleration while a partition is held, nor on the root while the fabric has one. -/
theorem execAccel_barred (hw : s.writable 1 = true) (h : s.accelAllowed = false) : execAccel s = .next s.rpErr := by
  simp [execAccel, onReg_writable hw, State.writeAccel, h]

/-- R112: a node whose time source needs none. -/
theorem execAccel_idle (hw : s.writable 1 = true) (h : s.accelAllowed = true) (ht : s.org.srcType = 0) : execAccel s = .next s.rpOk := by
  rw [execAccel, onReg_writable hw, State.writeAccel]
  simp [h, ht]

theorem execAccel_starts (hw : s.writable 1 = true) (h : s.accelAllowed = true) (ht : s.org.srcType ≠ 0) :
    execAccel s = .next s.startAccel.rpOk := by
  rw [execAccel, onReg_writable hw, State.writeAccel, h, if_neg (by decide), if_neg ht]

theorem accelAllowed_of_closed (hpart : s.holdsPartition = false) (h : s.sun.isRoot = false ∨ s.fabricOpen = false) : s.accelAllowed = true := by
  rcases h with h | h <;> simp [State.accelAllowed, hpart, h]

theorem execOrgUtcOfsWrite_root (hw : s.writable 1 = true) (hr : s.sun.isRoot = true) :
    execOrgUtcOfsWrite w s = .next (s.modOrg fun o => { o with utcOfs := w }).sendOffers.rpOk := by
  rw [execOrgUtcOfsWrite, onReg_writable hw, State.writeUtcOfs, if_pos hr]

theorem execOrgUtcOfsWrite_off_root (hw : s.writable 1 = true) (hr : s.sun.isRoot = false) : execOrgUtcOfsWrite w s = .next s.rpOk := by
  simp [execOrgUtcOfsWrite, onReg_writable hw, State.writeUtcOfs, hr]

/-- R125: PRIO and the oscillator's flag as a word spells them. -/
def State.prioTaken (s : State) (w : Word) : State := s.modOrg fun o => { o with prio := w.extractLsb' 0 8, osc := w.getLsbD 8 }

/-- R125, R126: a changed PRIO sends a claim, and then the node may hand over. -/
theorem execReelect_eq (hw : s.writable 1 = true) : execReelect w s = .next
    (if w.extractLsb' 0 8 = s.org.prio then s.prioTaken w else (s.prioTaken w).sendClaim).requalify.reelect.rpOk := by
  have hprio : (setBit w 9).extractLsb' 0 8 = w.extractLsb' 0 8 := extractLsb'_setBit w 9 true (by decide) (by decide)
  have hosc : (setBit w 9).getLsbD 8 = w.getLsbD 8 := getLsbD_setBit w 9 8 true (by decide)
  have hre : (setBit w 9).getLsbD 9 = true := getLsbD_setBit w 9 9 true (by decide)
  simp only [execReelect, onReg_writable hw, State.writePrio, hprio, hosc, hre, if_true, State.prioTaken]

/-- R126: ignored off the root, and where no claim is recorded. -/
theorem reelect_ignored (h : s.elect.recorded = none ∨ s.sun.isRoot = false) : s.reelect = s := by
  unfold State.reelect
  rcases h with h | h
  · rw [h]
  · rw [h]
    cases s.elect.recorded <;> rfl

/-- R126: the root that knows a claim hands over. -/
theorem reelect_yields (h : s.elect.recorded ≠ none) (hr : s.sun.isRoot = true) : s.reelect = s.yieldRoot := by
  obtain ⟨c, hc⟩ := Option.ne_none_iff_exists'.mp h
  simp [State.reelect, hc, hr]

end Sys2Proof.Machine
end

section
/-!
SUPPORT. The registers of a port: what the writing of TL_CTL does, by the state of the port.
-/

namespace Sys2Proof.Machine

variable {s : State} {p : PortNo} {w : Word}

/-- The settings of TL_CTL as a word spells them (R82). -/
def Port.configured (q : Port) (w : Word) : Port := { q with noTime := w.getLsbD 1, revCap := w.extractLsb' 2 2, swing := w.extractLsb' 4 4 }

/-- R82: EN of 1 starts a port that is DISABLED and not held there. -/
theorem setTlEn_starts (hd : (s.port p).st = .disabled) (hl : s.pins.linkLow.getLsbD p.toNat = false) (hm : s.mute = false) :
    s.setTlEn p true = s.modPort p fun q => { q with en := true, st := .train, since := s.tick } := by
  simp only [State.setTlEn, State.modPort_pins, State.modPort_mute, hd, hl, hm, State.enterSt, State.modPort_modPort]
  rfl

/-- R82: in any other case EN of 1 is noted. -/
theorem setTlEn_notes (h : (s.port p).st ≠ .disabled ∨ s.pins.linkLow.getLsbD p.toNat = true ∨ s.mute = true) :
    s.setTlEn p true = s.modPort p fun q => { q with en := true } := by
  have held : ¬((s.port p).st == .disabled && !s.pins.linkLow.getLsbD p.toNat && !s.mute) = true := by rcases h with h | h | h <;> simp [h]
  simp only [State.setTlEn, State.modPort_pins, State.modPort_mute, held, Bool.false_eq_true, if_true, if_false]

/-- R83: EN of 0 lets a port in UP take leave. -/
theorem setTlEn_leaves (hu : (s.port p).st = .up) (hm : s.mute = false) (he : (s.port p).exiting = 0) :
    s.setTlEn p false = s.modPort p fun q => { q with en := false, exiting := 3 } := by
  simp only [State.setTlEn, State.modPort_mute, hu, hm, he, State.modPort_modPort]
  rfl

/-- R83, R101: EN of 0 is noted where the port stands still, cannot send or takes leave already. -/
theorem setTlEn_clears (h : (s.port p).st = .disabled ∨ ((s.port p).st = .up ∧ (s.mute = true ∨ (s.port p).exiting ≠ 0))) :
    s.setTlEn p false = s.modPort p fun q => { q with en := false } := by
  rcases h with hd | ⟨hu, h⟩
  · simp only [State.setTlEn, hd]
    rfl
  · have stays : ¬((s.port p).exiting = 0 && !s.mute) = true := by
      simp only [Bool.and_eq_true, decide_eq_true_eq, Bool.not_eq_true']
      rintro ⟨he, hm⟩
      simp [he, hm] at h
    simp only [State.setTlEn, State.modPort_mute, hu, stays, Bool.false_eq_true, if_false]
    rfl

/-- R82: EN of 0 in any other state ends the training of the port. -/
theorem setTlEn_exits (hd : (s.port p).st ≠ .disabled) (hu : (s.port p).st ≠ .up) :
    s.setTlEn p false = (s.modPort p fun q => { q with en := false }).portExit p := by
  simp [State.setTlEn, hd, hu]

/-- TL_CTL with neither RETRAIN nor CAL_NOW: the settings, then EN. -/
theorem writeTlCtl_settings (b : Bool) (hp : p.toNat < s.ports.length) (hb : b = true → s.tlEnOk p = true) (hsw : (w.extractLsb' 4 4).toNat ≤ 10)
    (h8 : w.getLsbD 8 = false) (h9 : w.getLsbD 9 = false) :
    s.writeTlCtl p (setBit w 0 b) = (((s.modPort p (·.configured w)).setTlEn p b).keepParent).rpOk := by
  have he : (setBit w 0 b).getLsbD 0 = b := getLsbD_setBit w 0 0 b (by decide)
  have h1 : (setBit w 0 b).getLsbD 1 = w.getLsbD 1 := getLsbD_setBit w 0 1 b (by decide)
  have h8 : (setBit w 0 b).getLsbD 8 = false := (getLsbD_setBit w 0 8 b (by decide)).trans h8
  have h9 : (setBit w 0 b).getLsbD 9 = false := (getLsbD_setBit w 0 9 b (by decide)).trans h9
  have h2 : (setBit w 0 b).extractLsb' 2 2 = w.extractLsb' 2 2 := extractLsb'_setBit w 0 b (by decide) (by decide)
  have h4 : (setBit w 0 b).extractLsb' 4 4 = w.extractLsb' 4 4 := extractLsb'_setBit w 0 b (by decide) (by decide)
  have accepted : ¬(p.toNat ≥ s.ports.length || (b && !s.tlEnOk p)) = true := by
    cases b <;> simp_all
  simp only [State.writeTlCtl, he, h1, h2, h4, h8, h9]
  rw [if_neg accepted, if_neg (Nat.not_lt.mpr hsw)]
  rfl

theorem writeTlCtl_refused (hen : s.tlEnOk p = false) : s.writeTlCtl p (setBit w 0) = s.rpErr := by
  have he : (setBit w 0).getLsbD 0 = true := getLsbD_setBit w 0 0 true (by decide)
  simp [State.writeTlCtl, he, hen]

theorem execTlEnSet_settings (hw : s.writable 0 = true) (hp : p.toNat < s.ports.length) (hen : s.tlEnOk p = true) (hsw : (w.extractLsb' 4 4).toNat ≤ 10)
    (h8 : w.getLsbD 8 = false) (h9 : w.getLsbD 9 = false) :
    execTlEnSet p w s = .next (((s.modPort p (·.configured w)).setTlEn p true).keepParent).rpOk := by
  rw [execTlEnSet, onReg_writable hw, writeTlCtl_settings true hp (fun _ => hen) hsw h8 h9]

theorem execTlEnClear_settings (hw : s.writable 0 = true) (hp : p.toNat < s.ports.length) (hsw : (w.extractLsb' 4 4).toNat ≤ 10)
    (h8 : w.getLsbD 8 = false) (h9 : w.getLsbD 9 = false) :
    execTlEnClear p w s = .next (((s.modPort p (·.configured w)).setTlEn p false).keepParent).rpOk := by
  rw [execTlEnClear, onReg_writable hw, writeTlCtl_settings false hp nofun hsw h8 h9]

theorem execTlEnSet_refused (hw : s.writable 0 = true) (hen : s.tlEnOk p = false) : execTlEnSet p w s = .next s.rpErr := by
  rw [execTlEnSet, onReg_writable hw, writeTlCtl_refused hen]

theorem configured_port : ((s.modPort p (·.configured w)).port p).st = (s.port p).st ∧ ((s.modPort p (·.configured w)).port p).exiting = (s.port p).exiting :=
  ⟨State.modPort_see _ p p _ Port.st fun _ => rfl, State.modPort_see _ p p _ Port.exiting fun _ => rfl⟩

theorem execRetrain_loses (hw : s.writable 0 = true) (hp : p.toNat < s.ports.length) : execRetrain p s = .next (s.portLost p 5 .lost).rpOk := by
  rw [execRetrain, onReg_writable hw, if_neg (Nat.not_le.mpr hp)]

theorem execCalNow_eq (hw : s.writable 0 = true) (hp : p.toNat < s.ports.length) : execCalNow p s = .next (s.recalibrate p).rpOk := by
  rw [execCalNow, onReg_writable hw, if_neg (Nat.not_le.mpr hp)]

/-- R89: a port in UP measures its path. -/
theorem recalibrate_up (hu : (s.port p).st = .up) : s.recalibrate p = s.measurePath p := by simp [State.recalibrate, hu]

theorem recalibrate_not_up (hu : (s.port p).st ≠ .up) : s.recalibrate p = s := by simp [State.recalibrate, hu]

end Sys2Proof.Machine
end

section
/-!
The statement of the registers.
-/

namespace Sys2Proof.Machine

/-- Settles O49: the time registers by what they allow, and TL_CTL by the state of its port. -/
theorem timeAndPortRegisters : Obligations.TimeAndPortRegisters := by
  unfold Obligations.TimeAndPortRegisters
  refine ⟨fun s => ⟨fun hw hc hst hup hpart => ?_, execPreset_refused, fun hw hpart hroot ht => ?_, fun hw hroot hopen => ?_, fun hw hpart hroot ht => ?_,
    fun hw hpart => ?_, fun w hw hr => execOrgUtcOfsWrite_root hw hr, fun w hw hr => execOrgUtcOfsWrite_off_root hw hr, fun w t hw et => ?_⟩,
    fun s p w hw hp hsw h8 h9 => ?_⟩
  · obtain ⟨-, -, hpins, hfc, -⟩ := key_parts (presetTaken_key (s := s))
    exact ⟨_, execPreset_taken hw hc hst hup hpart, rfl, rfl, rfl, hpins, hfc, rfl, read_of_key presetTaken_key⟩
  · exact execAccel_idle hw (accelAllowed_of_closed hpart hroot) ht
  · exact execAccel_barred hw (by simp [State.accelAllowed, hroot, hopen])
  · exact execAccel_starts hw (accelAllowed_of_closed hpart hroot) ht
  · exact execAccel_barred hw (by simp [State.accelAllowed, hpart])
  · have et : t = s.prioTaken w := et
    have same (h : w.extractLsb' 0 8 = s.org.prio) : exec (.reelect w) s = .next t.requalify.reelect.rpOk :=
      (execReelect_eq hw).trans (by rw [if_pos h, et])
    have changed (h : w.extractLsb' 0 8 ≠ s.org.prio) : exec (.reelect w) s = .next t.sendClaim.requalify.reelect.rpOk :=
      (execReelect_eq hw).trans (by rw [if_neg h, et])
    exact ⟨fun h ignored => by rw [same h, reelect_ignored ignored], fun h known root => by rw [same h, reelect_yields known root],
      fun h ignored => by rw [changed h, reelect_ignored ignored], fun h known root => by rw [changed h, reelect_yields known root]⟩
  obtain ⟨hst, hexit⟩ := configured_port (s := s) (p := p) (w := w)
  have set (hen : s.tlEnOk p = true) : exec (.tlEnSet p w) s = .next (((s.modPort p (·.configured w)).setTlEn p true).keepParent).rpOk :=
    execTlEnSet_settings hw hp hen hsw h8 h9
  have clear : exec (.tlEnClear p w) s = .next (((s.modPort p (·.configured w)).setTlEn p false).keepParent).rpOk :=
    execTlEnClear_settings hw hp hsw h8 h9
  refine ⟨fun hen hd hlow hm => ?_, fun hen h => ?_, fun hen => ?_, fun hu hm he => ?_, fun h => ?_, fun hd hu => ?_, execRetrain_loses hw hp,
    fun hu => (execCalNow_eq hw hp).trans (by rw [recalibrate_up hu]; rfl), fun hu => (execCalNow_eq hw hp).trans (by rw [recalibrate_not_up hu])⟩
  · rw [set hen, setTlEn_starts (hst.trans hd) hlow hm, State.modPort_modPort]
    rfl
  · rw [set hen, setTlEn_notes (by rwa [hst]), State.modPort_modPort]
    rfl
  · exact execTlEnSet_refused hw hen
  · rw [clear, setTlEn_leaves (hst.trans hu) hm (hexit.trans he), State.modPort_modPort]
    rfl
  · rw [clear, setTlEn_clears (by rwa [hst, hexit]), State.modPort_modPort]
    rfl
  · rw [clear, setTlEn_exits (by rwa [hst]) (by rwa [hst]), State.modPort_modPort]
    rfl

end Sys2Proof.Machine
end

section
/-!
SUPPORT. Training: the revision of two offers, and what TRAIN_SEND and TRAIN_RX do on a port that trains.
-/

namespace Sys2Proof.Machine

variable {s : State} {p : PortNo} {m : TrainMsg}

/-- R84: two offers settle on the lower of their tops, where neither starts above it. -/
theorem chooseRev_eq_some_iff {a b c d r : Nat} : chooseRev a b c d = some r ↔ min a c = r ∧ max b d ≤ r := by
  simp only [chooseRev, ge_iff_le, Option.ite_none_right_eq_some, Option.some.injEq]
  constructor
  · rintro ⟨le, rfl⟩
    exact ⟨rfl, le⟩
  · rintro ⟨rfl, le⟩
    exact ⟨le, rfl⟩

theorem chooseRev_eq_none_iff {a b c d : Nat} : chooseRev a b c d = none ↔ min a c < max b d := by
  simp only [chooseRev, ge_iff_le, ite_eq_right_iff, reduceCtorEq, imp_false, Nat.not_le]

/-- R84: the revision of a link lies in both ranges, and no greater one does. -/
theorem chooseRev_greatest {a b c d r : Nat} (h : chooseRev a b c d = some r) :
    b ≤ r ∧ r ≤ a ∧ d ≤ r ∧ r ≤ c ∧ ∀ x, b ≤ x → x ≤ a → d ≤ x → x ≤ c → x ≤ r := by
  obtain ⟨rfl, le⟩ := chooseRev_eq_some_iff.mp h
  obtain ⟨hb, hd⟩ := Nat.max_le.mp le
  exact ⟨hb, Nat.min_le_left .., hd, Nat.min_le_right .., fun x _ ha _ hc => Nat.le_min.mpr ⟨ha, hc⟩⟩

/-- R84: two ranges that settle on no revision share none. -/
theorem chooseRev_disjoint {a b c d : Nat} (h : chooseRev a b c d = none) (x : Nat) : ¬(b ≤ x ∧ x ≤ a ∧ d ≤ x ∧ x ≤ c) := by
  rintro ⟨hb, ha, hd, hc⟩
  have gap : min a c < max b d := chooseRev_eq_none_iff.mp h
  have overlap : max b d ≤ min a c := Nat.le_trans (Nat.max_le.mpr ⟨hb, hd⟩) (Nat.le_min.mpr ⟨ha, hc⟩)
  exact Nat.not_le.mpr gap overlap

/-- R40, R75: a flit on a port that has flit lock is recorded, whatever becomes of it. -/
theorem onFlit_locked {stamp : HT80} {head : List Byte} {f : State → State} (ha : s.alive = true) (hp : s.hasPort p = true)
    (hl : (s.port p).locked = true) : onFlit p stamp head s f = .next (f (s.traced stamp 0 p head).drew) := by
  rw [onFlit, onPort_alive (hasPort_iff.mp hp) ha, if_pos hl]

/-- R82: TRAIN goes out in the states that train. -/
theorem execTrainSend_trains (ha : s.alive = true) (hp : s.hasPort p = true) (hm : s.mute = false)
    (hst : (s.port p).st = .negotiate ∨ (s.port p).st = .calibrate ∨ (s.port p).st = .revFail) :
    execTrainSend p s = .next (s.emit (.train p (s.trainMsg p))) := by
  have trains : ((s.port p).st == .negotiate || (s.port p).st == .calibrate || (s.port p).st == .revFail) = true := by simpa [or_assoc] using hst
  simp only [execTrainSend, onPort_alive (hasPort_iff.mp hp) ha, trains, hm]
  rfl

/-- R84, R85: the port notes what its partner says of itself. -/
def Port.partnered (q : Port) (m : TrainMsg) : Port := { q with
  partnerMax := m.revMax.setWidth 4, partnerMin := m.revMin.setWidth 4, partnerHwid := m.hwid, partnerNode := m.node,
  partnerPort := m.port.setWidth 6, partnerAsym := m.asym, partnerNeg := m.negDone, partnerCal := m.calDone, partnerHub := m.isHub }

/-- R82, R84: a TRAIN in NEGOTIATE names the partner and settles the revision. -/
theorem execTrainRx_negotiate (ha : s.alive = true) (hp : s.hasPort p = true) (hst : (s.port p).st = .negotiate) :
    execTrainRx p m s = .next (((s.traced s.arrival 0 p (trainHead m)).drew.modPort p (·.partnered m)).negotiate p m) := by
  have locked : (s.port p).locked = true := by simp [Port.locked, hst]
  simp only [execTrainRx, onFlit_locked ha hp locked, State.traced_drew_port, hst]
  rfl

/-- R84: without a common revision the port fails. -/
theorem negotiate_fails (h : chooseRev (s.port p).ownMax.toNat 4 m.revMax.toNat m.revMin.toNat = none) :
    s.negotiate p m = (s.modPort p fun q => { q with negDone := false, rev := 0 }).enterSt p .revFail := by
  simp only [State.negotiate, h]

/-- R84, R85: the port has settled before, so that it compares no asymmetries, and its partner has settled on the same revision. -/
theorem negotiate_calibrates {r : Nat} (h : chooseRev (s.port p).ownMax.toNat 4 m.revMax.toNat m.revMin.toNat = some r)
    (hn : (s.port p).negDone = true) (hm : m.negDone = true) (hr : m.rev.toNat = r) :
    s.negotiate p m = (s.modPort p fun q => { q with negDone := true, rev := BitVec.ofNat 4 r }).enterSt p .calibrate := by
  simp [State.negotiate, h, hn, hm, hr]

end Sys2Proof.Machine
end

section
/-!
The statement of the training.
-/

namespace Sys2Proof.Machine

/-- Settles O24: TRAIN by the state of the port, and the revision as the lower top of two ranges that overlap. -/
theorem training : Obligations.Training := by
  unfold Obligations.Training
  refine ⟨fun s p ha hp => ⟨fun ⟨hm, hst⟩ => execTrainSend_trains ha hp hm hst, fun m hst => execTrainRx_negotiate ha hp hst,
    fun m h => negotiate_fails h, fun m r h hn hm hr => negotiate_calibrates h hn hm hr⟩,
    fun a b c d => ⟨fun r h => chooseRev_greatest h, fun h => chooseRev_disjoint h⟩⟩

end Sys2Proof.Machine
end

section
/-!
SUPPORT. Retry: what acknowledgements, timeouts and bad flits do on a port that the node uses.
-/

namespace Sys2Proof.Machine

variable {s : State} {p : PortNo} {f : Flit} {first : Option Flit}

/-- A port that the node uses has flit lock, and the node is neither safe nor losing its supply. -/
theorem portUp_iff : s.portUp p = true ↔ s.alive = true ∧ s.hasPort p = true ∧ (s.port p).st = .up ∧ s.mute = false := by
  simp [State.portUp, and_assoc]

theorem Port.locked_of_up {q : Port} (h : q.st = .up) : q.locked = true := by simp [Port.locked, h]

/-- R80: an unknown type changes a counter of the port and the inbox of the collector, not the state of a port. -/
theorem State.unknownFlit_st (ty : Byte) (q : PortNo) : ((s.unknownFlit p ty).port q).st = (s.port q).st :=
  s.modPort_see p q (fun q => { q with unknown := satInc q.unknown }) Port.st fun _ => rfl

/-- R95, R379: a flit in error counts, on its port and as evidence. -/
def State.crcCounted (s : State) (p : PortNo) : State := (s.modPort p fun q => { q with crcErr := satInc q.crcErr }).linkUnits p 1

/-- R92: a stomped flit counts. -/
def State.stompCounted (s : State) (p : PortNo) : State := s.modPort p fun q => { q with stomp := satInc q.stomp }

section Up
variable (h : s.portUp p = true)
include h

theorem onPort_portUp {g : State → State} : onPort p s g = .next (g s) := by
  obtain ⟨ha, hp, -⟩ := portUp_iff.mp h
  exact onPort_alive (hasPort_iff.mp hp) ha

/-- R93, R95, R96: an ACK frees the messages up to its SEQ; a NAK frees those before its own, which it asks for again. -/
theorem execAcknakRx_up {q : BitVec 5} {nak : Bool} : execAcknakRx p q nak s = .next (
    let t := (s.traced s.arrival 0 p (acknakHead q nak)).drew
    if nak then (t.ackUpTo p (q - 1)).replayFrom p q else t.ackUpTo p q) := by
  obtain ⟨ha, hp, hu, hm⟩ := portUp_iff.mp h
  simp [execAcknakRx, onFlit_up ha hp hu, State.traced_drew_port, State.traced_drew_mute, hu, hm]

/-- R96: a microsecond without progress, and the oldest message goes again with all that follow it. -/
theorem execReplayTimeout_due {x : Sent} {rest : List Sent} (hx : (s.port p).replay = x :: rest)
    (hack : tickLe ((s.port p).ackAt + 1000) s.tick = true) (hre : tickLe ((s.port p).replayAt + 1000) s.tick = true) :
    execReplayTimeout p s = .next (s.replayFrom p x.seq) := by
  obtain ⟨-, -, hu, hm⟩ := portUp_iff.mp h
  simp only [execReplayTimeout, onPort_portUp h, hx, hu, hm, hack, hre]
  rfl

/-- R92, R95: a flit in error counts; a sequenced one draws a NAK, and stomps the copies of the message that the port expects. -/
theorem execFlitErrorRx_bad (hb : crcVerdict f = .bad) : execFlitErrorRx p (f, first) s = .next (
    if flitSeqd f then
      (if (s.port p).expects f then (s.crcCounted p).stompCopies p (first.getD f) else s.crcCounted p).nak p
    else s.crcCounted p) := by
  obtain ⟨-, -, hu, hm⟩ := portUp_iff.mp h
  simp only [execFlitErrorRx, onPort_portUp h, Port.locked_of_up hu, hm, hb, hu]
  rfl

/-- R95: a sequenced flit out of sequence draws a NAK. -/
theorem execFlitErrorRx_outOfSequence (hb : crcVerdict f ≠ .bad) (hs : flitSeqd f = true) (he : (s.port p).expects f = false) :
    execFlitErrorRx p (f, none) s = .next (s.nak p) := by
  obtain ⟨-, -, hu, hm⟩ := portUp_iff.mp h
  simp [execFlitErrorRx, onPort_portUp h, Port.locked_of_up hu, hm, hb, hu, hs, he]

/-- R92, R95: a stomped message in turn is acknowledged, with its copies stomped; out of turn it draws a NAK. -/
theorem execStompedFlitRx_stomped (hv : crcVerdict f = .stomped) : execStompedFlitRx (p, f, first) s = .next (
    if (s.port p).expects f then ((s.stompCounted p).stompCopies p (first.getD f)).accept p
    else if flitSeqd f then (s.stompCounted p).nak p else s.stompCounted p) := by
  obtain ⟨-, -, hu, hm⟩ := portUp_iff.mp h
  simp only [execStompedFlitRx, onPort_portUp h, hu, hm, hv]
  rfl

/-- R80: an unknown type counts and is reported; a sequenced flit of it is accepted all the same. -/
theorem execUnknownFlitRx_unknown {ty : Byte} {sequenced : Bool} (hk : knownType ty = false) : execUnknownFlitRx p ty sequenced s =
    .next (if sequenced then (s.unknownFlit p ty).accept p else s.unknownFlit p ty) := by
  obtain ⟨-, -, hu, hm⟩ := portUp_iff.mp h
  simp [execUnknownFlitRx, onPort_portUp h, Port.locked_of_up hu, hm, hk, State.unknownFlit_st, hu]

end Up

end Sys2Proof.Machine
end

section
/-!
The statement of the retry.
-/

namespace Sys2Proof.Machine

/-- Settles O25: what arrives on a port in UP, by the verdict on its CRC, by whether it is sequenced and by whether the port expects it. -/
theorem retry : Obligations.Retry := by
  unfold Obligations.Retry
  intro s p h
  refine ⟨fun q => execAcknakRx_up h, fun q => execAcknakRx_up h, fun x rest hx hack hre => execReplayTimeout_due h hx hack hre,
    fun f first hb => ?_, fun f hb hs he => execFlitErrorRx_outOfSequence h hb hs he, fun f first hv => ?_,
    fun ty hk => execUnknownFlitRx_unknown h hk, fun ty hk => execUnknownFlitRx_unknown h hk, onPort_portUp h⟩
  · have bad : exec (.flitErrorRx p (f, first)) s = _ := execFlitErrorRx_bad h hb
    rw [bad]
    exact ⟨fun hs => by rw [if_neg (by simp [hs])]; rfl, fun hs he => by rw [if_pos hs, if_neg (by simp [he])]; rfl,
      fun hs he => by rw [if_pos hs, if_pos he]; rfl⟩
  · have stomped : exec (.stompedFlitRx (p, f, first)) s = _ := execStompedFlitRx_stomped h hv
    rw [stomped]
    exact ⟨fun he => by rw [if_pos he]; rfl, fun he hs => by rw [if_neg (by simp [he]), if_pos hs]; rfl⟩

end Sys2Proof.Machine
end

section
/-!
SUPPORT. The order of claims (R123): PRIO, QUAL and hardware ID compared as numbers.
-/

namespace Sys2Proof.Machine

/-- A claim is better by the first of its keys in which the two differ. -/
theorem claimBetter_iff (a b : ElectMsg) : claimBetter a b = true ↔
    a.prio.toNat < b.prio.toNat ∨ a.prio.toNat = b.prio.toNat ∧
      (a.qual.toNat < b.qual.toNat ∨ a.qual.toNat = b.qual.toNat ∧ a.hwid.toNat < b.hwid.toNat) := by
  simp only [claimBetter, bne_iff_ne, ne_eq, ← BitVec.toNat_inj]
  split
  · simp only [decide_eq_true_eq]
    omega
  · split <;> simp only [decide_eq_true_eq] <;> omega

/-- Of two claims of different hardware exactly one is better. -/
theorem claimBetter_swap {a b : ElectMsg} (h : a.hwid ≠ b.hwid) : claimBetter a b = !claimBetter b a := by
  have differ : a.hwid.toNat ≠ b.hwid.toNat := fun e => h (BitVec.eq_of_toNat_eq e)
  have one : claimBetter a b = true ↔ ¬claimBetter b a = true := by
    rw [claimBetter_iff, claimBetter_iff]
    omega
  rw [Bool.eq_iff_iff, one, Bool.not_eq_true, Bool.not_eq_true']

theorem claimBetter_trans {a b c : ElectMsg} (hab : claimBetter a b = true) (hbc : claimBetter b c = true) : claimBetter a c = true := by
  rw [claimBetter_iff] at *
  omega

/-- R123, R397, R416: what a candidate is. -/
theorem candidate_iff {s : State} :
    s.candidate = true ↔ s.org.prio ≠ 0xFF ∧ s.sun.st ≠ .untrusted ∧ s.elect.hold = false ∧ s.coresHalted = false := by
  simp [State.candidate, and_assoc]

end Sys2Proof.Machine
end

section
/-!
The statement of the election's order.
-/

namespace Sys2Proof.Machine

/-- Settles O12: the order of claims is that of their three keys, and a candidate fulfils four conditions. -/
theorem electionOrder : Obligations.ElectionOrder := by
  unfold Obligations.ElectionOrder
  refine ⟨fun s barred => ?_, fun s hp hst hh hc => candidate_iff.mpr ⟨fun e => ?_, hst, hh, hc⟩,
    fun a b => ⟨fun h => ?_, fun hp hq => ?_, fun hp hq => ?_, claimBetter_swap⟩, fun a b c => claimBetter_trans, rfl, rfl⟩
  · rw [← Bool.not_eq_true, candidate_iff]
    rintro ⟨hp, hst, -⟩
    exact barred.elim hp hst
  · rw [e] at hp
    exact absurd hp (by decide)
  · exact (claimBetter_iff a b).mpr (.inl h)
  · exact (claimBetter_iff a b).mpr (.inr ⟨congrArg _ hp, .inl hq⟩)
  · simp [claimBetter_iff, hp, hq]

end Sys2Proof.Machine
end

section
/-!
SUPPORT. Reference edges (R105, R106): what an edge does, by the type of its input and what came before.
-/

namespace Sys2Proof.Machine

variable {s : State} {n : Nat} {stamp : HT80} {w : BitVec 32}

/-- An event of an input that the profile has: QUAL follows it (R124). -/
theorem onRef_alive {f : State → State} (hn : s.hasRef n = true) (h : s.alive = true) : onRef n s f = .next (f s).requalify := by
  simp [onRef, hn, whenAlive_alive h]

/-- The input has had an edge that predicts the next one. -/
def State.edgeNoted (s : State) (n : Nat) (stamp : HT80) : State := s.modIn n fun i => { i with lastEdge := some stamp, expect := some stamp }

/-- R104: an undeclared input is deaf. -/
theorem refEdge_undeclared (ht : (s.refIn n).type = 0) : s.refEdge n stamp w = s := by simp only [State.refEdge, ht, if_true]

/-- R105: a 1PPS by the width of its pulse and the edge that it was predicted from. -/
theorem refEdge_pps (ht : (s.refIn n).type = 1) : s.refEdge n stamp w =
    if w.toNat < 1000 ∨ 500000000 < w.toNat then ((s.edgeNoted n stamp).disqualify n ((Config.anyWord s.freeIx).setWidth 8)).drew
    else match (s.refIn n).expect with
      | none => (s.edgeNoted n stamp).refGood n
      | some e =>
        if (s.ppsError n e stamp).natAbs ≤ 65536000 then
          (((s.edgeNoted n stamp).modIn n fun i => { i with misses := 0 }).refGood n).useEdge n stamp
        else if (s.refIn n).misses = 0 then s.modIn n fun i => { i with misses := 1, phaseHit := true, lastEdge := some stamp }
        else (s.edgeNoted n stamp).disqualify n 0x04 := by
  have declared : ¬(1 : BitVec 2) = 0 := by decide
  simp only [State.refEdge, ht, if_neg declared, if_true, Bool.or_eq_true, decide_eq_true_eq]
  rfl

/-- R105: an edge of a frequency by its distance from the one before. -/
theorem refEdge_frequency (ht : (s.refIn n).type = 2 ∨ (s.refIn n).type = 3) : s.refEdge n stamp w =
    match (s.refIn n).lastEdge with
    | none => s.edgeNoted n stamp
    | some e =>
      if (htDiff stamp e - refPeriod (s.refIn n).type).natAbs * 20 ≤ refPeriod (s.refIn n).type then
        ((s.edgeNoted n stamp).refGood n).useEdge n stamp
      else (s.edgeNoted n stamp).disqualify n 0x02 := by
  have declared : (s.refIn n).type ≠ 0 := by rcases ht with h | h <;> rw [h] <;> decide
  have frequency : (s.refIn n).type ≠ 1 := by rcases ht with h | h <;> rw [h] <;> decide
  simp only [State.refEdge, if_neg declared, if_neg frequency]
  rfl

/-- R105: off the root an edge is predicted a whole number of seconds after its predecessor. -/
theorem ppsError_off_root {e : HT80} (h : s.sun.isRoot = false) : s.ppsError n e stamp =
    htDiff stamp e - max 1 ((htDiff stamp e + 32768000000000).fdiv 65536000000000) * 65536000000000 := by
  simp [State.ppsError, h, refPeriod, nsPerS]

end Sys2Proof.Machine
end

section
/-!
The statement of the reference edges.
-/

namespace Sys2Proof.Machine

/-- Settles O17: the edge by the type of its input, each type by what came before. -/
theorem referenceEdge : Obligations.ReferenceEdge := by
  unfold Obligations.ReferenceEdge
  intro s t n stamp w ha hn et
  have et : t = s.edgeNoted n.toNat stamp := et
  have edge : exec (.refInEdge n stamp w) s = .next (s.refEdge n.toNat stamp w).requalify := onRef_alive hn ha
  subst et
  rw [edge]
  refine ⟨fun ht => by rw [refEdge_undeclared ht], fun ⟨ht, hw⟩ => by rw [refEdge_pps ht, if_pos hw], fun ⟨ht, hl, hh⟩ => ?_, fun ht => ?_,
    fun e h => ppsError_off_root h, by decide⟩
  · have width : ¬(w.toNat < 1000 ∨ 500000000 < w.toNat) := by omega
    rw [refEdge_pps ht, if_neg width]
    refine ⟨fun he => by simp only [he], fun e he => ?_⟩
    simp only [he]
    exact ⟨fun inTime => by rw [if_pos inTime], fun ⟨off, first⟩ => by rw [if_neg (Nat.not_le.mpr off), if_pos first],
      fun ⟨off, again⟩ => by rw [if_neg (Nat.not_le.mpr off), if_neg again]⟩
  · rw [refEdge_frequency ht]
    refine ⟨fun hl => by simp only [hl], fun e hl => ?_⟩
    simp only [hl]
    exact ⟨fun inTime => by rw [if_pos inTime], fun off => by rw [if_neg (Nat.not_le.mpr off)]⟩

end Sys2Proof.Machine
end

section
/-!
SUPPORT. Qualification of references (R105): an input without edges, off its frequency, and good for ten seconds.
-/

namespace Sys2Proof.Machine

variable {s : State} {n : BitVec 2}

/-- The frequency of the second just past enters the input's list (R108). -/
def State.freqNoted (s : State) (n : Nat) (ppb : BitVec 32) : State := s.modIn n fun i => { i with freqs := (ppb.toInt :: i.freqs).take 100 }

section Input
variable (ha : s.alive = true) (hn : s.hasRef n.toNat = true)
include ha hn

theorem execRefEdgeMissing_due {e : HT80} (he : (s.refIn n.toNat).lastEdge = some e) (ht : (s.refIn n.toNat).type ≠ 0)
    (hdue : htLe (htAdd e (missingLimit (s.refIn n.toNat).type)) s.stamp = true) :
    execRefEdgeMissing n s =
      .next ((s.disqualify n.toNat 0x01).modIn n.toNat fun i => { i with lastEdge := none, expect := none }).requalify := by
  have due : ((s.refIn n.toNat).type != 0 && htLe (htAdd e (missingLimit (s.refIn n.toNat).type)) s.stamp) = true := by
    rw [hdue, Bool.and_true, bne_iff_ne]
    exact ht
  rw [execRefEdgeMissing, onRef_alive hn ha]
  simp only [he, due, if_true]

theorem execRefFreqCheck_declared {ppb : BitVec 32} (ht : (s.refIn n.toNat).type ≠ 0) : execRefFreqCheck n ppb s = .next (State.requalify
    (if (s.refIn n.toNat).type ≠ 1 ∧ 100000 < ppb.toInt.natAbs then (s.freqNoted n.toNat ppb).disqualify n.toNat 0x03
    else s.freqNoted n.toNat ppb)) := by
  rw [execRefFreqCheck, onRef_alive hn ha]
  simp only [if_neg ht, Bool.and_eq_true, bne_iff_ne, decide_eq_true_eq]
  rfl

theorem execWaitToRestoreEnd_restores {t : Tick} (hg : (s.refIn n.toNat).goodSince = some t) (hact : (s.refIn n.toNat).act = true)
    (hq : (s.refIn n.toNat).qual = false) (hdue : tickLe (t + 10000000000) s.tick = true) :
    execWaitToRestoreEnd n s = .next ((s.modIn n.toNat fun i => { i with qual := true, wtr := false }).runSelection).requalify := by
  have due : ((s.refIn n.toNat).act && !(s.refIn n.toNat).qual && tickLe (t + BitVec.ofNat 64 (10 * nsPerS)) s.tick) = true := by
    rw [hact, hq]
    simpa [nsPerS] using hdue
  rw [execWaitToRestoreEnd, onRef_alive hn ha]
  simp only [hg, due, if_true]

end Input

end Sys2Proof.Machine
end

section
/-!
SUPPORT. The comparison of references (R108, R109): what one pair's comparison marks and reports.
-/

namespace Sys2Proof.Machine

variable {s : State} {k a b d w : Nat}

/-- R108: the mark of a pair goes after a whole window at or below 80 % of LIMIT. -/
theorem compare_calms {q : RefPair} {lim : Nat} (hq : q.conflict = true) (hd : d * 5 ≤ lim * 4) :
    q.compare d w lim = if w ≤ q.calm + 1 then {} else { q with calm := q.calm + 1 } := by
  have below : ¬d > lim := by omega
  have calm : ¬(!q.conflict || decide (d * 5 > lim * 4)) = true := by
    rw [hq, Bool.not_true, Bool.false_or, decide_eq_true_eq]
    omega
  rw [RefPair.compare, if_neg below, if_neg calm]

/-- R108: beyond LIMIT a pair is in conflict. -/
theorem compare_marks {q : RefPair} {lim : Nat} (h : lim < d) : q.compare d w lim = { conflict := true } := if_pos h

/-- R108: only qualified inputs of one rank are compared. -/
theorem pairDiff_comparable (h : s.pairDiff a b = some (d, w)) :
    ((s.refIn a).qual && (s.refIn b).qual && (s.refIn a).rank == (s.refIn b).rank) = true := by
  unfold State.pairDiff at h
  dsimp only at h
  split at h
  next comparable => exact comparable
  next => cases h

/-- R108: DIFF and the mark of pair `k` after it differs by `d`. -/
def State.pairMarked (s : State) (k d : Nat) : State := s.modOrg fun o => { o with
  diff := if o.diff.toNat < d then satNat 16 d else o.diff, pairs := o.pairs.set k { conflict := true } }

/-- R109: the CE of a pair whose difference is known. -/
theorem raiseConflict_eq (hk : refPairs[k]? = some (a, b)) (hd : s.pairDiff a b = some (d, w)) :
    s.raiseConflict k = (s.raiseNow (ce 0x02 0x01) 0 none (detail [(24, 1, a), (25, 1, b), (26, 2, min d 65535)])).modOrg
      fun o => { o with conflictAt := s.tick } := by
  simp only [State.raiseConflict, List.getD_eq_getElem?_getD, hk, Option.getD_some, hd, Option.map_some]

/-- R108, R109: a pair that differs by more than LIMIT is marked, and reported if it was not marked before. -/
theorem comparePair_differs (hk : refPairs[k]? = some (a, b)) (hd : s.pairDiff a b = some (d, w)) (hl : s.org.limit.toNat < d) :
    s.comparePair k = if (s.org.pairs.getD k {}).conflict = true then s.pairMarked k d else
      ((s.pairMarked k d).raiseNow (ce 0x02 0x01) 0 none (detail [(24, 1, a), (25, 1, b), (26, 2, min d 65535)])).modOrg
        fun o => { o with conflictAt := s.tick } := by
  have report : (s.pairMarked k d).raiseConflict k = _ := raiseConflict_eq (s := s.pairMarked k d) hk hd
  simp only [State.comparePair, List.getD_eq_getElem?_getD, hk, Option.getD_some, pairDiff_comparable hd, hd, compare_marks hl]
  unfold State.pairMarked at report ⊢
  rw [report]
  cases (s.org.pairs[k]?.getD {}).conflict <;> rfl

/-- The inbox gains one report, or none. -/
theorem comparePair_inbox (hk : refPairs[k]? = some (a, b)) (hd : s.pairDiff a b = some (d, w)) (hl : s.org.limit.toNat < d) :
    (s.comparePair k).fc.inbox = s.fc.inbox ++ (if (s.org.pairs.getD k {}).conflict then [] else
      [{ code := ce 0x02 0x01, loc := 0, partV := false, ptag := 0, stamp := s.stamp
         detail := detail [(24, 1, a), (25, 1, b), (26, 2, min d 65535)] }]) := by
  rw [comparePair_differs hk hd hl]
  split
  · exact (List.append_nil _).symm
  · rfl

/-- The comparison changes the mark of its pair, and no input. -/
theorem comparePair_org (hk : refPairs[k]? = some (a, b)) (hd : s.pairDiff a b = some (d, w)) (hl : s.org.limit.toNat < d) :
    (s.comparePair k).org.ins = s.org.ins ∧ (s.comparePair k).org.pairs = s.org.pairs.set k { conflict := true } := by
  rw [comparePair_differs hk hd hl]
  split <;> exact ⟨rfl, rfl⟩

/-- R108: an input is suspect that a pair in conflict names. -/
theorem markSuspects_suspect {o : Org} {n : Nat} (hn : n < o.ins.length) (hk : refPairs[k]? = some (a, b)) (hq : o.pairs[k]? = some q)
    (hc : q.conflict = true) (hab : n = a ∨ n = b) : (o.markSuspects.ins.getD n {}).suspect = true := by
  have mem : ((a, b), q) ∈ refPairs.zip o.pairs := List.mem_of_getElem? (i := k) (by rw [List.getElem?_zip_eq_some]; exact ⟨hk, hq⟩)
  simp only [Org.markSuspects, List.getD_eq_getElem?_getD, List.getElem?_map, List.getElem?_zipIdx, List.getElem?_eq_getElem hn,
    Option.map_some, Option.getD_some, List.any_eq_true]
  refine ⟨_, mem, ?_⟩
  rcases hab with rfl | rfl <;> simp [hc]

/-- Every pair is of two of the four inputs. -/
theorem refPairs_lt (hk : refPairs[k]? = some (a, b)) : a < 4 ∧ b < 4 ∧ k < 6 := by
  have inputs : ∀ x ∈ refPairs, x.1 < 4 ∧ x.2 < 4 := by decide
  obtain ⟨ha, hb⟩ := inputs _ (List.mem_of_getElem? hk)
  exact ⟨ha, hb, (List.getElem?_eq_some_iff.mp hk).1⟩

/-- R108: both inputs of a pair that differs by more than LIMIT are suspect. -/
theorem comparePair_suspects (hk : refPairs[k]? = some (a, b)) (hd : s.pairDiff a b = some (d, w)) (hl : s.org.limit.toNat < d)
    (hp : s.org.pairs.length = 6) (hi : s.org.ins.length = 4) {n : Nat} (hab : n = a ∨ n = b) :
    (((s.comparePair k).modOrg Org.markSuspects).refIn n).suspect = true := by
  obtain ⟨ins, pairs⟩ := comparePair_org hk hd hl
  obtain ⟨ha, hb, h6⟩ := refPairs_lt hk
  refine markSuspects_suspect (q := { conflict := true }) ?_ hk ?_ rfl hab
  · rw [ins, hi]
    rcases hab with rfl | rfl <;> assumption
  · rw [pairs, List.getElem?_set_self (by rwa [hp])]

/-- R108 to R110: the once-a-second comparison of the six pairs. -/
theorem execRefAgreeCompare_eq (ha : s.alive = true) : execRefAgreeCompare s = .next
    (((List.range 6).foldl State.comparePair (s.applyDecl.modOrg fun o => { o with diff := 0 })).modOrg Org.markSuspects).runSelection.requalify := by
  rw [execRefAgreeCompare, whenAlive_alive ha]

/-- R109: a mark that stands is reported again. -/
theorem execReferenceConflictRepeat_reports (ha : s.alive = true) (hdue : tickLe (s.org.conflictAt + 60000000000) s.tick = true)
    (hk : (List.range 6).find? (fun k => (s.org.pairs.getD k {}).conflict) = some k) : execReferenceConflictRepeat s = .next (s.raiseConflict k) := by
  have due : tickLe (s.org.conflictAt + BitVec.ofNat 64 (60 * nsPerS)) s.tick = true := by simpa [nsPerS] using hdue
  rw [execReferenceConflictRepeat, whenAlive_alive ha, if_pos due, hk]

/-- R109: no mark, no report. -/
theorem execReferenceConflictRepeat_unmarked (ha : s.alive = true) (h : ∀ k < 6, (s.org.pairs.getD k {}).conflict = false) :
    execReferenceConflictRepeat s = .next s := by
  have unmarked : (List.range 6).find? (fun k => (s.org.pairs.getD k {}).conflict) = none := by
    rw [List.find?_eq_none]
    intro k hk
    rw [h k (List.mem_range.mp hk)]
    decide
  rw [execReferenceConflictRepeat, whenAlive_alive ha, unmarked, ite_self]

end Sys2Proof.Machine
end

section
/-!
The statement of the qualification.
-/

namespace Sys2Proof.Machine

/-- Settles O18: an input by its edges, its frequency and its seconds; a pair by its difference and its mark. -/
theorem referenceQualification : Obligations.ReferenceQualification := by
  unfold Obligations.ReferenceQualification
  refine ⟨fun s n ha hn => ⟨fun e he ht hdue => execRefEdgeMissing_due ha hn he ht hdue, fun ppb h => ?_, fun ppb ht hf => ?_,
    fun t hg hact hq hdue => execWaitToRestoreEnd_restores ha hn hg hact hq hdue⟩, fun s ha => execRefAgreeCompare_eq ha,
    fun s k a b d w hk hd hl hp hi => ⟨comparePair_suspects hk hd hl hp hi (.inl rfl), comparePair_suspects hk hd hl hp hi (.inr rfl),
      comparePair_inbox hk hd hl⟩,
    fun q d w lim hq hd => compare_calms hq hd,
    fun s ha => ⟨fun k hdue hk => execReferenceConflictRepeat_reports ha hdue hk, execReferenceConflictRepeat_unmarked ha⟩⟩
  · have declared : (s.refIn n.toNat).type ≠ 0 := h.elim (fun e => by rw [e]; decide) And.left
    have passes : ¬((s.refIn n.toNat).type ≠ 1 ∧ 100000 < ppb.toInt.natAbs) := fun ⟨frequency, hf⟩ =>
      h.elim frequency fun ⟨_, inBand⟩ => Nat.not_le.mpr hf inBand
    exact (execRefFreqCheck_declared ha hn declared).trans (by rw [if_neg passes]; rfl)
  · have declared : (s.refIn n.toNat).type ≠ 0 := by rcases ht with e | e <;> rw [e] <;> decide
    have frequency : (s.refIn n.toNat).type ≠ 1 := by rcases ht with e | e <;> rw [e] <;> decide
    exact (execRefFreqCheck_declared ha hn declared).trans (by rw [if_pos ⟨frequency, hf⟩]; rfl)

end Sys2Proof.Machine
end

section
/-!
SUPPORT. The timers of the Orangery: the end of a MEASURE, the seconds of the history, and the stages of lock acceleration.
-/

namespace Sys2Proof.Machine

variable {s : State}

/-- R115: a MEASURE that has its edges is committed. -/
theorem execMeasureEnd_commits (ha : s.alive = true) {m : Measure} {n : Nat} (hm : s.org.measure = some m) (hn : selInput s.org.target = some n)
    (hs : s.org.switching = true) (he : measureEdges (s.refIn n).type ≤ m.edges) :
    execMeasureEnd s = .next (s.commitSwitch n m).runSelection.requalify := by
  have done : (s.org.switching && decide (m.edges ≥ measureEdges (s.refIn n).type)) = true := by simpa [hs] using he
  rw [execMeasureEnd, whenAlive_alive ha]
  simp only [hm, hn, done, if_true]

section Second
variable (ha : s.alive = true) (hdue : tickLe (s.org.histAt + 1000000000) s.tick = true)
include ha hdue

/-- R119: a second of LOCKED at stage 4, without acceleration or switch, enters the history with its mean rate. -/
theorem execHoldHistoryStore_locked (hst : s.sun.st = .locked) (hd : s.org.dirty = false) (h4 : s.org.stage = 4) (hs : s.org.switching = false)
    (hacc : s.org.accel = false) :
    execHoldHistoryStore s = .next (State.requalify { s with org := { s.org with
      hist := (some ((s.org.rateAcc + s.org.rate * (s.tick - s.org.rateSince).toNat).fdiv 1000000000) :: s.org.hist).take 512
      lockedS := s.org.lockedS + 1, rateAcc := 0, rateSince := s.tick, dirty := false, histAt := s.tick } }) := by
  have due : tickLe (s.org.histAt + BitVec.ofNat 64 nsPerS) s.tick = true := by simpa [nsPerS] using hdue
  rw [execHoldHistoryStore, whenAlive_alive ha, if_pos due]
  simp only [Org.integrate, hst, hd, h4, hs, hacc]
  rfl

/-- R119, R120: a second of HOLDOVER is invalid, and counts in AGE. -/
theorem execHoldHistoryStore_holdover (hst : s.sun.st = .holdover) :
    execHoldHistoryStore s = .next (State.requalify { s with org := { s.org with
      hist := (none :: s.org.hist).take 512, age := satInc s.org.age, rateAcc := 0, rateSince := s.tick, dirty := true, histAt := s.tick } }) := by
  have due : tickLe (s.org.histAt + BitVec.ofNat 64 nsPerS) s.tick = true := by simpa [nsPerS] using hdue
  rw [execHoldHistoryStore, whenAlive_alive ha, if_pos due]
  simp only [Org.integrate, hst]
  rfl

end Second

/-- R114: nothing stops the acceleration of a node that is not root, or of a fabric without partitions. -/
theorem stopAccel_idle (h : ¬(s.sun.isRoot = true ∧ s.fabricOpen = true)) : s.stopAccel = s := by
  have idle : ¬(s.sun.isRoot && s.fabricOpen && s.org.accel) = true := by
    simp only [Bool.and_eq_true]
    exact fun ⟨open_, _⟩ => h open_
  rw [State.stopAccel, if_neg idle]

/-- R114: with a partition open in the fabric the root stops accelerating. -/
theorem execAccelStageEnd_stops (ha : s.alive = true) (hacc : s.org.accel = true) (hr : s.sun.isRoot = true) (ho : s.fabricOpen = true) :
    execAccelStageEnd s = .next { s with org := { s.org with accel := false, stage := 4, reps := 0, belowSince := none } } := by
  have stopped : s.stopAccel = s.modOrg fun o => { o with accel := false, stage := 4, reps := 0, belowSince := none } := by
    simp [State.stopAccel, hacc, hr, ho]
  rw [execAccelStageEnd, whenAlive_alive ha, stopped]
  rfl

/-- R113: the phase error lies within the lock threshold of the source. -/
def State.phaseLocked (s : State) : Bool := decide (s.org.perr.toInt.natAbs < (unitsToPs (lockLimit s.org.srcType)).natAbs)

/-- R113: acceleration ends, and the rate of the lock is kept. -/
def State.accelDone (s : State) : State := s.modOrg fun o => { o with stage := 4, accel := false, reps := 0, rateAtLock := o.rate }

/-- R112, R113: what the end of a dwell leads to. -/
theorem execAccelStageEnd_due (ha : s.alive = true) (hacc : s.org.accel = true) (hsrc : s.org.srcType ≠ 0)
    (ho : ¬(s.sun.isRoot = true ∧ s.fabricOpen = true))
    (hdue : tickLe (s.org.stageSince + BitVec.ofNat 64 (stageDwell s.org.srcType s.org.stage.toNat)) s.tick = true) :
    execAccelStageEnd s = .next (
      if s.org.stage.toNat < 3 then s.modOrg fun o => { o with stage := o.stage + 1, stageSince := s.tick }
      else if s.phaseLocked then s.accelDone.enterLocked
      else if s.org.reps ≥ 4 then
        (s.raiseNow (ce 0x02 0x02) 0 none (detail [(24, 1, s.org.srcType.toNat), (26, 2, s.org.perr.toNat)])).startAccel
      else s.modOrg fun o => { o with reps := o.reps + 1, stageSince := s.tick }) := by
  have due : (s.org.accel && s.org.srcType != 0 &&
      tickLe (s.org.stageSince + BitVec.ofNat 64 (stageDwell s.org.srcType s.org.stage.toNat)) s.tick) = true := by
    rw [hacc, hdue, Bool.true_and, Bool.and_true, bne_iff_ne]
    exact hsrc
  rw [execAccelStageEnd, whenAlive_alive ha, stopAccel_idle ho]
  simp only [due, if_true]
  rfl

/-- R113, R118: a node that is LOCKED or UNTRUSTED stays so. -/
theorem enterLocked_locked (h : s.sun.st = .locked) : s.enterLocked = s := by simp [State.enterLocked, h]

/-- R113, R120: any other is LOCKED, with AGE 0. -/
theorem enterLocked_enters (hu : s.sun.st ≠ .untrusted) (hl : s.sun.st ≠ .locked) :
    s.enterLocked = (s.modSun fun u => { u with st := .locked, rootSt := if u.isRoot then 1 else u.rootSt }).modOrg fun o =>
      { o.newSecond s.tick with age := 0, short := false, frozen := false, everLocked := true, lockedS := 0, dirty := o.accel || o.switching } := by
  simp [State.enterLocked, hu, hl]

end Sys2Proof.Machine
end

section
/-!
The statement of the Orangery's timers.
-/

namespace Sys2Proof.Machine

/-- Settles O19: a MEASURE by its edges, a second by the state of the Sundial, a dwell by its stage, the phase error and the repetitions. -/
theorem orangeryTimers : Obligations.OrangeryTimers := by
  unfold Obligations.OrangeryTimers
  refine fun s ha => ⟨fun m n hm hn hs he => execMeasureEnd_commits ha hm hn hs he,
    fun ⟨hdue, hst, hd, h4, hs, hacc⟩ => execHoldHistoryStore_locked ha hdue hst hd h4 hs hacc,
    fun ⟨hdue, hst⟩ => execHoldHistoryStore_holdover ha hdue hst, fun ⟨hacc, hr, ho⟩ => execAccelStageEnd_stops ha hacc hr ho,
    fun ⟨hacc, hsrc, ho, hdue⟩ => ?_⟩
  have ended : exec .accelStageEnd s = _ := execAccelStageEnd_due ha hacc hsrc ho hdue
  have near (h : s.org.perr.toInt.natAbs < (unitsToPs (lockLimit s.org.srcType)).natAbs) : s.phaseLocked = true := decide_eq_true h
  have far (h : (unitsToPs (lockLimit s.org.srcType)).natAbs ≤ s.org.perr.toInt.natAbs) : ¬s.phaseLocked = true := by
    simpa [State.phaseLocked] using h
  rw [ended]
  refine ⟨fun early => by rw [if_pos early]; rfl, fun ⟨last, hp, hu, hl⟩ => ⟨_, by rw [if_neg (Nat.not_lt.mpr last), if_pos (near hp)], ?_⟩,
    fun ⟨last, hp, hl⟩ => ?_, fun ⟨last, hp, hr⟩ => ?_, fun ⟨last, hp, hr⟩ => ?_⟩
  · rw [enterLocked_enters (s := s.accelDone) hu hl]
    exact ⟨rfl, rfl, rfl, rfl, rfl, rfl, rfl, rfl, rfl⟩
  · rw [if_neg (Nat.not_lt.mpr last), if_pos (near hp), enterLocked_locked (s := s.accelDone) hl]
    rfl
  · rw [if_neg (Nat.not_lt.mpr last), if_neg (far hp), if_neg (Nat.not_le.mpr hr)]
    rfl
  · rw [if_neg (Nat.not_lt.mpr last), if_neg (far hp), if_pos hr]

end Sys2Proof.Machine
end

section
/-!
SUPPORT. Messages that become ready: they enter the queues of ports, and nothing else of the state changes.
-/

namespace Sys2Proof.Machine

/-- `t` is `s` with more messages in the queues of its ports. -/
def Queues (s t : State) : Prop := ∃ f : List Port → List Port, t = s.modPorts f ∧ ∀ l, (f l).map Port.st = l.map Port.st

variable {s t u : State}

theorem Queues.refl : Queues s s := ⟨id, rfl, fun _ => rfl⟩

theorem Queues.trans (h : Queues s t) (g : Queues t u) : Queues s u := by
  obtain ⟨f, rfl, hf⟩ := h
  obtain ⟨f', rfl, hf'⟩ := g
  exact ⟨f' ∘ f, rfl, fun l => (hf' _).trans (hf l)⟩

theorem Queues.foldl {α : Type} {f : State → α → State} (h : ∀ s a, Queues s (f s a)) (l : List α) : Queues s (l.foldl f s) := by
  induction l generalizing s with
  | nil => exact .refl
  | cons a l ih => exact (h s a).trans ih

/-- The queue of one port. -/
theorem Queues.modPort {p : PortNo} {f : Port → Port} (h : ∀ q, (f q).st = q.st) : Queues s (s.modPort p f) :=
  ⟨fun l => l.modify p.toNat f, rfl, fun l => by
    refine List.ext_getElem? fun i => ?_
    simp only [List.getElem?_map, List.getElem?_modify, Option.map_eq_map, Option.map_map]
    refine congrArg (Option.map · l[i]?) (funext fun q => ?_)
    simp only [Function.comp_apply, apply_ite Port.st, h, ite_self]⟩

theorem Queues.sun (h : Queues s t) : t.sun = s.sun := by obtain ⟨f, rfl, -⟩ := h; rfl

/-- The ports in UP stay so. -/
theorem Queues.upPorts (h : Queues s t) : t.upPorts = s.upPorts := by
  obtain ⟨f, rfl, hf⟩ := h
  have states : (f s.ports).map Port.st = s.ports.map Port.st := hf s.ports
  have ports : (f s.ports).length = s.ports.length := by simpa using congrArg List.length states
  have st (p : PortNo) : ((s.modPorts f).port p).st = (s.port p).st := by
    have at_p : (f s.ports)[p.toNat]?.map Port.st = s.ports[p.toNat]?.map Port.st := by rw [← List.getElem?_map, states, List.getElem?_map]
    simp only [State.port, State.modPorts_ports, List.getD_eq_getElem?_getD]
    rw [← Option.getD_map Port.st, at_p, Option.getD_map Port.st]
  simp only [State.upPorts, State.portNos, State.modPorts_ports, ports, st]

theorem State.send_queues (p : PortNo) (cls : Nat) (m : Msg) : Queues s (s.send p cls m) := by
  unfold State.send
  split
  · exact .modPort fun _ => rfl
  · exact .refl

theorem State.sendOn_queues (ps : List PortNo) (cls : Nat) (m : Msg) : Queues s (s.sendOn ps cls m) :=
  .foldl (fun _ _ => State.send_queues ..) ps

theorem State.sendExcept_queues (p : Option PortNo) (cls : Nat) (m : Msg) : Queues s (s.sendExcept p cls m) := State.sendOn_queues ..

theorem State.sendPair_queues (p : PortNo) (d : DelayMsg) (a : AnnounceMsg) : Queues s (s.sendPair p d a) := by
  unfold State.sendPair
  split
  · exact .modPort fun _ => rfl
  · exact .refl

theorem State.mirror_queues (m : MirrorMsg) : Queues s (s.mirror m) := by
  unfold State.mirror
  split
  · split
    · exact State.send_queues ..
    · exact .refl
  · exact .refl

end Sys2Proof.Machine
end

section
/-!
SUPPORT. The role of a node in the tree, and what leaves it alone: sending, selection, and all that a new root tells its neighbours.
-/

namespace Sys2Proof.Machine

/-- What a node is in the tree: root or standby, its distance, its parent, and the IDs that it goes by. -/
structure Role where
  isRoot : Bool
  isStandby : Bool
  hops : Byte
  parent : Option PortNo
  withdrawn : Bool
  rootLostAt : Option Tick
  node : NodeId
  root : NodeId

/-- The role as the Sundial and the election hold it. -/
def State.role (s : State) : Role where
  isRoot := s.sun.isRoot
  isStandby := s.sun.isStandby
  hops := s.elect.hops
  parent := s.elect.parent
  withdrawn := s.elect.withdrawn
  rootLostAt := s.elect.rootLostAt
  node := s.elect.node
  root := s.elect.root

variable (s : State)

theorem Queues.role {s t : State} (h : Queues s t) : t.role = s.role := by obtain ⟨f, rfl, -⟩ := h; rfl

theorem State.modFab_role (f : Fabric → Fabric) : (s.modFab f).role = s.role := rfl

theorem ite_role {c : Prop} [Decidable c] {a b t : State} (h : a.role = t.role) (g : b.role = t.role) : (if c then a else b).role = t.role := by
  split <;> assumption

theorem foldl_role {α : Type} {f : State → α → State} (l : List α) (h : ∀ s a, (f s a).role = s.role) : (l.foldl f s).role = s.role := by
  induction l generalizing s with
  | nil => rfl
  | cons a l ih => exact (ih (f s a)).trans (h s a)

-- The Orangery of a new root.

theorem State.runSelection_role : s.runSelection.role = s.role := by
  unfold State.runSelection
  refine ite_role rfl ?_
  split
  · rfl
  · exact ite_role rfl rfl

theorem State.enterHoldover_role : s.enterHoldover.role = s.role := by
  unfold State.enterHoldover
  split <;> rfl

theorem State.loseSelected_role : s.loseSelected.role = s.role := s.enterHoldover_role

-- Claims, offers and the change of root.

theorem State.sendClaim_role : s.sendClaim.role = s.role := by
  unfold State.sendClaim
  exact ite_role (State.sendExcept_queues ..).role rfl

theorem State.sendOffers_role : s.sendOffers.role = s.role := by
  unfold State.sendOffers
  exact ite_role (State.sendExcept_queues ..).role rfl

theorem State.announceAll_role : s.announceAll.role = s.role := (State.sendExcept_queues ..).role

theorem State.stateLost_role : s.stateLost.role = s.role := by
  unfold State.stateLost
  exact ite_role rfl rfl

/-- R136: a change of root changes the root that the node names. -/
theorem State.setRoot_role (r : NodeId) : (s.setRoot r).role = { s.role with root := r } := by
  unfold State.setRoot
  split
  next h => rw [← h]; rfl
  next =>
    have lost : (if s.elect.root != noNode && s.elect.withdrawn && tickLe (s.elect.withdrawnAt + 200000) s.tick then s.stateLost else s).role = s.role :=
      ite_role s.stateLost_role rfl
    exact (State.announceAll_role _).trans (congrArg (fun x : Role => { x with root := r }) lost)

-- What the root tells its standby and its nodes.

theorem State.modNode_role (h : BitVec 64) (f : NodeRow → NodeRow) : (s.modNode h f).role = s.role := by
  unfold State.modNode
  dsimp only
  split
  · exact (State.mirror_queues _).role
  · rfl

theorem State.sendAssign_role (r : NodeRow) : (s.sendAssign r).role = s.role := by
  unfold State.sendAssign State.forwardAssign
  split
  · exact ite_role (State.send_queues ..).role rfl
  · rfl

theorem State.reassignBelow_role (r : NodeRow) : (s.reassignBelow r).role = s.role :=
  foldl_role _ _ fun _ _ => (State.sendAssign_role ..).trans (State.modNode_role ..)

theorem State.takeReport_role (d : DelayMsg) (a : AnnounceMsg) : (s.takeReport d a).role = s.role := by
  unfold State.takeReport
  dsimp only
  split
  · exact (State.reassignBelow_role ..).trans ((State.sendAssign_role ..).trans (State.mirror_queues _).role)
  · refine ite_role (ite_role rfl rfl) ?_
    have placed {t : State} {c : Prop} [Decidable c] {x : NodeRow} (h : t.role = s.role) : (if c then t.sendAssign x else t).role = s.role :=
      ite_role ((State.sendAssign_role ..).trans h) h
    have moved := State.modNode_role (s.modFab fun b => { b with delays := assocSet (d.node, d.port) d.delay b.delays }) a.hwid
    exact ite_role ((State.reassignBelow_role ..).trans (placed (moved _))) (placed (moved _))

theorem State.reportChild_role (q : PortNo) : (s.reportChild q).role = s.role := by
  unfold State.reportChild
  refine ite_role rfl (ite_role (State.takeReport_role ..) ?_)
  split
  · exact (State.sendPair_queues ..).role
  · rfl

theorem State.reportAnew_role : s.reportAnew.role = s.role := by
  unfold State.reportAnew
  exact ite_role (foldl_role _ _ State.reportChild_role) rfl

theorem State.mirrorAll_role : s.mirrorAll.role = s.role := by
  have mirrors {α : Type} (l : List α) (f : State → α → MirrorMsg) (t : State) : (l.foldl (fun s x => s.mirror (f s x)) t).role = t.role :=
    foldl_role _ l fun _ _ => (State.mirror_queues _).role
  unfold State.mirrorAll
  refine (State.modFab_role ..).trans ((mirrors _ _ _).trans ((foldl_role _ _ fun t p => ?_).trans (mirrors _ _ _)))
  exact (mirrors _ _ _).trans ((mirrors _ _ _).trans (mirrors _ (fun _ m => m) t))

theorem State.chooseStandby_role : s.chooseStandby.role = s.role := by
  unfold State.chooseStandby
  split
  · exact (State.mirrorAll_role _).trans (State.send_queues ..).role
  · rfl

/-- R130, R133: what a node is that takes the root role. -/
theorem State.takeRoot_role : s.takeRoot.role =
    { isRoot := true, isStandby := false, hops := 0, parent := none, withdrawn := false, rootLostAt := none
      node := if s.elect.node = noNode then 0 else s.elect.node, root := if s.elect.node = noNode then 0 else s.elect.node } := by
  unfold State.takeRoot
  refine (State.reportAnew_role _).trans ((State.chooseStandby_role _).trans ((State.sendOffers_role _).trans ((State.sendClaim_role _).trans
    ((State.runSelection_role _).trans ?_))))
  refine (ite_role (State.loseSelected_role _) rfl).trans ((State.setRoot_role _ _).trans ?_)
  cases s.sun.isStandby <;> rfl

end Sys2Proof.Machine
end

section
/-!
SUPPORT. The timers of election and tree: when a node takes the root role, and what each timer does that is due.
-/

namespace Sys2Proof.Machine

variable {s : State} {p : PortNo} {t : Tick}

theorem hall_now {s t : State} (h : t.hall = s.hall) : t.sun.now = s.sun.now := congrArg Prod.fst h

section Settle
variable (ha : s.alive = true) (hc : s.candidate = true) (hr : s.sun.isRoot = false) (hp : s.elect.parent = none)
  (hdue : tickLe (s.elect.improvedAt + 200000) s.tick = true) (hb : ∃ b, s.elect.best = some b ∧ b.hwid = s.gate.hwid)
include ha hc hr hp hdue hb

/-- R125: a candidate without a root or parent, whose own claim has stayed the best, is elected. -/
theorem execElectSettle_elected (h : s.elect.root = noNode ∨ s.elect.withdrawn = true ∨ s.elect.handed = true) :
    execElectSettle s = .next (
      if s.elect.root != noNode && !s.elect.handed then
        (s.stateLost.modFab fun b => { b with reopenAt := some (s.tick + 1000000), gens := [], genBase := 63, defer := [], staged := [] }).takeRoot
      else s.takeRoot) := by
  obtain ⟨b, hbest, hown⟩ := hb
  have rootless : (s.elect.root == noNode || s.elect.withdrawn || s.elect.handed) = true := by simpa [or_assoc] using h
  have best : s.elect.best.elim false (fun b => b.hwid == s.gate.hwid) = true := by simp [hbest, hown]
  rw [execElectSettle, whenAlive_alive ha, hc, hr, hp, rootless, hdue, best]
  rfl

/-- R125, R126: a first root, or one after a hand-over. -/
theorem execElectSettle_first (h : s.elect.root = noNode ∨ s.elect.handed = true) : execElectSettle s = .next s.takeRoot := by
  have kept : ¬(s.elect.root != noNode && !s.elect.handed) = true := by rcases h with h | h <;> simp [h]
  rw [execElectSettle_elected ha hc hr hp hdue hb (h.imp_right .inr), if_neg kept]

/-- R131, R161: a root after the loss of root and standby knows no partition. -/
theorem execElectSettle_lost (hroot : s.elect.root ≠ noNode) (hh : s.elect.handed = false) (hw : s.elect.withdrawn = true) :
    execElectSettle s = .next (State.takeRoot
      ((if s.standing = [] then s else s.raiseNow (uc 0x04 0x05) 0 (soleTag s.standing)).modFab fun b => { b with
        reopenAt := some (s.tick + 1000000), gens := [], genBase := 63, defer := [], staged := [] })) := by
  have lost : (s.elect.root != noNode && !s.elect.handed) = true := by simp [hroot, hh]
  rw [execElectSettle_elected ha hc hr hp hdue hb (.inr (.inl hw)), if_pos lost]
  simp only [State.stateLost, List.isEmpty_iff]

end Settle

/-- R129: 2 µs after the loss of the root's link. -/
theorem execStandbyTakeoverTimer_due (ha : s.alive = true) (hl : s.elect.rootLostAt = some t) (hs : s.sun.isStandby = true)
    (hdue : tickLe (t + 2000) s.tick = true) : execStandbyTakeoverTimer s = .next s.takeOver := by
  rw [execStandbyTakeoverTimer, whenAlive_alive ha, hl]
  simp only [hs, hdue, Bool.and_self, if_true]

/-- R130: a standby with a complete copy takes the role. -/
theorem takeOver_copied (h : s.elect.mirrorDone = true) : s.takeOver = s.takeRoot := if_pos h

/-- R128, R131: one without is a node like any other, and keeps its parent. -/
theorem takeOver_uncopied (h : s.elect.mirrorDone = false) (hp : s.elect.parent ≠ none) :
    s.takeOver = (s.modSun fun u => { u with isStandby := false }).modElect fun e => { e with rootLostAt := none, rootPort := none } := by
  obtain ⟨c, hc⟩ := Option.ne_none_iff_exists'.mp hp
  simp [State.takeOver, h, hc]

/-- R127: a root without a standby looks for one again after 60 s. -/
theorem execNoStandbyRootRepeat_due (ha : s.alive = true) (hr : s.sun.isRoot = true) (hn : s.elect.standbyPort = none)
    (hdue : tickLe (s.fab.noStandbyAt + 60000000000) s.tick = true) : execNoStandbyRootRepeat s = .next s.chooseStandby := by
  have due : tickLe (s.fab.noStandbyAt + BitVec.ofNat 64 (60 * nsPerS)) s.tick = true := by simpa [nsPerS] using hdue
  rw [execNoStandbyRootRepeat, whenAlive_alive ha, hr, hn, due]
  rfl

/-- R127: no neighbour can be the standby. -/
theorem chooseStandby_none (hn : s.elect.standbyPort = none) (h : s.standbyChoice = none) :
    s.chooseStandby = ((s.modElect fun e => { e with mirrorDone := false }).raiseNow (ce 0x02 0x03)).modFab
      fun b => { b with noStandbyAt := s.tick, shown := [] } := by
  have vacant : (s.modElect fun e => { e with standbyPort := none, mirrorDone := false }) = s.modElect fun e => { e with mirrorDone := false } := by
    simp only [State.modElect, hn]
  simp only [State.chooseStandby, h, vacant]

/-- R125: a claim waits in the queues of the ports, which stay in UP. -/
theorem sendClaim_upPorts : s.sendClaim.upPorts = s.upPorts := by
  unfold State.sendClaim
  split
  · exact (State.sendExcept_queues ..).upPorts
  · rfl

/-- R397: the claim of a node that has ports in UP. -/
theorem execClaimHoldEnd_claims (ha : s.alive = true) (hh : s.elect.hold = true) (hf : s.elect.firstUp = some t)
    (hdue : tickLe (t + 2000000) s.tick = true) (hup : s.upPorts ≠ []) :
    execClaimHoldEnd s = .next (s.modElect fun e => { e with hold := false }).sendClaim := by
  have ports : (s.modElect fun e => { e with hold := false }).sendClaim.upPorts.isEmpty = false := by
    rw [sendClaim_upPorts]
    exact List.isEmpty_eq_false_iff.mpr hup
  rw [execClaimHoldEnd, whenAlive_alive ha]
  simp only [hh, hf, hdue, ports, Bool.and_self, Bool.false_and, Bool.false_eq_true, if_true, if_false]

theorem execTreeOfferRepeat_due (ha : s.alive = true) (hdue : tickLe (s.elect.offerAt + 1000000) s.tick = true) :
    execTreeOfferRepeat s = .next (if s.elect.withdrawn then s.withdraw else s.sendOffers) := by
  rw [execTreeOfferRepeat, whenAlive_alive ha, if_pos hdue]

/-- R107, R134: a port with fewer hops that has offered for ten seconds becomes the parent. -/
theorem execParentWaitEnd_turns {m : TreeMsg} {c : PortNo} (ha : s.alive = true) (hp : s.hasPort p = true) (ho : s.offers p = some m)
    (hc : s.elect.parent = some c) (hne : p ≠ c) (hlow : m.hops.toNat < ((s.port c).tree.map (·.hops.toNat)).getD 255)
    (hoff : s.tenSeconds (s.port p).offeringSince = true) (hqual : s.tenSeconds (s.port p).qualSince = true) :
    execParentWaitEnd p s = .next ((s.modPort p fun q => { q with returned := false }).setParent p) := by
  rw [execParentWaitEnd, onPort_alive (hasPort_iff.mp hp) ha]
  simp [ho, hc, hne, hlow, hoff, hqual]

/-- R137: a child without a node ID is reported again. -/
theorem execReportRepeat_reports (ha : s.alive = true) (hp : s.hasPort p = true) (hn : (s.port p).partnerNode = noNode) :
    execReportRepeat p s = .next (s.reportChild p) := by
  rw [execReportRepeat, onPort_alive (hasPort_iff.mp hp) ha, if_pos hn]

/-- R142: the delays of all ports in UP, and that of the Trellis. -/
theorem execDelayPeriodic_reports (ha : s.alive = true) : execDelayPeriodic s = .next (s.upPorts.foldl State.reportDelay s).reportLtr :=
  whenAlive_alive (f := State.reportAll) ha

/-- R141: 20 s without a report end a location. -/
theorem execLocationExpire_expires {r : NodeRow} (ha : s.alive = true) (hr : s.nodeRow r.hwid = some r) (hroot : s.sun.isRoot = true)
    (hlive : r.live = true) (hdue : tickLe (r.seenAt + 20000000000) s.tick = true) :
    execLocationExpire r.hwid s = .next (s.modNode r.hwid fun r => { r with live := false }) := by
  have due : tickLe (r.seenAt + BitVec.ofNat 64 (20 * nsPerS)) s.tick = true := by simpa [nsPerS] using hdue
  rw [execLocationExpire, whenAlive_alive ha, hr]
  simp only [hroot, hlive, due, Bool.and_self, if_true]

end Sys2Proof.Machine
end

section
/-!
The statement of the root role and the timers of the tree.
-/

namespace Sys2Proof.Machine

/-- Settles O20: the timers by what they wait for; the role of a new root is what its announcements leave alone. -/
theorem treeRoleAndTimers : Obligations.TreeRoleAndTimers := by
  unfold Obligations.TreeRoleAndTimers
  refine ⟨⟨fun s ha hc hr hp h hdue hb => execElectSettle_first ha hc hr hp hdue hb h,
      fun s ha hc hr hp hroot hh hw hdue hb => execElectSettle_lost ha hc hr hp hdue hb hroot hh hw,
      fun s t ha hl hs hdue => ⟨fun done => ?_, fun undone hp => ?_⟩,
      fun s ha hr hn hdue => ⟨execNoStandbyRootRepeat_due ha hr hn hdue, chooseStandby_none hn⟩,
      fun s t ha hh hf hdue hup => execClaimHoldEnd_claims ha hh hf hdue hup⟩, fun s => ?_,
    fun s p ha => ⟨execTreeOfferRepeat_due ha, fun m c hp ho hc hne hlow hoff hqual => execParentWaitEnd_turns ha hp ho hc hne hlow hoff hqual,
      execReportRepeat_reports ha, execDelayPeriodic_reports ha, fun r hr hroot hlive hdue => execLocationExpire_expires ha hr hroot hlive hdue⟩⟩
  · exact (execStandbyTakeoverTimer_due ha hl hs hdue).trans (congrArg _ (takeOver_copied done))
  · exact (execStandbyTakeoverTimer_due ha hl hs hdue).trans (congrArg _ (takeOver_uncopied undone hp))
  · have role := s.takeRoot_role
    simp only [State.role, Role.mk.injEq] at role
    obtain ⟨isRoot, isStandby, hops, parent, withdrawn, rootLostAt, node, root⟩ := role
    exact ⟨isRoot, isStandby, hops, parent, withdrawn, rootLostAt, node, root.trans node.symm, hall_now s.takeRoot_now⟩

end Sys2Proof.Machine
end

section
/-!
SUPPORT. The messages of discovery, tree and election at a node that is not the root.
-/

namespace Sys2Proof.Machine

@[simp] theorem State.modPort_sun (s : State) (p : PortNo) (f : Port → Port) : (s.modPort p f).sun = s.sun := rfl
@[simp] theorem State.modPort_elect (s : State) (p : PortNo) (f : Port → Port) : (s.modPort p f).elect = s.elect := rfl

variable {s : State} {p : PortNo}

/-- R136: a first-hop ANNOUNCE at a node that knows its root. -/
theorem announceRx_firstHop {m : AnnounceMsg} (hc : m.cport = 0xFF) (hroot : s.elect.root ≠ noNode) :
    s.announceRx p m = s.modPort p fun q => { q with partnerAnn := some m, partnerNode := m.node, half := none } := by
  simp [State.announceRx, hc, hroot]

/-- R24: a node keeps the root that it has. -/
theorem setRoot_same {r : NodeId} (h : s.elect.root = r) : s.setRoot r = s := if_pos h

/-- R140: an ASSIGN that confirms the node's ID and root brings its route. -/
theorem assignRx_confirms {m : AssignMsg} (hh : m.hwid = s.gate.hwid) (hr : m.root = s.elect.root) (hn : m.node = s.elect.node) :
    s.assignRx m = (s.modElect fun e => { e with node := m.node, route := routeList m.route }).announceAll.sendOffers := by
  have known : (s.modElect fun e => { e with node := m.node, route := routeList m.route }).elect.root = m.root := hr.symm
  rw [State.assignRx, if_pos hh]
  dsimp only
  rw [setRoot_same known, if_neg (by simp [hn])]

/-- R135: the parent withdraws. -/
theorem treeRx_withdrawal {m : TreeMsg} (hm : m.hops = 0xFF) (hr : s.sun.isRoot = false) (hl : s.elect.rootLostAt = none)
    (hroot : s.elect.root ≠ noNode) (hp : s.elect.parent = some p) :
    s.treeRx p m = State.loseParent (State.modSun (s.modPort p fun q => { q with tree := some m, offeringSince := none })
      fun u => { u with utcValid := false }) := by
  have silent : (m.offer && decide ((0xFF : Byte).toNat ≤ 7)) = false := Bool.and_false _
  have rooted : (s.elect.root == noNode) = false := by simpa using hroot
  simp only [State.treeRx, silent, Bool.false_eq_true, if_false, if_true, State.modPort_elect, State.modPort_sun, hl, Option.isSome_none,
    Bool.false_and, rooted, hr, hm, hp]

/-- R126: no hand-over off the root. -/
theorem handOver_off_root (h : s.sun.isRoot = false) : s.handOver = s := by simp [State.handOver, h]

section Elect
variable {m : ElectMsg} (hroot : s.sun.isRoot = false) (hd : (s.port p).partnerHwid ≠ m.hwid)
include hroot hd

/-- R127: a claim that names the standby. -/
theorem electRx_standby (hs : m.standbyClaim = true) : s.electRx p m =
    (s.modSun fun u => { u with isStandby := true }).modElect fun e => { e with rootPort := some p, rootLostAt := none, mirrorDone := false } := by
  simp [State.electRx, Ne.symm hd, hroot, hs]

/-- R125: a claim for the root role goes on if it is better than the best seen. -/
theorem electRx_claim (hr : m.rootClaim = true) (hs : m.standbyClaim = false) : s.electRx p m =
    if s.elect.best.elim true fun b => claimBetter m b then (s.modElect fun e => { e with best := some m }).sendExcept (some p) 7 (.elect m) else s := by
  have sent : ((s.modElect fun e => { e with best := some m }).sendExcept (some p) 7 (.elect m)).sun.isRoot = false :=
    (congrArg Sun.isRoot (State.sendExcept_queues ..).sun).trans hroot
  simp only [State.electRx, if_neg (Ne.symm hd), hroot, hs, hr, Bool.false_and, Bool.not_true, Bool.false_eq_true, if_false]
  split
  · exact handOver_off_root sent
  · exact handOver_off_root hroot

end Elect

/-- R139: a tree entry from the parent. -/
theorem takeMirror_node {m : MirrorMsg} (hroot : s.sun.isRoot = false) (hp : s.elect.parent = some p) (ho : m.op = 2) :
    s.takeMirror p m = s.mirrorNode m := by
  simp [State.takeMirror, hroot, hp, ho]

/-- R148: an entry from elsewhere goes up. -/
theorem takeMirror_up {m : MirrorMsg} (hroot : s.sun.isRoot = false) (hp : s.elect.parent ≠ some p) (hs : s.sun.isStandby = false) :
    s.takeMirror p m = s.sendOn s.elect.parent.toList 7 (.mirror m) := by
  simp [State.takeMirror, hroot, hp, hs]

end Sys2Proof.Machine
end

section
/-!
The statement of the messages of discovery, tree and election.
-/

namespace Sys2Proof.Machine

/-- Settles O40: each message is received, and then does what its case of the node says. -/
theorem treeMessages : Obligations.TreeMessages := by
  unfold Obligations.TreeMessages
  intro s p up hroot
  have announce (m : AnnounceMsg) : exec (.announceRx p m) s = .next ((s.received p (.announce m)).announceRx p m) :=
    onMsg_portUp (f := fun s => s.announceRx p m) up
  have assign (m : AssignMsg) : exec (.assignRx p m) s = .next ((s.received p (.assign m)).assignRx m) :=
    onMsg_portUp (f := fun s => s.assignRx m) up
  have tree (m : TreeMsg) : exec (.treeRx p m) s = .next ((s.received p (.tree m)).treeRx p m) :=
    onMsg_portUp (f := fun s => s.treeRx p m) up
  have elect (m : ElectMsg) : exec (.electRx p m) s = .next ((s.received p (.elect m)).electRx p m) :=
    onMsg_portUp (f := fun s => s.electRx p m) up
  have mirror (m : MirrorMsg) : exec (.mirrorRx p m) s = .next ((s.received p (.mirror m)).takeMirror p m) :=
    onMsg_portUp (f := fun s => s.takeMirror p m) up
  have off (m : Msg) : (s.received p m).sun.isRoot = false := by rw [State.received_sun, hroot]
  have hwid {m : ElectMsg} (hd : (s.port p).partnerHwid ≠ m.hwid) : ((s.received p (.elect m)).port p).partnerHwid ≠ m.hwid := by
    rwa [State.received_partnerHwid]
  refine ⟨fun m hc hr => ?_, fun m hh => ?_, fun m hh hr hn => ?_, fun m hm hl hr hp => ?_,
    fun m hd hr hs ⟨b, hb, worse, _⟩ => ?_, fun m hd hr hs ⟨b, hb, better⟩ => ?_, fun m hd hs => ?_,
    fun m hp ho => ?_, fun m hp hs => ?_, fun m => onMsg_portUp (f := fun s => s.takeDelayOn p m) up⟩
  · rw [announce, announceRx_firstHop hc (by rwa [State.received_elect])]
  · rw [assign, State.assignRx, if_neg (by rwa [State.received_gate]), State.received_elect]
  · rw [assign, assignRx_confirms (by rwa [State.received_gate]) (by rwa [State.received_elect]) (by rwa [State.received_elect])]
  · rw [tree, treeRx_withdrawal hm (off _) (by rwa [State.received_elect]) (by rwa [State.received_elect]) (by rwa [State.received_elect])]
  · rw [elect, electRx_claim (off _) (hwid hd) hr hs, State.received_elect, hb, Option.elim_some, worse, if_neg Bool.false_ne_true]
  · rw [elect, electRx_claim (off _) (hwid hd) hr hs, State.received_elect, hb, Option.elim_some, if_pos better]
  · rw [elect, electRx_standby (off _) (hwid hd) hs]
  · rw [mirror, takeMirror_node (off _) (by rwa [State.received_elect]) ho]
  · rw [mirror, takeMirror_up (off _) (by rwa [State.received_elect]) (by rwa [State.received_sun]), State.received_elect]

end Sys2Proof.Machine
end

section
/-!
SUPPORT. Messages of a partition that the node takes, and what of them LAUNCH, SWAP and PARK do by their direction (R146).
-/

namespace Sys2Proof.Machine

variable {s : State} {p : PortNo} {m : Msg} {x : Part} {t : PTag}

/-- A partition is found where the node takes its messages. -/
theorem State.part_filter_taken (hx : s.part t = some x) (ht : s.takes t = true) : (s.part t).filter (fun _ => s.takes t) = some x := by
  rw [hx, ht]
  rfl

/-- R146: a message of a partition that the node takes. -/
theorem onScoped_taken {f : State → Part → State} (h : s.portUp p = true) (hx : s.part t = some x) (ht : s.takes t = true) (hm : msgTag m = t) :
    onScoped p m s f = .next (f (s.received p m) x) := by
  subst hm
  rw [onScoped, onMsg_portUp h]
  simp only [State.received_part, State.received_takes, State.part_filter_taken hx ht]

section Swap
variable {w : SwapMsg} (h : s.portUp p = true)
include h

/-- R80: revision 4 does not know SWAP, whatever its tag. -/
theorem execSwapRx_unknown (hr : (s.port p).rev = 4) : execSwapRx p w s = .next ((s.received p (.swap w)).unknownFlit p 0x11) := by
  rw [execSwapRx, onMsg_portUp h, State.received_rev, if_pos hr]

/-- R146: a SWAP of a partition that the node takes. -/
theorem execSwapRx_taken (hr : (s.port p).rev ≠ 4) (hx : s.part t = some x) (ht : s.takes t = true) (hm : w.ptag = t) :
    execSwapRx p w s = .next ((s.received p (.swap w)).takeSwap p x w) := by
  subst hm
  rw [execSwapRx, onMsg_portUp h, State.received_rev, if_neg hr]
  simp only [State.received_part, State.received_takes, State.part_filter_taken hx ht]

end Swap

/-- R146: a message that comes down, or up to the apex, does not go further up. -/
theorem not_upward {up apex : Bool} (h : up = false ∨ apex = true) : ¬(up && !apex) = true := by rcases h with rfl | rfl <;> simp

theorem takeLaunch_up {m : LaunchMsg} (hu : m.up = true) (ha : x.act.apex = false) :
    s.takeLaunch p x m = s.sendOn x.act.upPort.toList 5 (.launch m) := if_pos (by rw [hu, ha]; rfl)

/-- R205: downward a LAUNCH goes to every child, and into the table of a member. -/
theorem takeLaunch_down {m : LaunchMsg} (h : m.up = false ∨ x.act.apex = true) :
    s.takeLaunch p x m = if x.member then (s.sendOn x.act.children 5 (.launch { m with up := false })).insertLaunch p { m with up := false }
      else s.sendOn x.act.children 5 (.launch { m with up := false }) := if_neg (not_upward h)

theorem takeSwap_up {m : SwapMsg} (hu : m.up = true) (ha : x.act.apex = false) :
    s.takeSwap p x m = s.sendOn x.act.upPort.toList 5 (.swap m) := if_pos (by rw [hu, ha]; rfl)

/-- R224: downward a SWAP goes to every child, and a member arms it. -/
theorem takeSwap_member {m : SwapMsg} (h : m.up = false ∨ x.act.apex = true) (hx : x.member = true) :
    s.takeSwap p x m = (s.sendOn x.act.children 5 (.swap { m with up := false })).armSwap p x { m with up := false } :=
  (if_neg (not_upward h)).trans (if_pos (by rw [hx, Bool.or_true]))

theorem takePark_up {m : ParkMsg} (hu : m.up = true) (ha : x.act.apex = false) :
    s.takePark x m = s.sendOn x.act.upPort.toList 5 (.park m) := if_pos (by rw [hu, ha]; rfl)

/-- R226: a PARK whose round the apex has named goes to every child and parks a member. -/
theorem takePark_member {m : ParkMsg} (hu : m.up = false) (hx : x.member = true) :
    s.takePark x m = (s.sendOn x.act.children 5 (.park m)).takeParkHere m := by
  simp only [State.takePark, hu, hx, Bool.false_and, Bool.false_eq_true, if_false, if_true]

end Sys2Proof.Machine
end

section
/-!
The statement of the fabric's commands.
-/

namespace Sys2Proof.Machine

/-- Settles O38: each message is taken for its partition, and its direction and the node's place say what it does. -/
theorem fabricCommandsRelayed : Obligations.FabricCommandsRelayed := by
  unfold Obligations.FabricCommandsRelayed
  intro s p x up hx ht
  have launch (m : LaunchMsg) (hm : m.ptag = x.ptag) : exec (.launchRx p m) s = .next ((s.received p (.launch m)).takeLaunch p x m) :=
    onScoped_taken (f := fun s x => s.takeLaunch p x m) up hx ht hm
  have swap (m : SwapMsg) (hm : m.ptag = x.ptag) (hr : (s.port p).rev ≠ 4) :
      exec (.swapRx p m) s = .next ((s.received p (.swap m)).takeSwap p x m) := execSwapRx_taken up hr hx ht hm
  have park (m : ParkMsg) (hm : m.ptag = x.ptag) : exec (.parkRx p m) s = .next ((s.received p (.park m)).takePark x m) :=
    onScoped_taken (f := fun s x => s.takePark x m) up hx ht hm
  refine ⟨fun m hm hu ha => ?_, fun m hm hd hb => ?_, fun m hm hd hb => ?_, fun m hm hr hu ha => ?_, fun m hm hr hd hb => ?_,
    fun m _ hr => execSwapRx_unknown up hr, fun m hm hu ha => ?_, fun m hm hd hb => ?_⟩
  · rw [launch m hm, takeLaunch_up hu ha]
  · rw [launch m hm, takeLaunch_down hd, if_neg (by rw [hb]; exact Bool.false_ne_true)]
  · rw [launch m hm, takeLaunch_down hd, if_pos hb]
  · rw [swap m hm hr, takeSwap_up hu ha]
  · rw [swap m hm hr, takeSwap_member hd hb]
  · rw [park m hm, takePark_up hu ha]
  · rw [park m hm, takePark_member hd hb]

end Sys2Proof.Machine
end

section
/-!
SUPPORT. Barrier messages at a node (R145, R235 to R237): where a node counts, where it only relays, and when a release is its own.
-/

namespace Sys2Proof.Machine

variable {s : State} {p : PortNo} {m : BarMsg} {x : Part} {tc : HT80} {b : BarSlot}

@[simp] theorem State.received_relayOnly (s : State) (p : PortNo) (m : Msg) (x : Part) : (s.received p m).relayOnly x = s.relayOnly x := by
  simp [State.relayOnly]

/-- R237: reception does not change the measured delay of the port. -/
@[simp] theorem State.received_nominal (s : State) (p q : PortNo) (m : Msg) (x : Part) (b : BarMsg) :
    (s.received p m).nominal x q b = s.nominal x q b := by simp [State.nominal]

theorem takeArrive_counts (h : s.relayOnly x = false) : s.takeArrive p x m tc =
    s.arriveAt m.ptag ⟨m.bid, m.round, m.types, m.record, s.nominal x p m, p.setWidth 8⟩ tc := if_neg (by rw [h]; exact Bool.false_ne_true)

theorem takeArrive_relays (h : s.relayOnly x = true) : s.takeArrive p x m tc =
    s.sendOn x.act.upPort.toList 6 (.arrive { m with t := s.nominal x p m }) := if_pos h

section Release
variable (hr : s.relayOnly x = false) (hb : x.slot m.bid = some b) (ha : x.act.apex = false) (hu : x.act.upPort = some p)
include hr hb ha hu

/-- R236: a release from the node's barrier-tree parent, by its round. -/
theorem takeRelease_parent : s.takeRelease p x m =
    if m.round ≠ b.cur then
      s.raiseNow (uc 0x0A 0x01) 0 (some m.ptag) (detail [(24, 1, m.bid.toNat), (25, 1, m.round.toNat), (26, 1, b.cur.toNat)])
    else (s.passRelease m.ptag m).completeRound m.ptag m.bid s.stamp 4 := by
  simp only [State.takeRelease, hr, hb, ha, hu, bne_self_eq_false, Bool.or_self, Bool.false_eq_true, if_false, bne_iff_ne]

theorem takeRelease_current (hc : m.round = b.cur) :
    s.takeRelease p x m = (s.passRelease m.ptag m).completeRound m.ptag m.bid s.stamp 4 :=
  (takeRelease_parent hr hb ha hu).trans (if_neg (not_not_intro hc))

theorem takeRelease_other (hc : m.round ≠ b.cur) : s.takeRelease p x m =
    s.raiseNow (uc 0x0A 0x01) 0 (some m.ptag) (detail [(24, 1, m.bid.toNat), (25, 1, m.round.toNat), (26, 1, b.cur.toNat)]) :=
  (takeRelease_parent hr hb ha hu).trans (if_pos hc)

end Release

section Taken
variable (up : s.portUp p = true) (hx : s.part x.ptag = some x) (ht : s.takes x.ptag = true) (hm : m.ptag = x.ptag)
include up hx ht hm

/-- R235, R237: an arrival is counted at its nominal time at this node. -/
theorem onArrive_counts (h : s.relayOnly x = false) : onScoped p (.arrive m) s (fun s x => s.takeArrive p x m tc) =
    .next ((s.received p (.arrive m)).arriveAt m.ptag ⟨m.bid, m.round, m.types, m.record, s.nominal x p m, p.setWidth 8⟩ tc) := by
  rw [onScoped_taken (m := .arrive m) up hx ht hm, takeArrive_counts ((State.received_relayOnly ..).trans h), State.received_nominal]

/-- R145: a Leaf that only relays sends it up with that time. -/
theorem onArrive_relays (h : s.relayOnly x = true) : onScoped p (.arrive m) s (fun s x => s.takeArrive p x m tc) =
    .next ((s.received p (.arrive m)).sendOn x.act.upPort.toList 6 (.arrive { m with t := s.nominal x p m })) := by
  rw [onScoped_taken (m := .arrive m) up hx ht hm, takeArrive_relays ((State.received_relayOnly ..).trans h), State.received_nominal]

variable (hr : s.relayOnly x = false) (hb : x.slot m.bid = some b) (ha : x.act.apex = false) (hu : x.act.upPort = some p)
include hr hb ha hu

/-- R236: the release of the current round. -/
theorem onRelease_current (hc : m.round = b.cur) : onScoped p (.release m) s (fun s x => s.takeRelease p x m) =
    .next (((s.received p (.release m)).passRelease m.ptag m).completeRound m.ptag m.bid s.stamp 4) := by
  rw [onScoped_taken (m := .release m) up hx ht hm, takeRelease_current ((State.received_relayOnly ..).trans hr) hb ha hu hc, State.received_stamp]

/-- R239: the release of another round. -/
theorem onRelease_other (hc : m.round ≠ b.cur) : onScoped p (.release m) s (fun s x => s.takeRelease p x m) =
    .next ((s.received p (.release m)).raiseNow (uc 0x0A 0x01) 0 (some m.ptag)
      (detail [(24, 1, m.bid.toNat), (25, 1, m.round.toNat), (26, 1, b.cur.toNat)])) := by
  rw [onScoped_taken (m := .release m) up hx ht hm, takeRelease_other ((State.received_relayOnly ..).trans hr) hb ha hu hc]

end Taken

/-- R150, R151: a signal at a Leaf and at a Hub. -/
theorem execSignalRx_taken {g : SignalMsg} (up : s.portUp p = true) (hx : s.part x.ptag = some x) (ht : s.takes x.ptag = true) (hg : g.ptag = x.ptag) :
    execSignalRx p g s = .next (
      if s.isLeaf then (s.received p (.signal g)).leafSignal x (some p) g else (s.received p (.signal g)).hubSignal x g) := by
  rw [execSignalRx, onScoped_taken (m := .signal g) up hx ht hg, State.received_isLeaf]

end Sys2Proof.Machine
end

section
/-!
The statement of the barrier messages.
-/

namespace Sys2Proof.Machine

/-- Settles O39: each message is taken for its partition; an arrival is counted or relayed, a release is of the current round or not, and a
signal goes by the profile. -/
theorem barrierMessages : Obligations.BarrierMessages := by
  unfold Obligations.BarrierMessages
  intro s p x m tc up hx ht hm
  have signal (g : SignalMsg) (hg : g.ptag = x.ptag) : exec (.signalRx p g) s = _ := execSignalRx_taken up hx ht hg
  exact ⟨fun h => onArrive_counts up hx ht hm h, fun h => onArrive_counts up hx ht hm h, fun h => onArrive_relays up hx ht hm h,
    fun b h hb ha hu hc => ⟨onRelease_current up hx ht hm h hb ha hu hc, onRelease_current up hx ht hm h hb ha hu hc⟩,
    fun b h hb ha hu hc => onRelease_other up hx ht hm h hb ha hu hc,
    fun g hg hl => (signal g hg).trans (congrArg _ (if_pos hl)),
    fun g hg hl => (signal g hg).trans (congrArg _ (if_neg (by rw [hl]; exact Bool.false_ne_true)))⟩

end Sys2Proof.Machine
end

section
/-!
SUPPORT. What the handling of a PART sees of the state after its reception: what it saw before.
-/

namespace Sys2Proof.Machine

variable (s : State) (p : PortNo) (m : Msg)

@[simp] theorem State.received_hubAt (b : Byte) : (s.received p m).hubAt b = s.hubAt b :=
  s.received_see p (b.setWidth 6) m Port.partnerHub fun _ _ => rfl

@[simp] theorem State.received_placePart (x : Part) : (s.received p m).placePart x = s.placePart x := by
  have rank : (s.received p m).placeRank = s.placeRank := funext fun r => by simp [State.placeRank]
  have rest : (s.received p m).restOf = s.restOf := funext fun r => by simp [State.restOf]
  simp only [State.placePart, rank, rest, State.received_elect, State.received_isLeaf, State.received_hubAt]

@[simp] theorem State.received_fromAbove (t : PTag) : (s.received p m).fromAbove p t = s.fromAbove p t := by simp [State.fromAbove]

@[simp] theorem State.received_copyOf (t : PTag) : (s.received p m).copyOf t = s.copyOf t := by simp [State.copyOf]

@[simp] theorem State.received_staleAtRoot (t : PTag) : (s.received p m).staleAtRoot t = s.staleAtRoot t := by simp [State.staleAtRoot]

@[simp] theorem State.received_opener (t : PTag) (b : Bool) : (s.received p m).opener t b = s.opener t b := by simp [State.opener]

end Sys2Proof.Machine
end

section
/-!
SUPPORT. The PART messages and HEALTH at a node that is not the root (R154 to R159, R327, R380), each by the side it comes from.
-/

namespace Sys2Proof.Machine

variable {s : State} {p : PortNo} {m : PartMsg} {x : Part}

/-- R159: a PART of an entry that the node holds is stale once the partition has ended. -/
theorem staleAtRoot_part (hx : s.part m.ptag = some x) : s.staleAtRoot m.ptag = x.ended := by simp [State.staleAtRoot, hx]

section Open
variable (up : s.portUp p = true) (hroot : s.sun.isRoot = false)
include up hroot

/-- R154: an OPEN from below goes to the root. -/
theorem execPartOpenRx_below (hf : s.fromAbove p m.ptag = false) :
    execPartOpenRx p m s = .next ((s.received p (.part .opOpen m)).sendOn s.elect.parent.toList 7 (.part .opOpen m)) := by
  simp [execPartOpenRx, onMsg_portUp up, State.takeOpen, hroot, hf]

/-- R154: a node of the barrier tree takes the OPEN by the copy that MIRROR has brought. -/
theorem execPartOpenRx_tree {c : Part} (hf : s.fromAbove p m.ptag = true) (hc : s.copyOf m.ptag = some c)
    (ht : (s.placePart c).onTree s.elect.hops = true) : execPartOpenRx p m s = .next ((s.received p (.part .opOpen m)).acceptOpen c m) := by
  simp [execPartOpenRx, onMsg_portUp up, State.takeOpen, hroot, hf, hc, ht]

/-- R159: without a copy it is stale. -/
theorem execPartOpenRx_unknown (hf : s.fromAbove p m.ptag = true) (hc : s.copyOf m.ptag = none) :
    execPartOpenRx p m s = .next ((s.received p (.part .opOpen m)).countStale m.ptag) := by
  simp [execPartOpenRx, onMsg_portUp up, State.takeOpen, hroot, hf, hc]

end Open

section Deferred
variable (up : s.portUp p = true)
include up

theorem execPartDeferredRx_below (hf : s.fromAbove p m.ptag = false) : execPartDeferredRx p m s = .next (s.received p (.part .deferred m)) := by
  simp [execPartDeferredRx, onMsg_portUp up, State.takeDeferred, hf]

/-- R160: a node that is not the opener passes DEFERRED on down the time tree. -/
theorem execPartDeferredRx_passes (hf : s.fromAbove p m.ptag = true) (ho : s.opener m.ptag false = []) :
    execPartDeferredRx p m s =
      .next ((s.received p (.part .deferred m)).sendOn (s.received p (.part .deferred m)).timeKids 7 (.part .deferred m)) := by
  simp [execPartDeferredRx, onMsg_portUp up, State.takeDeferred, hf, ho]

end Deferred

section Held
variable (up : s.portUp p = true) (hx : s.part m.ptag = some x)
include up hx

/-- R159: after the end of the partition the answers to an open and the closes are stale. -/
theorem execPartOpenAckRx_stale (he : x.ended = true) : execPartOpenAckRx p m s = .next ((s.received p (.part .openAck m)).countStale m.ptag) := by
  simp [execPartOpenAckRx, onMsg_portUp up, State.takeOpenAck, staleAtRoot_part hx, he]

theorem execPartRefusedRx_stale (he : x.ended = true) : execPartRefusedRx p m s = .next ((s.received p (.part .refused m)).countStale m.ptag) := by
  simp [execPartRefusedRx, onMsg_portUp up, State.takeRefused, staleAtRoot_part hx, he]

theorem execPartCloseRx_stale (he : x.ended = true) : execPartCloseRx p m s = .next ((s.received p (.part .close m)).countStale m.ptag) := by
  simp [execPartCloseRx, onMsg_portUp up, State.takeClose, staleAtRoot_part hx, he]

/-- R154: the commit of the root goes down. -/
theorem execPartOpenAckRx_above (he : x.ended = false) (hf : s.fromAbove p m.ptag = true) :
    execPartOpenAckRx p m s = .next (((s.received p (.part .openAck m)).partDown x .openAck m).commitHere m.ptag m) := by
  simp [execPartOpenAckRx, onMsg_portUp up, State.takeOpenAck, staleAtRoot_part hx, he, hx, hf]

/-- R154: the acknowledgement of a child counts toward the node's own. -/
theorem execPartOpenAckRx_child (he : x.ended = false) (hf : s.fromAbove p m.ptag = false) (hc : x.act.children.contains p = true) :
    execPartOpenAckRx p m s =
      .next (((s.received p (.part .openAck m)).modPart m.ptag fun q => { q with acks := p :: q.acks }).tryAck m.ptag) := by
  have child : p ∈ x.act.children := List.contains_iff_mem.mp hc
  simp [execPartOpenAckRx, onMsg_portUp up, State.takeOpenAck, staleAtRoot_part hx, he, hx, hf, child]

/-- R156: a REFUSED of the root goes down. -/
theorem execPartRefusedRx_above (he : x.ended = false) (hf : s.fromAbove p m.ptag = true) :
    execPartRefusedRx p m s = .next (((s.received p (.part .refused m)).partDown x .refused m).refuseHere m.ptag m.aux) := by
  simp [execPartRefusedRx, onMsg_portUp up, State.takeRefused, staleAtRoot_part hx, he, hx, hf]

theorem execPartRefusedRx_below (he : x.ended = false) (hf : s.fromAbove p m.ptag = false) :
    execPartRefusedRx p m s = .next ((s.received p (.part .refused m)).toRoot .refused m) := by
  simp [execPartRefusedRx, onMsg_portUp up, State.takeRefused, staleAtRoot_part hx, he, hf]

/-- R157, R158: a CLOSE of the root names the close tick of an open partition. -/
theorem execPartCloseRx_above (he : x.ended = false) (hf : s.fromAbove p m.ptag = true) (ho : x.st = .open_) :
    execPartCloseRx p m s = .next (((s.received p (.part .close m)).partDown x .close m).modPart m.ptag
      fun q => { q with st := .closing, tClose := some m.t, tEvent := m.t }) := by
  simp [execPartCloseRx, onMsg_portUp up, State.takeClose, staleAtRoot_part hx, he, hx, hf, ho]

theorem execPartCloseRx_below (he : x.ended = false) (hf : s.fromAbove p m.ptag = false) :
    execPartCloseRx p m s = .next ((s.received p (.part .close m)).toRoot .close m) := by
  simp [execPartCloseRx, onMsg_portUp up, State.takeClose, staleAtRoot_part hx, he, hf]

theorem execPartCloseAckRx_held : execPartCloseAckRx p m s =
    .next (((s.received p (.part .closeAck m)).modPart m.ptag fun q => { q with closeAcks := p :: q.closeAcks }).tryCloseAck m.ptag) := by
  simp [execPartCloseAckRx, onMsg_portUp up, State.takeCloseAck, hx]

/-- R159: the fault of a partition that has ended. -/
theorem execPartFaultRx_stale (he : x.ended = true) : execPartFaultRx p m s = .next ((s.received p (.part .fault m)).countStale m.ptag) := by
  simp [execPartFaultRx, onMsg_portUp up, State.takePartFault, hx, he]

/-- R327: a fault is reported, goes on over the other tree ports, and ends the partition on its tick. -/
theorem execPartFaultRx_standing (he : x.ended = false) : execPartFaultRx p m s =
    .next (State.faultPart (State.sendOn (State.raise (s.received p (.part .fault m)) {
        code := uc 0x05 0x02, loc := 0, partV := true, ptag := m.ptag, stamp := m.t, detail := detail [(24, 2, m.aux.toNat), (26, 3, m.node.toNat)] })
      (x.treePorts.filter (· != p)) 7 (.part .fault m)) m.ptag m.t (uc 0x05 0x02)) := by
  simp [execPartFaultRx, onMsg_portUp up, State.takePartFault, hx, he]

end Held

section Health
variable {h : HealthMsg} (up : s.portUp p = true)
include up

/-- R380: the partner's window stays at the port. -/
theorem execHealthRx_window (hp : h.port ≠ 0xFF) :
    execHealthRx p h s = .next ((s.received p (.health h)).modPort p fun q => { q with partnerHealth := some (h.t, h.count) }) := by
  have window : h.port ≠ 0xFF#8 := hp
  simp [execHealthRx, onMsg_portUp up, State.takeHealth, window]

/-- R384: a verdict goes on toward the root. -/
theorem execHealthRx_verdict {q : PortNo} (hroot : s.sun.isRoot = false) (hp : h.port = 0xFF) (hq : s.elect.parent = some q) :
    execHealthRx p h s = .next ((s.received p (.health h)).send q 7 (.health h)) := by
  simp [execHealthRx, onMsg_portUp up, State.takeHealth, hp, hroot, hq]

end Health

end Sys2Proof.Machine
end

section
/-!
The statement of the PART messages.
-/

namespace Sys2Proof.Machine

/-- Settles O41: each PART by whether its partition has ended and by the side it comes from, and HEALTH by what it carries. -/
theorem partMessages : Obligations.PartMessages := by
  unfold Obligations.PartMessages
  intro s p x m up hroot hx
  exact ⟨fun hf => execPartOpenRx_below up hroot hf, fun c hf hc ht => execPartOpenRx_tree up hroot hf hc ht,
    fun hf hc => execPartOpenRx_unknown up hroot hf hc,
    fun he => ⟨execPartOpenAckRx_stale up hx he, execPartRefusedRx_stale up hx he, execPartCloseRx_stale up hx he⟩,
    fun ⟨he, hf⟩ => execPartOpenAckRx_above up hx he hf, fun ⟨he, hf, hc⟩ => execPartOpenAckRx_child up hx he hf hc,
    fun hf => execPartDeferredRx_below up hf, fun ⟨hf, ho⟩ => execPartDeferredRx_passes up hf ho,
    fun ⟨he, hf⟩ => execPartRefusedRx_above up hx he hf, fun ⟨he, hf⟩ => execPartRefusedRx_below up hx he hf,
    fun ⟨he, hf, ho⟩ => execPartCloseRx_above up hx he hf ho, fun ⟨he, hf⟩ => execPartCloseRx_below up hx he hf,
    execPartCloseAckRx_held up hx, fun he => execPartFaultRx_stale up hx he, fun he => execPartFaultRx_standing up hx he,
    fun h hp => execHealthRx_window up hp, fun h q hp hq => execHealthRx_verdict up hroot hp hq⟩

end Sys2Proof.Machine
end

section
/-!
SUPPORT. The timers of a partition at a node (R149, R154, R156 to R160): what each does on its due tick.
-/

namespace Sys2Proof.Machine

variable {s : State} {n : BitVec 10} {p : Part}

@[simp] theorem State.modPart_slotOf (s : State) (t u : PTag) (f : Part → Part) : (s.modPart t f).slotOf u = s.slotOf u := rfl

section Timers
variable (ha : s.alive = true) (hn : s.partNo n = some p)
include ha hn

section Open
variable (hst : p.st = .opening) (hdue : s.isDue (dueTick p.tOpen) = true)
include hst hdue

/-- R154: the open tick of a committed open; a member's context begins to run. -/
theorem execOpenTick_committed (hc : p.committed = true) : execOpenTick n s = .next (
    ((s.slotOf p.ptag).elim (s.modPart p.ptag fun p => { p with st := .open_ })
      fun k => (s.modPart p.ptag fun p => { p with st := .open_ }).openMember k p).mirrorPart p.ptag) := by
  have due : (p.st != .opening || !s.isDue (dueTick p.tOpen)) = false := by rw [hst, hdue]; rfl
  rw [execOpenTick, whenAlive_alive ha]
  simp only [hn, due, hc, Bool.not_true, Bool.false_eq_true, if_false, State.modPart_slotOf]
  cases s.slotOf p.ptag <;> rfl

/-- R156: the open tick comes before the commit. -/
theorem execOpenTick_uncommitted (hc : p.committed = false) : execOpenTick n s = .next (
    (s.modPart p.ptag fun p => { p with st := .open_ }).raiseNow (uc 0x05 0x01) 0 (some p.ptag)) := by
  have due : (p.st != .opening || !s.isDue (dueTick p.tOpen)) = false := by rw [hst, hdue]; rfl
  rw [execOpenTick, whenAlive_alive ha]
  simp only [hn, due, hc, Bool.not_false, Bool.false_eq_true, if_false, if_true]

end Open

/-- R157, R158: the close tick ends the partition. -/
theorem execCloseTick_due {c : HT80} (hc : p.tClose = some c) (he : p.ended = false) (hdue : s.isDue (dueTick c) = true) :
    execCloseTick n s = .next (s.endPart p.ptag c p.fault) := by
  rw [execCloseTick, whenAlive_alive ha]
  simp only [hn, hc, he, hdue, Bool.not_false, Bool.and_self, if_true]

/-- R156: the root refuses an open that is not acknowledged 200 µs before its tick. -/
theorem execOpenAckTimeout_due (hst : p.st = .opening) (hc : p.committed = false) (hr : s.sun.isRoot = true)
    (hdue : s.isDue (dueTick (htSub p.tOpen 200000)) = true) :
    execOpenAckTimeout n s = .next (s.rootRefuse p.ptag (refusal 0x05 0x1E)) := by
  rw [execOpenAckTimeout, whenAlive_alive ha]
  simp only [hn, hst, hc, hr, hdue, Bool.not_false, beq_self_eq_true, Bool.and_self, if_true]

/-- R158: T_q has not come, or the partition has not ended. -/
theorem execQuiescePoint_early (h : p.st ≠ .quiesce ∨ s.isDue (dueTick p.tEvent) = false) : execQuiescePoint n s = .next s := by
  have early : (p.st != .quiesce || !s.isDue (dueTick p.tEvent)) = true := by rcases h with h | h <;> simp [h]
  rw [execQuiescePoint, whenAlive_alive ha]
  simp only [hn, early, if_true]

/-- R149, R160, R256: T_q frees what the partition held. -/
theorem execQuiescePoint_due {free : Ctx → Ctx} (hst : p.st = .quiesce) (hdue : s.isDue (dueTick p.tEvent) = true)
    (hfree : ∀ c, free c = if c.ptag = p.ptag && c.st = .ended then { c with st := .free } else c) :
    execQuiescePoint n s = .next (State.runDefer ((((s.modCtx0 free).modCtx1 free).mirrorFree p).modFab fun b => { b with
      parts := b.parts.filter fun q => q.part != n || q.st == .free
      gens := assocSet n.toNat (ptGen p.ptag) b.gens, runs := b.runs.filter fun r => r.ptag != p.ptag })) := by
  have due : (p.st != .quiesce || !s.isDue (dueTick p.tEvent)) = false := by rw [hst, hdue]; rfl
  rw [execQuiescePoint, whenAlive_alive ha, funext hfree]
  simp only [hn, due, Bool.false_eq_true, if_false]

end Timers

end Sys2Proof.Machine
end

section
/-!
The statement of the timers of partitions.
-/

namespace Sys2Proof.Machine

/-- Settles O35: each timer of a partition on its due tick, the open tick by the commit and by the context that waits for it. -/
theorem partitionTimers : Obligations.PartitionTimers := by
  unfold Obligations.PartitionTimers
  refine ⟨fun s n p ha hn => ⟨fun ⟨hst, hc, hdue, hk⟩ => ?_, fun k hst hc hdue hk => ?_,
    fun ⟨hst, hc, hdue⟩ => execOpenTick_uncommitted ha hn hst hdue hc, fun c hc he hdue => execCloseTick_due ha hn hc he hdue,
    fun ⟨hst, hc, hr, hdue⟩ => execOpenAckTimeout_due ha hn hst hc hr hdue, execQuiescePoint_early ha hn⟩,
    fun s n p free ha hn hst hdue hfree => execQuiescePoint_due ha hn hst hdue hfree⟩
  · exact (execOpenTick_committed ha hn hst hdue hc).trans (by rw [hk]; rfl)
  · exact (execOpenTick_committed ha hn hst hdue hc).trans (by rw [hk]; rfl)

end Sys2Proof.Machine
end

section
/-!
SUPPORT. The time limits of opens, the clearing of a slot, the resumption of a context and the abandoned dump
(R160, R161, R228, R257, R304, R311).
-/

namespace Sys2Proof.Machine

variable {s : State} {k : Bool} {d : Taken}

/-- R160: a deferred open that has waited a second is refused. -/
theorem execDeferTimeout_due {d : Deferred} (ha : s.alive = true) (hd : s.fab.defer = [d]) (hr : s.sun.isRoot = true)
    (hdue : tickLe (d.since + 1000000000) s.tick = true) :
    execDeferTimeout (ptPart d.msg.ptag) s = .next ((s.modFab fun b => { b with defer := [] }).refuseOpen d.msg (refusal 0x05 0x1B)) := by
  have due : (s.sun.isRoot && tickLe (d.since + BitVec.ofNat 64 nsPerS) s.tick) = true := by simpa [hr, nsPerS] using hdue
  have erased : (s.modFab fun b => { b with defer := b.defer.erase d }) = s.modFab fun b => { b with defer := [] } := by
    simp only [State.modFab, hd, List.erase_cons_head]
  rw [execDeferTimeout, whenAlive_alive ha]
  simp only [hd, List.find?_cons, beq_self_eq_true, due, erased, if_true]

/-- R161: the hold of opens at a new root ends. -/
theorem execReopenHoldEnd_due {t : Tick} (ha : s.alive = true) (ht : s.fab.reopenAt = some t) (hdue : s.isDue t = true) :
    execReopenHoldEnd s = .next (s.modFab fun b => { b with reopenAt := none }) := by
  rw [execReopenHoldEnd, whenAlive_alive ha, ht]
  exact congrArg _ (if_pos hdue)

/-- R311: two seconds without an OPEN refuse a posted PARTITION_OPEN. -/
theorem execOpenNotReceived_due (ha : s.alive = true) (hl : s.isLeaf = true) (ht : s.eng.taken = [d]) (hf : d.fin = false) (ho : d.opcode = 0x07)
    (hb : d.bound = false) (hdue : tickLe (d.takenAt + 2000000000) s.tick = true) :
    execOpenNotReceived (ptPart d.ptag) s = .next (s.complete d.num stRefused (refusal 0x05 0x1D)) := by
  have due : tickLe (d.takenAt + BitVec.ofNat 64 (2 * nsPerS)) s.tick = true := by simpa [nsPerS] using hdue
  rw [execOpenNotReceived, onLeaf_alive hl ha]
  simp only [ht, List.find?_cons, hf, ho, hb, due, Bool.not_false, beq_self_eq_true, Bool.and_self]

/-- R257: the slot of an opening is clear, and the member may acknowledge. -/
theorem execContextSlotClearDone_clears (ha : s.alive = true) (hl : s.isLeaf = true) (hc : (s.ctx k).clearing = true) (hb : (s.ctx k).dumpBusy = false) :
    execContextSlotClearDone k s =
      .next (((s.modCtx k fun c => { c with objs := [], clearing := false, image := false, imageTag := 0 }).modPart (s.ctx k).ptag
        fun p => { p with accepted := true }).tryAck (s.ctx k).ptag) := by
  rw [execContextSlotClearDone, onLeaf_alive hl ha]
  exact congrArg _ (if_pos (by rw [hc, hb]; rfl))

/-- R257: a dump of the slot delays it. -/
theorem execContextSlotClearDone_busy (ha : s.alive = true) (hl : s.isLeaf = true) (hb : (s.ctx k).dumpBusy = true) :
    execContextSlotClearDone k s = .next s := by
  rw [execContextSlotClearDone, onLeaf_alive hl ha]
  exact congrArg _ (if_neg (by simp [hb]))

/-- T_res of a taken PARK_AT with RESUME. -/
def Taken.resumeAt (d : Taken) : HT80 := field d.body 8 80

/-- R186, R228: T_res of the one descriptor held, with no context active: a seated Leaf runs the parked context, another refuses. -/
theorem execResumeTick_due (hb : s.bandRuns = true) (ht : s.eng.taken = [d]) (hf : d.fin = false) (ho : d.opcode = 0x09)
    (hres : d.body.getLsbD 12 = true) (hdue : s.isDue (dueTick d.resumeAt) = true) (hk : s.slotOf d.ptag = some k) (hp : (s.ctx k).st = .parked)
    (hact : s.activeSlot = none) :
    execResumeTick (ptPart d.ptag) s = .next (
      if s.tr.seat ≠ .seated then s.complete d.num stRefused (refusal 0x08 0x10) 0 (some (htOf (dueTick d.resumeAt)))
      else ((State.activated (s.modCtx k fun c =>
          ({ c with st := .active, resumed := true, tStart := none, tArr := none } : Ctx).restart (htOf (dueTick d.resumeAt)))).modBand
            fun b => { b with idle := none, force := false }).complete d.num stDone 0 0 (some (htOf (dueTick d.resumeAt)))) := by
  obtain ⟨hl, ha⟩ := bandRuns_up hb
  have found : [d].find? (fun d' => !d'.fin && d'.opcode == 0x09 && d'.body.getLsbD 12 && ptPart d'.ptag == ptPart d.ptag) = some d := by
    simp [hf, ho, hres]
  have now : (!s.isDue (dueTick (field d.body 8 80)) || !s.bandRuns) = false := by rw [hb, ← Taken.resumeAt, hdue]; rfl
  have parked : (s.slotOf d.ptag).filter (fun k => (s.ctx k).st = .parked) = some k := by simp [hk, hp]
  have idle : s.activeTag = none := by rw [State.activeTag, hact]; rfl
  rw [execResumeTick, onLeaf_alive hl ha]
  simp only [ht, found, now, parked, idle, Bool.false_eq_true, if_false, bne_iff_ne, Taken.resumeAt]

/-- R304: a dump that has found no space for 10 ms is given up. -/
theorem execDumpAbandon_due {j : DumpJob} {t : Tick} (ha : s.alive = true) (hj : s.eng.dump = some j) (hs : j.stalled = some t)
    (hdue : tickLe (t + 10000000) s.tick = true) :
    execDumpAbandon s = .next (((s.modRing 6 fun r => { r with drop := satInc r.drop }).raiseNow (ce 0x0D 0x03) 0 (some j.ptag)
      (detail [(24, 2, j.written)])).endDump stIncomplete) := by
  have due : j.stalled.elim false (fun t => tickLe (t + 10000000) s.tick) = true := by rw [hs, Option.elim_some, hdue]
  rw [execDumpAbandon, whenAlive_alive ha]
  simp only [hj, due, if_true]

end Sys2Proof.Machine
end

section
/-!
The statement of the fabric's timers.
-/

namespace Sys2Proof.Machine

/-- Settles O36: each timer on its due tick; the resumption goes by the seat of the Trellis. -/
theorem fabricTimers : Obligations.FabricTimers := by
  unfold Obligations.FabricTimers
  refine fun s ha => ⟨fun d hd hr hdue => execDeferTimeout_due ha hd hr hdue, fun t ht hdue => execReopenHoldEnd_due ha ht hdue,
    fun d hl ht hf ho hb hdue => execOpenNotReceived_due ha hl ht hf ho hb hdue, fun k hl hc hb => execContextSlotClearDone_clears ha hl hc hb,
    fun k hl hb => execContextSlotClearDone_busy ha hl hb, fun d k hb ht hf ho hres hdue hk hp hact hseat => ?_,
    fun d k hb ht hf ho hres hdue hk hp hact hseat => ?_, fun j t hj hs hdue => execDumpAbandon_due ha hj hs hdue⟩
  · exact (execResumeTick_due hb ht hf ho hres hdue hk hp hact).trans (congrArg _ (if_neg (not_not_intro hseat)))
  · exact (execResumeTick_due hb ht hf ho hres hdue hk hp hact).trans (congrArg _ (if_pos hseat))

end Sys2Proof.Machine
end

section
/-!
SUPPORT. PARTITION_OPEN, PARTITION_CLOSE, DUMP, FENCE and REPLAY_START, once taken and checked (R154, R157, R275, R292, R309 to R311, R315).
-/

namespace Sys2Proof.Machine

variable {s t : State} {u : Bool} {d : Desc} {n : Nat}

/-- R311: another PARTITION_OPEN of this partition number is still open. -/
def State.openPosted (s : State) (n : Nat) (d : Desc) : Bool :=
  s.eng.taken.any fun x => !x.fin && x.num != n && x.opcode == 0x07 && ptPart x.ptag == ptPart (descTag d)

/-- R309: the read of one half of the open block; the low bits of PARAM_ADDR are left out. -/
def openBlockReq (u : Bool) (d : Desc) (n : Nat) (half : Bool) : HmReq :=
  { kind := .openBlock (if u then 1 else 0) n half, write := false
    addr := if half then (d.extractLsb' 224 64 &&& ~~~63) + 64 else d.extractLsb' 224 64 &&& ~~~63, beats := 4 }

/-- R275: what a DUMP descriptor names: a slot by its number, or what the node holds of the partition. -/
def State.dumpNamed (s : State) (d : Desc) (n : Nat) : Option DumpJob :=
  if d.getLsbD 12 then some (s.dumpOfSlot (d.getLsbD 64) 0x01 (some n))
  else ((s.slotOf (descTag d)).map fun k => s.dumpOfSlot k 0x01 (some n)).or ((s.part (descTag d)).map fun p => s.dumpOfHub p (some n))

theorem State.dumpNamed_slot {k : Bool} (hs : s.slotOf (descTag d) = some k) (hb : d.getLsbD 12 = false) :
    s.dumpNamed d n = some (s.dumpOfSlot k 0x01 (some n)) := by
  rw [State.dumpNamed, hb, hs]
  rfl

theorem State.dumpNamed_hub {p : Part} (hs : s.slotOf (descTag d) = none) (hp : s.part (descTag d) = some p) (hb : d.getLsbD 12 = false) :
    s.dumpNamed d n = some (s.dumpOfHub p (some n)) := by
  rw [State.dumpNamed, hb, hs, hp]
  rfl

theorem State.dumpNamed_bySlot (hb : d.getLsbD 12 = true) : s.dumpNamed d n = some (s.dumpOfSlot (d.getLsbD 64) 0x01 (some n)) := if_pos hb

section Taken
variable (ha : s.alive = true) (ht : s.takeable u d = true) (hc : s.commonCheck d = none) (et : t = s.pull u d) (en : n = s.eng.takenNum)
include ha ht hc et en

/-- R154: both halves of the open block are read, unless the partition number has an open already. -/
theorem execPartitionOpen_taken (ho : descOp d = 0x07) : execPartitionOpen u d s = .next (
    if t.openPosted n d then t.complete n stBusy else (t.hmIssue (openBlockReq u d n false)).hmIssue (openBlockReq u d n true)) := by
  rw [execPartitionOpen, onDesc_taken ha ht (by rw [ho]; rfl) hc et en]
  cases u <;> rfl

omit en in
/-- R157: a CLOSE goes to the root. -/
theorem execPartitionClose_taken (ho : descOp d = 0x08) :
    execPartitionClose u d s = .next (t.toRoot .close { t.partMsg (descTag d) with t := d.extractLsb' 64 80 }) :=
  onDesc_taken ha ht (by rw [ho]; rfl) hc et rfl

/-- R315: a FENCE holds its own ring. -/
theorem execFence_taken (ho : descOp d = 0x0F) : execFence u d s = .next (
    if 2 < (d.extractLsb' 64 8).toNat then t.complete n stInvalid else t.modRing (if u then 1 else 0) fun r => { r with fence := some n }) :=
  onDesc_taken ha ht (by rw [ho]; rfl) hc et en

section Dump
variable (ho : descOp d = 0x0B)
include ho

/-- R311: BY_SLOT names one of two slots. -/
theorem execDump_badSlot (hs : d.getLsbD 12 = true) (hk : 1 < (d.extractLsb' 64 8).toNat) : execDump u d s = .next (t.complete n stInvalid) := by
  have bad : (descFlag d 4 && decide ((field d 8 8 : Byte).toNat > 1)) = true := by simpa [descFlag, field] using ⟨hs, hk⟩
  rw [execDump, onDesc_taken ha ht (by rw [ho]; rfl) hc et en, if_pos bad]
  rfl

/-- R275: any other dump begins, unless one is being written. -/
theorem execDump_taken (hs : d.getLsbD 12 = true → (d.extractLsb' 64 8).toNat ≤ 1) : execDump u d s = .next (
    if t.eng.dump.isSome then t.complete n stBusy else (t.dumpNamed d n).elim (t.complete n stRefused (refusal 0x05 0x1C)) t.startDump) := by
  have good : ¬(descFlag d 4 && decide ((field d 8 8 : Byte).toNat > 1)) = true := by simpa [descFlag, field] using hs
  rw [execDump, onDesc_taken ha ht (by rw [ho]; rfl) hc et en, if_neg good, State.dumpNamed, show descFlag d 4 = d.getLsbD 12 from rfl]
  cases d.getLsbD 12 with
  | true => rfl
  | false => cases t.slotOf (descTag d) with
    | some k => rfl
    | none => cases t.part (descTag d) <;> rfl

/-- R311: one dump at a time. -/
theorem execDump_busy (hs : d.getLsbD 12 = true → (d.extractLsb' 64 8).toNat ≤ 1) (hb : t.eng.dump.isSome = true) :
    execDump u d s = .next (t.complete n stBusy) := (execDump_taken ha ht hc et en ho hs).trans (congrArg _ (if_pos hb))

/-- R275: a dump of what the descriptor names. -/
theorem execDump_starts {j : DumpJob} (hs : d.getLsbD 12 = true → (d.extractLsb' 64 8).toNat ≤ 1) (hb : t.eng.dump = none)
    (hj : t.dumpNamed d n = some j) : execDump u d s = .next (t.startDump j) := by
  rw [execDump_taken ha ht hc et en ho hs, hb, hj]
  rfl

end Dump

section Replay
variable {k : Bool} (ho : descOp d = 0x10) (hk : t.slotOf (descTag d) = some k)
include ho hk

/-- R292: no steps, or no inputs. -/
theorem execReplayStart_invalid (h : (d.extractLsb' 128 64).toNat < (d.extractLsb' 64 64).toNat ∨ t.sync.capMask = 0) :
    execReplayStart u d s = .next (t.complete n stInvalid) := by
  have bad : (decide ((field d 16 64 : BitVec 64).toNat < (field d 8 64 : BitVec 64).toNat) || decide (t.sync.capMask = 0)) = true := by
    rw [Bool.or_eq_true, decide_eq_true_eq, decide_eq_true_eq]
    exact h
  rw [execReplayStart, onDesc_taken ha ht (by rw [ho]; rfl) hc et en]
  simp only [hk]
  exact congrArg _ (if_pos bad)

/-- R292: a replay that is asked for before the open tick is in time for every step. -/
theorem execReplayStart_opening (hord : (d.extractLsb' 64 64).toNat ≤ (d.extractLsb' 128 64).toNat) (hm : t.sync.capMask ≠ 0)
    (hst : (t.ctx k).st = .opening) : execReplayStart u d s = .next (State.replayOn (t.modSync fun y => { y with
      replay := some (descTag d, d.extractLsb' 64 64, d.extractLsb' 128 64, n), replayQ := [], lastOfs := none, recG0 := none, divStep := none })) := by
  have valid : ¬(decide ((field d 16 64 : BitVec 64).toNat < (field d 8 64 : BitVec 64).toNat) || decide (t.sync.capMask = 0)) = true := by
    rw [Bool.or_eq_true, decide_eq_true_eq, decide_eq_true_eq]
    exact not_or_intro (Nat.not_lt.mpr hord) hm
  rw [execReplayStart, onDesc_taken ha ht (by rw [ho]; rfl) hc et en]
  simp only [hk, hst, bne_self_eq_false, Bool.false_and, Bool.false_eq_true, if_false]
  exact congrArg _ (if_neg valid)

end Replay

end Taken

end Sys2Proof.Machine
end

section
/-!
SUPPORT. The end of a FENCE, and the injection of a recorded edge (R293, R294, R315).
-/

namespace Sys2Proof.Machine

variable {s : State} {u k : Bool} {n : Nat} {x : Taken}

/-- R315: a FENCE is done once every descriptor that it waits for is. -/
theorem execFenceDone_held (ha : s.alive = true) (hf : (s.ring (if u then 1 else 0)).fence = some n)
    (hx : s.eng.taken.find? (fun x => x.num == n && !x.fin) = some x) : execFenceDone u s = .next (
      if s.fenceMet x then (s.modRing (if u then 1 else 0) fun r => { r with fence := none }).complete n stDone else s) := by
  have ring : (s.ring (cmdRing u)).fence = some n := hf
  rw [execFenceDone, whenAlive_alive ha]
  simp only [ring, hx]
  rfl

/-- R293: the edge that stands first in the replay, of the step that runs: it is injected at its offset. -/
theorem execReplayInject_current {i : BitVec 3} {e : Bool} {ofs : HT80} {rest : List RepEntry} (ha : s.alive = true) (hl : s.isLeaf = true)
    (hk : s.activeSlot = some k) (hq : s.sync.replayQ = .capture i e ((s.ctx k).iStep.setWidth 32) ofs :: rest)
    (hr : s.sync.replaying (s.ctx k).ptag (s.ctx k).iStep = true) : execReplayInject i s = .next (
      if s.isDue (dueTick (htAdd (s.ctx k).iStart 0 + ofs)) then State.replayOn (State.inject
        ((s.checkOrder k ((s.ctx k).iStep.setWidth 32) (some ofs)).modSync fun y => { y with
          replayQ := rest, lastOfs := some ((s.ctx k).iStep.setWidth 32, ofs) })
        k i e ofs (decide (dueTick (htAdd (s.ctx k).iStart 0 + ofs) != s.tick)))
      else s) := by
  rw [execReplayInject, onLeaf_alive hl ha]
  have now (f : Sync → Sync) : ((s.checkOrder k ((s.ctx k).iStep.setWidth 32) (some ofs)).modSync f).tick = s.tick :=
    congrArg htInt (hall_now (State.checkOrder_now ..))
  simp only [hk, hq, hr, bne_self_eq_false, Bool.not_true, Bool.or_self, Bool.false_eq_true, if_false, now]
  cases s.isDue (dueTick (htAdd (s.ctx k).iStart 0 + ofs)) <;> rfl

end Sys2Proof.Machine
end

section
/-!
The statement of the control descriptors.
-/

namespace Sys2Proof.Machine

/-- Settles O46: each descriptor once taken, a FENCE by what it waits for, and a replayed edge by its offset. -/
theorem controlDescriptors : Obligations.ControlDescriptors := by
  unfold Obligations.ControlDescriptors
  refine ⟨fun s t u d n ha ht hc et en => ⟨fun ho hb => ?_, fun ho hb => ?_, fun ho => execPartitionClose_taken ha ht hc et ho,
      fun ho hb hs => execDump_busy ha ht hc et en ho hs hb,
      fun k ho hb h12 hk => execDump_starts ha ht hc et en ho (fun h => absurd (h12.symm.trans h) Bool.false_ne_true) hb (t.dumpNamed_slot hk h12),
      fun p ho hb h12 hk hp =>
        execDump_starts ha ht hc et en ho (fun h => absurd (h12.symm.trans h) Bool.false_ne_true) hb (t.dumpNamed_hub hk hp h12),
      fun ho h12 hk => execDump_badSlot ha ht hc et en ho h12 hk,
      fun ho hb h12 hk => execDump_starts ha ht hc et en ho (fun _ => hk) hb (t.dumpNamed_bySlot h12),
      fun ho hk => (execFence_taken ha ht hc et en ho).trans (congrArg _ (if_pos hk)),
      fun ho hk => (execFence_taken ha ht hc et en ho).trans (congrArg _ (if_neg (Nat.not_lt.mpr hk))),
      fun k ho hk => ⟨fun h => execReplayStart_invalid ha ht hc et en ho hk h,
        fun hord hm hst => execReplayStart_opening ha ht hc et en ho hk hord hm hst⟩⟩,
    fun s u n x ha hf hx => ⟨fun hm => ?_, fun hm => ?_⟩, fun s k n e ofs rest ha hl hk hq hr => ⟨fun hdue => ?_, fun hdue => ?_⟩⟩
  · exact (execPartitionOpen_taken ha ht hc et en ho).trans (congrArg _ (if_pos hb))
  · exact (execPartitionOpen_taken ha ht hc et en ho).trans (congrArg _ (if_neg (Bool.eq_false_iff.mp hb)))
  · exact (execFenceDone_held ha hf hx).trans (congrArg _ (if_pos hm))
  · exact (execFenceDone_held ha hf hx).trans (congrArg _ (if_neg (Bool.eq_false_iff.mp hm)))
  · exact (execReplayInject_current ha hl hk hq hr).trans (congrArg _ (if_neg (Bool.eq_false_iff.mp hdue)))
  · exact (execReplayInject_current ha hl hk hq hr).trans (congrArg _ (if_pos hdue))

end Sys2Proof.Machine
end

section
/-!
SUPPORT. The sampling of words and launches (R175, R187, R210): the word whose turn it is, and each way in which the check of a
launch ends.
-/

namespace Sys2Proof.Machine

variable {s : State}

/-- R175, R187: the word whose turn it is leaves the list of those asked for. -/
theorem execTrellisActionSample_turn {a : Act} (hb : s.bandRuns = true) (hf : s.tr.acts.find? (fun x => x.ix == a.ix) = some a)
    (hd : s.isDue (s.sampleTick a.t) = true) (ht : s.wordTurn (s.sampleTick a.t) a.code = true) :
    execTrellisActionSample a.ix s = .next (
      if s.tr.seat = .seated then (State.sendWord (s.modTr fun r => { r with acts := r.acts.filter fun b => b.ix != a.ix }) a).1
      else s.modTr fun r => { r with acts := r.acts.filter fun b => b.ix != a.ix }) := by
  obtain ⟨hl, ha⟩ := bandRuns_up hb
  simp only [execTrellisActionSample, onLeaf_alive hl ha, State.actionSample, hf, hb, hd, ht, Bool.and_self, if_true]
  rfl

/-- R187: the slot of a word sampled now leaves the latency of the chain before its effective cycle. -/
def Trellis.sendable (r : Trellis) : Prop :=
  r.nextSlot (r.hcc.toNat + 3) + (13 + r.lSeat.toNat + r.hPa.toNat + r.hAs.toNat) ≤ r.hcc.toNat + 1 + r.k.toNat

theorem sendWord_sent {a : Act} (h : s.tr.sendable) : s.sendWord a = (s.modTr fun r =>
    { r.allot (BitVec.ofNat 64 (s.tr.nextSlot (s.tr.hcc.toNat + 3)))
        ((BitVec.ofNat 64 (s.tr.hcc.toNat + 1 + s.tr.k.toNat)).extractLsb' 0 12 ++ a.arg ++ a.code) with
      sent := r.sent ++ [(BitVec.ofNat 64 (s.tr.hcc.toNat + 1 + s.tr.k.toNat), a)]
      switchAt := if a.code = wSwap then some (BitVec.ofNat 64 (roundUp 256 (s.tr.hcc.toNat + 1 + s.tr.k.toNat)), true) else r.switchAt }, true) :=
  if_pos h

theorem sendWord_late {a : Act} (h : ¬ s.tr.sendable) :
    s.sendWord a = (s.raiseNow (faultCode 2 3 6 5) 0 s.activeTag (detail [(24, 1, a.code.toNat), (25, 1, a.arg.toNat)]), false) := if_neg h

section Launch
variable {e : Entry}

theorem execLaunchCheck_turn (he : s.entry .launch e.seq = some e) (ht : s.launchTurn e = true) : execLaunchCheck e.seq s = .next (s.launchOne e) := by
  have hb : s.bandRuns = true := by
    simp only [State.launchTurn, Bool.and_eq_true] at ht
    obtain ⟨⟨⟨⟨hb, -⟩, -⟩, -⟩, -⟩ := ht
    exact hb
  obtain ⟨hl, ha⟩ := bandRuns_up hb
  simp only [execLaunchCheck, onLeaf_alive hl ha, he, ht, if_true]

theorem launchOne_absent (hk : s.slotOf e.ptag = none) : s.launchOne e = s.launchFault e 0x0B (detail [(24, 4, e.id.toNat)]) := by
  simp only [State.launchOne, hk, Option.filter_none]

variable {k : Bool} (hk : s.slotOf e.ptag = some k) (hact : (s.ctx k).st = .active)
include hk hact

theorem launchOne_unseated (hs : s.tr.seat = .unseated) : s.launchOne e = s.launchFault e 0x0C (detail [(24, 4, e.id.toNat), (28, 1, 0)]) := by
  simp only [State.launchOne, filter_active hk hact, hs]
  rfl

variable (hs : s.tr.seat = .seated) (hw : s.swapBy e.ptag (dueTick e.t) = false)
include hs hw

/-- R210: the signature of the host differs from the one that the context was opened with. -/
theorem launchOne_sigHost (h : (s.ctx k).cfgA.sigHost ≠ s.pins.latSig) : s.launchOne e =
    ((s.modBand fun b => { b with sigHost := s.pins.latSig }).launchFault e 0x04 (detail [(24, 1, 0)])).modFc fun f => { f with
      details := f.details ++ [(uc 0x09 0x04, e.ptag, (s.ctx k).cfgA.sigHost ^^^ s.pins.latSig)] } := by
  have differ : ((s.ctx k).cfgA.sigHost != s.pins.latSig) = true := bne_iff_ne.mpr h
  simp only [State.launchOne, filter_active hk hact, hs, hw, bne_self_eq_false, Bool.false_eq_true, if_false, State.modBand_pins, differ, if_true]

/-- R187, R210, R228: with both signatures right, the FIRE word that goes out begins the step. -/
theorem launchOne_fires {t : State} (hh : (s.ctx k).cfgA.sigHost = s.pins.latSig) (hb : (s.ctx k).cfgA.sigBlock = s.sigBlock s.tr.setA)
    (he : e.env = false) (hw' : State.sendWord ((s.modBand fun b => { b with sigHost := s.pins.latSig }).freeEntry e.seq)
      { ix := 0, t := e.t, code := wFire, arg := e.arg.setWidth 4, ptag := e.ptag, desc := e.desc } = (t, true)) :
    s.launchOne e = t.modCtx k fun c =>
      (c.startStep (dueTick e.t)).note t.stamp (.item secL (bytesOf 4 e.id.toNat ++ bytesOf 1 e.arg.toNat)) := by
  simp only [State.launchOne, filter_active hk hact, hs, hw, State.modBand_pins, bne_self_eq_false, Bool.false_eq_true, if_false, hh, hb, hw', he, Bool.not_true]

end Launch

end Sys2Proof.Machine
end

section
/-!
The statement of the sampling.
-/

namespace Sys2Proof.Machine

/-- Settles O26: a word goes out where its slot leaves the latency of the chain, and a launch by the first check that fails it. -/
theorem wordsAndLaunchesSampled: Obligations.WordsAndLaunchesSampled := by
  unfold Obligations.WordsAndLaunchesSampled
  refine ⟨⟨fun s a ha hb hf hd ht => ⟨fun hs => ?_, fun hs => ?_⟩, fun s a => ⟨fun h => ?_, fun h => ?_⟩⟩, fun s e hb he ht => ⟨?_, ?_, ?_, ?_⟩⟩
  · exact (execTrellisActionSample_turn hb hf hd ht).trans (congrArg _ (if_pos hs))
  · exact (execTrellisActionSample_turn hb hf hd ht).trans (congrArg _ (if_neg hs))
  · rw [sendWord_sent h]
    exact ⟨rfl, rfl⟩
  · exact sendWord_late (Nat.not_le.mpr h)
  · exact execLaunchCheck_turn he ht
  · exact launchOne_absent
  · exact fun k hk hact hs => launchOne_unseated hk hact hs
  · exact fun k hk hact hs hw => ⟨launchOne_sigHost hk hact hs hw, fun hh hblk henv t hsent => launchOne_fires hk hact hs hw hh hblk henv hsent⟩

end Sys2Proof.Machine
end

section
/-!
SUPPORT. The units of the Trellis: which guards let a command of a unit pass, and how the address of a unit is found.
-/

namespace Sys2Proof.Machine

variable {s : State} {level : Level} {a : CellAddr} {f : State → State}

theorem unitUp_iff : s.unitUp level a = true ↔ s.isLeaf = true ∧ s.pdOn 7 = true ∧ s.tr.en = true ∧ s.hasUnit level a = true := by
  simp [State.unitUp, and_assoc]

theorem pdOn_alive {d : Nat} (h : s.pdOn d = true) : s.alive = true := by
  simp only [State.pdOn, Bool.and_eq_true] at h
  exact h.1

theorem unitUp_leaf (h : s.unitUp level a = true) : s.isLeaf = true ∧ s.alive = true := by
  obtain ⟨hl, hp, -⟩ := unitUp_iff.mp h
  exact ⟨hl, pdOn_alive hp⟩

/-- R163: what TR_GEOM holds at a cell it holds above it. -/
theorem unitUp_above (h : s.unitUp 0 a = true) : s.unitUp level a = true := by
  obtain ⟨hl, hp, he, hu⟩ := unitUp_iff.mp h
  refine unitUp_iff.mpr ⟨hl, hp, he, ?_⟩
  have cell : a.region.toNat < s.tr.regions.toNat ∧ a.block.toNat < s.tr.blocks.toNat ∧ a.cell.toNat < s.tr.cells.toNat := by
    simpa [State.hasUnit] using hu
  simp [State.hasUnit, cell]

theorem unitUp_core (h : s.unitUp level a = true) : s.unitUp 3 a = true := by
  obtain ⟨hl, hp, he, -⟩ := unitUp_iff.mp h
  exact unitUp_iff.mpr ⟨hl, hp, he, rfl⟩

/-- R163: a Pergola is found by its region alone. -/
theorem unitUp_pergola (h : s.unitUp 2 a = true) : s.unitUp 2 { region := a.region, block := 0, cell := 0 } = true := h

theorem onUnit_up (h : s.unitUp level a = true) : onUnit level a s f = .next (f s) := by
  obtain ⟨hl, hp, he, hu⟩ := unitUp_iff.mp h
  simp only [onUnit, onLeaf_alive hl (pdOn_alive hp), hp, he, hu, Bool.and_self, if_true]

theorem unitSeated_region (h : s.tr.regionSeated a.region = true) : s.tr.unitSeated level a = true := by simp [Trellis.unitSeated, h]

theorem onSeated_seated (h : s.unitUp level a = true) (hs : s.tr.unitSeated level a = true) : onSeated level a s f = .next (f s) := by
  simp only [onSeated, onUnit_up h, hs, if_true]

/-- A unit that is listed is found under its own address. -/
theorem State.unit_addr (s : State) (level : Level) (a : CellAddr) : (s.unit level a).addr = unitAddr level a := by
  simp only [State.unit]
  cases hf : s.tr.units.find? fun x => x.level == level && x.addr == unitAddr level a with
  | none => rfl
  | some u =>
    have found := List.find?_some hf
    simp only [Bool.and_eq_true, beq_iff_eq] at found
    exact found.2

end Sys2Proof.Machine
end

section
/-!
SUPPORT. Words received (R168, R171 to R174, R191, R197): what two copies tell, and what a Stake does with a good word by its CODE.
-/

namespace Sys2Proof.Machine

variable {s : State} {a : CellAddr} {slot : BitVec 6} {x y : BitVec 28}

theorem copiesJudge_same (hx : wordGood x = true) : copiesJudge x x = (some (wordContent x, true), none) := by simp [copiesJudge, hx]

/-- R197: what is reported of the copy that a unit takes, where the other one is in error. -/
theorem copiesJudge_first (hx : wordGood x = true) (hy : wordGood y = false) (hs : wordStomped y = false) : copiesJudge x y =
    (some (wordContent x, true), some (1, 1, detail [(24, 1, (x.extractLsb' 0 4).toNat), (25, 1, (x.extractLsb' 4 4).toNat)], false)) := by
  simp [copiesJudge, hx, hy, hs]

theorem copiesJudge_second (hx : wordGood x = false) (hy : wordGood y = true) (hs : wordStomped x = false) : copiesJudge x y =
    (some (wordContent y, false), some (1, 1, detail [(24, 1, (y.extractLsb' 0 4).toNat), (25, 1, (y.extractLsb' 4 4).toNat)], false)) := by
  simp [copiesJudge, hx, hy, hs]

theorem copiesJudge_differ (hx : wordGood x = true) (hy : wordGood y = true) (h : x ≠ y) : copiesJudge x y =
    (none, some (2, 3, detail [(24, 3, (wordContent x).toNat), (28, 3, (wordContent y).toNat)], false)) := by
  simp [copiesJudge, hx, hy, h]

theorem copiesJudge_lost (hx : wordGood x = false) (hy : wordGood y = false) (h : wordStomped x = false ∨ wordStomped y = false) :
    copiesJudge x y = (none, some (2, 2, detail [(24, 1, 0xFF)], true)) := by
  rcases h with h | h <;> simp [copiesJudge, hx, hy, h]

theorem copiesJudge_stomped (hx : wordGood x = false) (hy : wordGood y = false) (h : wordStomped x = true) (g : wordStomped y = true) :
    copiesJudge x y = (none, none) := by
  simp [copiesJudge, hx, hy, h, g]

/-- What a unit of `level` makes of a fault that two copies tell (R197): its report, and the loss of the seat where timing is hit. -/
def State.judgedFault (s : State) (level : Level) (a : CellAddr) : Option (Nat × Nat × BitVec 64 × Bool) → State
  | none => s
  | some (cls, cause, det, timing) =>
    if timing then (s.unitFault level a (faultCode cls level.toNat 6 cause) det).unseat a.region
    else s.unitFault level a (faultCode cls level.toNat 6 cause) det

/-- A Stake has no children: it only judges the copies and acts on the good one. -/
theorem downWord_stake (s : State) (a : CellAddr) (slot : BitVec 6) (x y : BitVec 28) : s.downWord 0 a slot x y =
    (copiesJudge x y).1.elim (s.judgedFault 0 a (copiesJudge x y).2) fun w =>
      (s.judgedFault 0 a (copiesJudge x y).2).takeWord 0 a (s.tr.slotStart (s.unit 0 a) slot s.tr.hcc) w.2 w.1 := by
  unfold State.downWord
  obtain ⟨_ | ⟨w, b⟩, _ | ⟨cls, cause, det, _ | _⟩⟩ := copiesJudge x y <;> rfl

/-- R171: a down word at a unit below the Leaf core. -/
theorem execTrellisWordRx_down {level : Level} (hu : s.unitUp level a = true) (hr : s.tr.regionSeated a.region = true) (h3 : level ≠ 3) :
    execTrellisWordRx level a (.down slot x y) s = .next (s.downWord level a slot x y) := by
  simp only [execTrellisWordRx, onSeated_seated hu (unitSeated_region hr), h3, if_false]

/-- R172: an up word at a unit that has children; of the Leaf core's, a region that is seated. -/
theorem execTrellisWordRx_up {level : Level} {child : BitVec 7} (hu : s.unitUp level a = true) (hr : s.tr.regionSeated a.region = true)
    (h0 : level ≠ 0) (hc : level = 3 → s.tr.regionSeated child = true) :
    execTrellisWordRx level a (.up child x y) s = .next (s.upWordRx level a child x y) := by
  have taken : ¬ (decide (level = 0) || decide (level = 3) && !s.tr.regionSeated child) = true := by
    simpa only [h0, decide_false, Bool.false_or, Bool.and_eq_true, decide_eq_true_eq, Bool.not_eq_true', not_and, Bool.not_eq_false] using hc
  simp only [execTrellisWordRx, onSeated_seated hu (unitSeated_region hr)]
  rw [if_neg taken]

section Stake
variable (hu : s.unitUp 0 a = true) (hr : s.tr.regionSeated a.region = true)
include hu hr

/-- A word is taken with what is reported of its copies. -/
theorem execTrellisWordRx_taken {w : BitVec 20} {b : Bool} {f : Option (Nat × Nat × BitVec 64 × Bool)} (h : copiesJudge x y = (some (w, b), f)) :
    execTrellisWordRx 0 a (.down slot x y) s =
      .next ((s.judgedFault 0 a f).takeWord 0 a (s.tr.slotStart (s.unit 0 a) slot s.tr.hcc) b w) := by
  rw [execTrellisWordRx_down hu hr (by decide), downWord_stake, h]
  rfl

/-- No word is taken. -/
theorem execTrellisWordRx_untaken {f : Option (Nat × Nat × BitVec 64 × Bool)} (h : copiesJudge x y = (none, f)) :
    execTrellisWordRx 0 a (.down slot x y) s = .next (s.judgedFault 0 a f) := by
  rw [execTrellisWordRx_down hu hr (by decide), downWord_stake, h]
  rfl

end Stake

section Take
variable {start : BitVec 64} {b : Bool} {w : BitVec 20} {d : Nat} {at_ : BitVec 64}

/-- R197: no CODE above 9 is known. -/
theorem takeWord_unknown (h : 9 < (w.extractLsb' 0 4).toNat) : s.takeWord 0 a start b w =
    s.unitFault 0 a (faultCode 1 0 6 6) (detail [(24, 1, (w.extractLsb' 0 4).toNat)]) := if_pos h

/-- R168: NONE asks for nothing. -/
theorem takeWord_none {level : Level} (h : w.extractLsb' 0 4 = 0) : s.takeWord level a start b w = s := by
  simp only [State.takeWord, h]
  rfl

/-- R191: CHECK compares the unit's own count where the word began. -/
theorem takeWord_check {own : BitVec 12} (ho : own = (s.unit 0 a).count start - BitVec.ofNat 12 (s.tr.frameOffset 0)) (hc : w.extractLsb' 0 4 = wCheck) :
    s.takeWord 0 a start b w = if w.extractLsb' 8 12 = own then s
      else (s.unitFault 0 a (faultCode 2 0 8 1) (detail [(24, 2, (w.extractLsb' 8 12).toNat), (26, 2, own.toNat)])).unseat a.region := by
  subst ho
  simp only [State.takeWord, hc]
  rfl

variable (hd : (s.unit 0 a).effective start b w = (d, at_)) (hlo : 1 ≤ (w.extractLsb' 0 4).toNat) (hhi : (w.extractLsb' 0 4).toNat ≤ 9)
  (hseat : w.extractLsb' 0 4 ≠ wSeat) (hcheck : w.extractLsb' 0 4 ≠ wCheck)
include hd hlo hhi hseat hcheck

/-- R174, R182: a word that takes effect on a cycle of its own. -/
theorem takeWord_timed : s.takeWord 0 a start b w =
    if d ≥ 2048 then (s.unitFault 0 a (faultCode 2 0 6 4) (detail [(24, 1, (w.extractLsb' 0 4).toNat), (25, 1, (w.extractLsb' 4 4).toNat), (26, 2, d)])).unseat a.region
    else (if w.extractLsb' 0 4 = wSwap then s.modUnit 0 a fun u => { u with swapAt := some (BitVec.ofNat 64 (roundUp 256 at_.toNat)) } else s).modUnit 0 a
      fun u => { u with due := u.due ++ [{ hc := at_, code := w.extractLsb' 0 4, arg := w.extractLsb' 4 4 }] } := by
  have known : ¬ (w.extractLsb' 0 4).toNat > 9 := Nat.not_lt.mpr hhi
  have coded : w.extractLsb' 0 4 ≠ 0 := fun h => by rw [h] at hlo; exact absurd hlo (by decide)
  simp only [State.takeWord, hd, known, coded, hseat, hcheck, decide_false, Bool.or_self, Bool.false_eq_true, if_false]
  rfl

end Take

/-- R173: a Pergola passes both copies of a good word on as they are, and NONE asks for nothing more. -/
theorem downWord_pergola_none (hx : wordGood x = true) (h : (wordContent x).extractLsb' 0 4 = 0) :
    s.downWord 2 a slot x x = (s.emit (.fwdWord 2 (unitAddr 2 a) 0 slot x)).emit (.fwdWord 2 (unitAddr 2 a) 0 (slot + 2) x) := by
  have copy (s : State) (slot : BitVec 6) (c : BitVec 64) : s.forwardCopy 2 a slot c x = s.emit (.fwdWord 2 (unitAddr 2 a) 0 slot x) := by
    simp only [State.forwardCopy, hx, State.unit_addr, if_true]
    rfl
  unfold State.downWord
  simp only [copiesJudge_same hx, copy, takeWord_none h]
  rfl

/-- R172, R242: an ARRIVE is an arrival of the child that sent it. -/
theorem upWordRx_arrive {level : Level} {child : BitVec 7} (hx : wordGood x = true) (h : (wordContent x).extractLsb' 0 4 = 1) :
    s.upWordRx level a child x x = if level = 3 then s.leafArrive child.toNat ((wordContent x).extractLsb' 4 4) true
      else s.unitArrive level a child.toNat ((wordContent x).extractLsb' 4 4) := by
  unfold State.upWordRx
  simp only [copiesJudge_same hx, h, if_true]

end Sys2Proof.Machine
end

section
/-!
The statement of the words received.
-/

namespace Sys2Proof.Machine

/-- Settles O27: the two copies tell what is taken and what is reported, and a good word acts by its CODE and its cycle. -/
theorem wordsReceived : Obligations.WordsReceived := by
  unfold Obligations.WordsReceived
  intro s a slot x y hu hr
  refine ⟨?_, fun ⟨hx, hy, hs⟩ => (execTrellisWordRx_taken hu hr (copiesJudge_first hx hy hs)).trans rfl,
    fun ⟨hx, hy, hs⟩ => (execTrellisWordRx_taken hu hr (copiesJudge_second hx hy hs)).trans rfl,
    fun ⟨hx, hy, hs⟩ => (execTrellisWordRx_untaken hu hr (copiesJudge_lost hx hy hs)).trans rfl,
    fun ⟨hx, hy, h⟩ => (execTrellisWordRx_untaken hu hr (copiesJudge_differ hx hy h)).trans rfl,
    fun ⟨hx, hy, h, g⟩ => (execTrellisWordRx_untaken hu hr (copiesJudge_stomped hx hy h g)).trans rfl, fun ⟨hx, he, h⟩ => ?_, fun child hx he h => ⟨?_, fun hc => ?_⟩⟩
  · intro hx he w d at_ hw hd
    subst he hw
    have taken : exec (.trellisWordRx 0 a (.down slot x x)) s = .next (s.takeWord 0 a (s.tr.slotStart (s.unit 0 a) slot s.tr.hcc) true (wordContent x)) :=
      (execTrellisWordRx_taken hu hr (copiesJudge_same hx)).trans rfl
    rw [taken]
    refine ⟨fun ⟨hlo, hhi, hseat, hcheck, hswap, hlt⟩ => ?_, fun ⟨hswap, hlt⟩ => ?_, fun ⟨hlo, hhi, hseat, hcheck, hge⟩ => ?_,
      fun h => congrArg _ (takeWord_unknown h), fun own ho hc => ⟨fun h => ?_, fun h => ?_⟩⟩
    · rw [takeWord_timed hd hlo hhi hseat hcheck, if_neg (Nat.not_le.mpr hlt), if_neg hswap]
    · rw [takeWord_timed hd (by rw [hswap]; decide) (by rw [hswap]; decide) (by rw [hswap]; decide) (by rw [hswap]; decide),
        if_neg (Nat.not_le.mpr hlt), if_pos hswap, hswap]
    · rw [takeWord_timed hd hlo hhi hseat hcheck, if_pos hge]
    · rw [takeWord_check ho hc, if_pos h]
    · rw [takeWord_check ho hc, if_neg h]
  · subst he
    have down : exec (.trellisWordRx 2 a (.down slot x x)) s = _ := execTrellisWordRx_down (unitUp_above hu) hr (by decide)
    rw [down, downWord_pergola_none hx h]
  · subst he
    have up : exec (.trellisWordRx 1 a (.up child x x)) s = _ := execTrellisWordRx_up (unitUp_above hu) hr (by decide) fun h => absurd h (by decide)
    rw [up, upWordRx_arrive hx h, if_neg (by decide)]
  · subst he
    have up : exec (.trellisWordRx 3 a (.up child x x)) s = _ := execTrellisWordRx_up (unitUp_above hu) hr (by decide) fun _ => hc
    rw [up, upWordRx_arrive hx h, if_pos rfl]

end Sys2Proof.Machine
end

section
/-!
SUPPORT. Packets received (R176 to R181, R242 to R246, R266): what becomes of one in error, and what a unit does with a good one by its
KIND and the lane it came on.
-/

namespace Sys2Proof.Machine

variable {s t : State} {level : Level} {a : CellAddr} {k : Packet} {cu : Bool} {ws : List (BitVec 28)}

section Guard
variable (hu : s.unitUp level a = true) (hs : s.tr.unitSeated level a = true)
include hu hs

theorem execTrellisPacketRx_child {c : BitVec 7} (h0 : level ≠ 0) (hc : level = 3 → s.tr.regionSeated c = true) :
    execTrellisPacketRx level a (some c) (cu, ws) s = .next (s.packetRx level a (some (c.setWidth 8)) cu ws) := by
  have taken : ¬ (decide (level = 0) || decide (level = 3) && !s.tr.regionSeated c) = true := by
    simpa only [h0, decide_false, Bool.false_or, Bool.and_eq_true, decide_eq_true_eq, Bool.not_eq_true', not_and, Bool.not_eq_false] using hc
  simp only [execTrellisPacketRx, onSeated_seated hu hs]
  rw [if_neg taken]

theorem execTrellisPacketRx_parent (h3 : level ≠ 3) : execTrellisPacketRx level a none (cu, ws) s = .next (s.packetRx level a none cu ws) := by
  simp only [execTrellisPacketRx, onSeated_seated hu hs, h3, if_false]

theorem execResultRx_below {ctl : BitVec 20} {data : BitVec 128} (h3 : level ≠ 3) :
    execResultRx level a ctl data s = .next (s.takePacket level a none (resultPkt ctl data)) := by
  simp only [execResultRx, onSeated_seated hu hs, h3, if_false]

end Guard

section Judge
variable {src : Option Byte}

theorem packetRx_good (h : ws.all wordGood = true) : s.packetRx level a src cu ws = s.takePacket level a src (packetOf cu ws) := if_pos h

variable (hbad : ws.all wordGood = false)
include hbad

/-- R197: the error of a stomped packet is another unit's. -/
theorem packetRx_stomped (h : (ws.all fun w => wordGood w || wordStomped w) = true) :
    s.packetRx level a src cu ws = s.bufferFreed level a src cu ws.length := by
  simp only [State.packetRx, hbad, h, Bool.false_eq_true, if_false, if_true]

/-- R176, R197: a packet in error is gone; in class U it will be asked for again. -/
theorem packetRx_error (h : (ws.all fun w => wordGood w || wordStomped w) = false) : s.packetRx level a src cu ws =
    if cu then (s.bufferFreed level a src cu ws.length).unitFault level a (faultCode 1 level.toNat 7 1) (detail [(24, 1, pktKind (packetOf cu ws))])
    else (s.bufferFreed level a src cu ws.length).unitFault level a (faultCode 2 level.toNat 7 2)
      (detail [(24, 1, pktKind (packetOf cu ws)), (25, 1, ((pktWord (packetOf cu ws) 0).extractLsb' 0 4).toNat)]) := by
  simp only [State.packetRx, hbad, h, Bool.false_eq_true, if_false]

end Judge

/-- R177: an idle word returns credit and no more. -/
theorem takePacket_idle {src : Option Byte} (hk : pktKind k = 0) : s.takePacket level a src k = s.credited level a src k.classU (pktCred k) := by
  simp only [State.takePacket, hk]

section Up
variable {c : Byte} (hc : k.classU = cu) (ht : t = s.credited level a (some c) cu (pktCred k))
include hc ht

/-- R243: a contribution ends at the unit that it reaches. -/
theorem takePacket_contrib (hcu : cu = false) (hk : pktKind k = 1) : s.takePacket level a (some c) k =
    (if level = 3 then t.leafContrib c.toNat k else t.unitContrib level a c.toNat k).bufferFreed level a (some c) cu (k.body.length + 1) := by
  subst ht hcu
  simp only [State.takePacket, hc, hk]

/-- R266: a post rises to the Leaf core. -/
theorem takePacket_post (hcu : cu = false) (hk : pktKind k = 2) : s.takePacket level a (some c) k =
    if level = 3 then (t.leafPost k).bufferFreed level a (some c) cu (k.body.length + 1) else t.passOn level a (some c) [none] k := by
  subst ht hcu
  simp only [State.takePacket, hc, hk]

/-- R176: class C knows no other kind from a child. -/
theorem takePacket_unknown (hcu : cu = false) (hk : 3 ≤ pktKind k) : s.takePacket level a (some c) k =
    (t.unknownKind level a k).bufferFreed level a (some c) cu (k.body.length + 1) := by
  subst ht hcu
  obtain ⟨n, hn⟩ := Nat.exists_eq_add_of_le' hk
  simp only [State.takePacket, hc, hn]

/-- R179, R180, R196: a reply, a report or a dump record rises. -/
theorem takePacket_reply (hcu : cu = true) (h3 : level ≠ 3) (hlo : 3 ≤ pktKind k) (hhi : pktKind k ≤ 6) :
    s.takePacket level a (some c) k = t.passOn level a (some c) [none] k := by
  subst ht hcu
  obtain hk | hk | hk | hk : pktKind k = 3 ∨ pktKind k = 4 ∨ pktKind k = 5 ∨ pktKind k = 6 := by omega
  all_goals simp only [State.takePacket, hc, hk, h3, if_false]

/-- R180, R181: RDATA at the Leaf core answers an access: of LEN 1 a WRITE, else a READ. -/
theorem takePacket_rdata (hcu : cu = true) (h3 : level = 3) (hk : pktKind k = 3) : s.takePacket level a (some c) k =
    (t.ackAccess (k.body.length == 1) false (pktLevel k) (unitAddr (pktLevel k) (wordAddr (pktWord k 0))) k.body).bufferFreed level a (some c) cu
      (k.body.length + 1) := by
  subst ht hcu
  simp only [State.takePacket, hc, hk, h3, if_true]

end Up

/-- R176, R181: a WRITE to this unit alone is answered, and goes no further. -/
theorem takePacket_writeHere (hc : k.classU = true) (hk : pktKind k = 1) (hl : pktLevel k = level) (hb : pktBcast k = false)
    (ha : unitAddr level (wordAddr (pktWord k 0)) = unitAddr level a) :
    s.takePacket level a none k = ((s.credited level a none true (pktCred k)).answer level a k).bufferFreed level a none true (k.body.length + 1) := by
  have noFurther (r : Trellis) : r.downPorts level k = [] := by simp [Trellis.downPorts, hl]
  simp only [State.takePacket, hc, hk, hl, ha, hb, beq_self_eq_true, Bool.or_true, Bool.and_self, if_true, noFurther]
  exact (if_pos rfl).trans (by rw [hc])

section Result
variable {ctl : BitVec 20} {data : BitVec 128}

theorem pktKind_resultPkt : pktKind (resultPkt ctl data) = 3 := by
  show ((pktHeader 3 8 0).extractLsb' 0 4).toNat = 3
  decide

theorem pktCred_resultPkt : pktCred (resultPkt ctl data) = 0 := by
  show ((pktHeader 3 8 0).extractLsb' 8 4).toNat = 0
  decide

/-- Seven words of 20 bits hold the 128 bits that they were cut from. -/
theorem append_words (d : BitVec 128) :
    (d.extractLsb' 120 20 ++ d.extractLsb' 100 20 ++ d.extractLsb' 80 20 ++ d.extractLsb' 60 20 ++ d.extractLsb' 40 20 ++ d.extractLsb' 20 20 ++
      d.extractLsb' 0 20 : BitVec 140).setWidth 128 = d := by
  refine BitVec.eq_of_getLsbD_eq fun i hi => ?_
  simp only [BitVec.getLsbD_setWidth, BitVec.getLsbD_append, BitVec.getLsbD_extractLsb', hi]
  grind

/-- R245: the data words of a RESULT spell the value. -/
theorem pktData_resultPkt : pktData (resultPkt ctl data) 1 = data := append_words data

/-- R245, R246: a Stake presents a RESULT of a channel on which its cell listens; above it the RESULT goes to the children that take part. -/
theorem takePacket_result (ht : t = s.credited level a none false 0) : s.takePacket level a none (resultPkt ctl data) =
    if level = 0 then (if t.cellIn a (ctl.extractLsb' 0 4) then t.emit (.result a (ctl.extractLsb' 0 9) data) else t).bufferFreed level a none false 9
    else t.passOn level a none (t.tr.memberPorts level a (ctl.extractLsb' 0 4)) (resultPkt ctl data) := by
  have cls : (resultPkt ctl data).classU = false := rfl
  have word : pktWord (resultPkt ctl data) 0 = ctl := rfl
  have len : (resultPkt ctl data).body.length + 1 = 9 := rfl
  subst ht
  simp only [State.takePacket, cls, word, len, pktKind_resultPkt, pktCred_resultPkt, pktData_resultPkt]

end Result

end Sys2Proof.Machine
end

section
/-!
The statement of the packets.
-/

namespace Sys2Proof.Machine

/-- Settles O28: what the words of a packet are decides whether it is taken, and its KIND and lane what the unit does with it. -/
theorem packetsReceived : Obligations.PacketsReceived := by
  unfold Obligations.PacketsReceived
  intro s a c cu ws k src hu hr ek es
  subst ek es
  have cls : (packetOf cu ws).classU = cu := rfl
  have seated : s.tr.unitSeated 1 a = true := unitSeated_region hr
  have atArbor : exec (.trellisPacketRx 1 a (some c) (cu, ws)) s = _ :=
    execTrellisPacketRx_child hu seated (by decide) fun h => absurd h (by decide)
  have good (hg : ws.all wordGood = true) : exec (.trellisPacketRx 1 a (some c) (cu, ws)) s = _ := atArbor.trans (congrArg _ (packetRx_good hg))
  have fromArbor : s.tr.regionSeated c = true → ws.all wordGood = true → exec (.trellisPacketRx 3 a (some c) (cu, ws)) s = _ := fun hc hg =>
    Eq.trans (execTrellisPacketRx_child (unitUp_core hu) rfl (by decide) fun _ => hc) (congrArg _ (packetRx_good hg))
  refine ⟨fun hcu hb he => ?_, fun hcu hb he => ?_, fun hb hst => ?_, fun hg t ht => ⟨fun hk => ?_, fun hcu hk => ?_, fun hcu hk => ?_, fun hcu hk => ?_,
    fun hcu hlo hhi => ?_⟩, fun hg hc t ht => ⟨fun hcu hk => ?_, fun hcu hk => ?_, fun hcu hk => ?_⟩, fun hg hcu hk hl hb ha => ?_,
    fun ctl data t hu0 ht hin => ?_, fun ctl data => ?_⟩
  · rw [atArbor, packetRx_error hb he, if_pos hcu]; rfl
  · rw [atArbor, packetRx_error hb he, if_neg (Bool.eq_false_iff.mp hcu)]; rfl
  · rw [atArbor, packetRx_stomped hb hst]
  · rw [good hg, takePacket_idle hk, ht]; rfl
  · rw [good hg, takePacket_contrib cls ht hcu hk]; rfl
  · rw [good hg, takePacket_post cls ht hcu hk]; rfl
  · rw [good hg, takePacket_unknown cls ht hcu hk]
  · rw [good hg, takePacket_reply cls ht hcu (by decide) hlo hhi]
  · rw [fromArbor hc hg, takePacket_contrib cls ht hcu hk]; rfl
  · rw [fromArbor hc hg, takePacket_post cls ht hcu hk]; rfl
  · rw [fromArbor hc hg, takePacket_rdata cls ht hcu rfl hk]
  · have fromAbove : exec (.trellisPacketRx 1 a none (cu, ws)) s = _ :=
      Eq.trans (execTrellisPacketRx_parent hu seated (by decide)) (congrArg _ (packetRx_good hg))
    rw [fromAbove, takePacket_writeHere hcu hk hl hb ha, hcu]
  · have result : exec (.resultRx 0 a ctl data) s = _ := execResultRx_below hu0 (unitSeated_region hr) (by decide)
    rw [result, takePacket_result ht, if_pos rfl, if_pos hin]
  · have result : exec (.resultRx 1 a ctl data) s = _ := execResultRx_below hu seated (by decide)
    rw [result, takePacket_result rfl, if_neg (by decide)]

end Sys2Proof.Machine
end

section
/-!
SUPPORT. The cell side of a seated Stake (R171, R198, R242, R243, R246, R249, R266): arrivals, contributions, posts and words presented.
-/

namespace Sys2Proof.Machine

variable {s : State} {a : CellAddr} {ch : BitVec 4}

/-- What is done to a unit depends on what it holds alone. -/
theorem State.modUnit_congr {level : Level} {f g : TUnit → TUnit} (h : f (s.unit level a) = g (s.unit level a)) :
    s.modUnit level a f = s.modUnit level a g := by
  simp only [State.modUnit, h]

/-- R242: the first arrival on a channel; it goes up as a word, or with the packet that brought it. -/
theorem cellArrive_first {word : Bool} (h : ((s.unit 0 a).chan ch).cur = false) : s.cellArrive a ch word =
    if word then (s.modUnit 0 a fun u => { u with chans := setChan { u.chan ch with cur := true } u.chans }).arriveUp 0 a ch
    else s.modUnit 0 a fun u => { u with chans := setChan { u.chan ch with cur := true } u.chans } := by
  simp only [State.cellArrive, h, Bool.not_false, if_true]

theorem cellArrive_ahead {word : Bool} (h : ((s.unit 0 a).chan ch).cur = true) (hn : ((s.unit 0 a).chan ch).next = false) :
    s.cellArrive a ch word = s.modUnit 0 a fun u => { u with chans := setChan { u.chan ch with next := true } u.chans } := by
  simp only [State.cellArrive, h, hn, Bool.not_true, Bool.not_false, Bool.false_eq_true, if_false, if_true]

theorem cellArrive_misuse {word : Bool} (h : ((s.unit 0 a).chan ch).cur = true) (hn : ((s.unit 0 a).chan ch).next = true) :
    s.cellArrive a ch word = s.modUnit 0 a fun u => { u with misuse := satInc u.misuse } := by
  simp only [State.cellArrive, h, hn, Bool.not_true, Bool.false_eq_true, if_false]

section Stake
variable (hu : s.unitUp 0 a = true) (hr : s.tr.regionSeated a.region = true)
include hu hr

theorem onStake_seated {f : State → State} : onStake a s f = .next (f s) := onSeated_seated hu (unitSeated_region hr)

/-- R241, R242: a cell arrives on the channels in which it takes part. -/
theorem execCellArrive_seated : execCellArrive a ch s = .next (if s.cellIn a ch then s.cellArrive a ch true else s) := onStake_seated hu hr

theorem execCellPost_seated (obj : BitVec 12) (op : Byte) (v : BitVec 32) : execCellPost a obj op v s = .next (s.sendUp 0 a (postPkt obj op v)) :=
  onStake_seated hu hr

/-- R171, R174: the only word that waits, on its cycle. -/
theorem execEventPresent_due {p : Pend} (hd : (s.unit 0 a).due = [p]) (hc : p.hc.toNat ≤ s.tr.hcc.toNat) :
    execEventPresent a s = .next ((s.modUnit 0 a fun u => { u with due := [] }).presentOne a p) := by
  have rest : (s.modUnit 0 a fun u => { u with due := u.due.filter fun p => s.tr.hcc.toNat < p.hc.toNat }) = s.modUnit 0 a fun u => { u with due := [] } :=
    State.modUnit_congr (by simp only [hd, List.filter_cons, List.filter_nil, Nat.not_lt.mpr hc, decide_false, Bool.false_eq_true, if_false])
  simp only [execEventPresent, onSeated_seated hu (unitSeated_region hr), rest, hd, List.filter_cons, List.filter_nil, hc, decide_true, if_true,
    List.foldl_cons, List.foldl_nil]

section Contrib
variable {ctl : BitVec 24} {data : BitVec 128} (hch : ctl.extractLsb' 0 4 = ch) (hin : s.cellIn a ch = true) (hcur : ((s.unit 0 a).chan ch).cur = false)
include hch hin hcur

/-- R249: an EMPTY contribution, of any TYPE; the last one of a cell is its arrival. -/
theorem execCellContrib_empty {last : Bool} (he : ctl.getLsbD 15 = true) (hl : ctl.getLsbD 14 = last) : execCellContrib a ctl data s = .next (
    if last then (s.sendUp 0 a (contribPkt ch none last false)).cellArrive a ch false else s.sendUp 0 a (contribPkt ch none last false)) := by
  subst hch
  simp only [execCellContrib, onStake_seated hu hr, State.ctbRdy, hin, hcur, he, hl, Bool.not_false, Bool.and_self, Bool.not_true, Bool.false_eq_true,
    if_false, if_true]

variable (he : ctl.getLsbD 15 = false) (hl : ctl.getLsbD 14 = false)
include he hl

/-- R243: a slot that is not SUMX carries neither FMT nor S. -/
theorem execCellContrib_plain (ht : ctl.extractLsb' 7 4 ≠ (1 : BitVec 4)) : execCellContrib a ctl data s =
    .next (s.sendUp 0 a (contribPkt ch (some ⟨ctl.extractLsb' 4 3, ctl.extractLsb' 7 4, 0, 0, data⟩) false false)) := by
  subst hch
  simp only [execCellContrib, onStake_seated hu hr, State.ctbRdy, hin, hcur, he, hl, beq_eq_false_iff_ne.mpr ht, ht, Bool.not_false, Bool.and_self,
    Bool.not_true, Bool.false_eq_true, if_false]

/-- R243, R246: a SUMX contribution goes up as the fixed-point number that its format spells. -/
theorem execCellContrib_sumx {v : FpVal} (ht : ctl.extractLsb' 7 4 = (1 : BitVec 4)) (hv : decodeFmt (ctl.extractLsb' 11 3) data = some v) :
    execCellContrib a ctl data s = .next (s.sendUp 0 a (contribPkt ch
      (some ⟨ctl.extractLsb' 4 3, 1, ctl.extractLsb' 11 3, ctl.extractLsb' 16 8, toFx96 v (ctl.extractLsb' 16 8)⟩) false true)) := by
  subst hch
  simp only [execCellContrib, onStake_seated hu hr, State.ctbRdy, hin, hcur, he, hl, ht, hv, beq_self_eq_true, Bool.not_false, Bool.and_self,
    Bool.not_true, Bool.false_eq_true, if_false, if_true]

end Contrib

end Stake

end Sys2Proof.Machine
end

section
/-!
The statement of the cell side.
-/

namespace Sys2Proof.Machine

/-- Settles O29: arrivals by what the channel of the cell holds, contributions by their form, and the word whose cycle has come. -/
theorem cellSide : Obligations.CellSide := by
  unfold Obligations.CellSide
  intro s a ch hu hr
  have arrive : exec (.cellArrive a ch) s = _ := execCellArrive_seated hu hr
  refine ⟨fun ⟨hin, hc⟩ => ?_, fun ⟨hin, hc, hn⟩ => ?_, fun ⟨hin, hc, hn⟩ => ?_, fun hin => ?_, fun ctl data hch hin hc hl he ht => ?_,
    fun ctl data v hch hin hc hl he ht hv => ?_, fun ctl data hch hin hc hl he => ?_, fun obj op v => execCellPost_seated hu hr obj op v,
    fun p hd hc => execEventPresent_due hu hr hd hc⟩
  · rw [arrive, if_pos hin, cellArrive_first hc, if_pos rfl]; rfl
  · rw [arrive, if_pos hin, cellArrive_ahead hc hn]
  · rw [arrive, if_pos hin, cellArrive_misuse hc hn]
  · rw [arrive, if_neg (Bool.eq_false_iff.mp hin)]
  · exact execCellContrib_plain hu hr hch hin hc he hl ht
  · exact execCellContrib_sumx hu hr hch hin hc he hl ht hv
  · exact execCellContrib_empty hu hr hch hin hc he hl

end Sys2Proof.Machine
end

section
/-!
SUPPORT. Faults and upkeep of the Trellis (R165, R175, R179, R180, R186, R191, R193, R194, R196, R197, R323): what a unit does with a fault
of its own, and what the clocks, the checks, the accesses and the hold ask of it.
-/

namespace Sys2Proof.Machine

variable {s t : State} {level : Level} {a : CellAddr}

/-- R197, R323: a unit with room for a report queues it and sends its ERROR packet. -/
theorem unitFault_queued {code : BitVec 16} {det : BitVec 64} (h3 : level ≠ 3) (hq : (s.unit level a).queued.length < 2)
    (ht : t = s.modUnit level a (fun x => { x with
      first := if x.first = 0 then code else x.first, ovf := (s.unit level a).ovf || (s.unit level a).first != 0, queued := x.queued ++ [(code, det)] })) :
    s.unitFault level a code det = t.sendUp level (unitAddr level a) {
      classU := true, header := pktHeader 4 3 3
      body := [(0 : BitVec 3) ++ bit ((s.unit level a).ovf || (s.unit level a).first != 0) ++ code, addrWord (unitAddr level a),
        (0 : BitVec 8) ++ (t.unit level a).count s.tr.hcc] } := by
  have hcc : (s.modUnit level a (fun x => { x with
      first := if x.first = 0 then code else x.first, ovf := (s.unit level a).ovf || (s.unit level a).first != 0, queued := x.queued ++ [(code, det)] })).tr.hcc =
      s.tr.hcc := rfl
  subst ht
  simp only [State.unitFault, h3, hq, if_false, if_true, hcc]

section Clocks
variable {child : Byte}

theorem execRegionClockSlip_up (hu : s.unitUp 2 a = true) : execRegionClockSlip a.region s =
    .next ((s.unitFault 2 { region := a.region, block := 0, cell := 0 } (faultCode 2 2 8 2)).unseat a.region) :=
  onUnit_up (unitUp_pergola hu)

/-- R165: the Leaf core loses the region. -/
theorem execLaneClockLost_core (hu : s.unitUp 3 a = true) : execLaneClockLost 3 a child s =
    .next ((s.raiseNow (faultCode 2 3 8 3) (mkLoc (child.setWidth 7 : BitVec 7).toNat) s.activeTag (detail [(24, 1, child.toNat)])).loseRegion
      (child.setWidth 7)) := onUnit_up hu

theorem execLaneClockLost_below (hu : s.unitUp level a = true) (h3 : level ≠ 3) : execLaneClockLost level a child s =
    .next ((s.unitFault level a (faultCode 2 level.toNat 8 3) (detail [(24, 1, child.toNat)])).unseat a.region) := by
  simp only [execLaneClockLost, onUnit_up hu, h3, if_false]

theorem execErrorWireFault_up (hu : s.unitUp level a = true) : execErrorWireFault level a child s =
    .next (s.unitFault level a (faultCode 2 level.toNat 0x15 2) (detail [(24, 1, 0), (25, 1, child.toNat)])) := onUnit_up hu

theorem windowEnds_iff : s.windowEnds = true ↔ s.tick.toNat % 1024 = 0 ∧ tickLt s.tr.seatedAt (s.tick - 1024) = true := by
  simp only [State.windowEnds, Bool.and_eq_true, decide_eq_true_eq]

theorem countOk_iff {r : Trellis} {n : Nat} : r.countOk n = true ↔ 88 * r.cyc1024.toNat ≤ (n + 1) * 100 ∧ n ≤ r.cyc1024.toNat + 1 := by
  simp only [Trellis.countOk, Bool.and_eq_true, decide_eq_true_eq]

/-- R186: a window that ends now, on a seated Trellis, with a count beyond what the rule allows. -/
theorem execHostClockWindow_fails (hu : s.unitUp level a = true) (hs : s.tr.seat = .seated) (hw : s.windowEnds = true)
    (hc : s.tr.countOk s.tr.winCount = false) : execHostClockWindow s.tick s =
      .next ((s.raiseNow (faultCode 2 3 8 4) 0 s.activeTag (detail [(24, 2, s.tr.winCount)])).unseat) := by
  obtain ⟨hl, hp, -⟩ := unitUp_iff.mp hu
  simp only [execHostClockWindow, onLeaf_alive hl (pdOn_alive hp), hp, hs, hw, hc, beq_self_eq_true, Bool.and_self, Bool.not_false, if_true]

theorem execHostClockWindow_holds {e : Tick} (hu : s.unitUp level a = true)
    (h : e ≠ s.tick ∨ s.tr.seat ≠ .seated ∨ s.windowEnds = false ∨ s.tr.countOk s.tr.winCount = true) : execHostClockWindow e s = .next s := by
  obtain ⟨hl, ha⟩ := unitUp_leaf hu
  rw [execHostClockWindow, onLeaf_alive hl ha, if_neg]
  rcases h with h | h | h | h <;> simp [h]

/-- R197, R323: the only report of a Pergola, of a packet in error, which costs no seat. -/
theorem execUnitErrorReport_packet {cnt : BitVec 12} {det : BitVec 64} (hu : s.unitUp 2 a = true)
    (hq : (s.unit 2 a).queued = [(faultCode 2 2 7 2, det)]) : execUnitErrorReport a (faultCode 2 2 7 2) cnt s =
      .next ((s.modUnit 2 a fun u => { u with queued := [] }).raise {
        code := faultCode 2 2 7 2, loc := cellLoc (unitAddr 2 a), partV := s.activeTag.isSome, ptag := s.activeTag.getD 0
        stamp := htOf (s.tick - BitVec.ofNat 64 (((s.tr.hcc.extractLsb' 0 12 - cnt).toNat * 1024 + (s.tr.cyc1024.toNat - 1)) / s.tr.cyc1024.toNat))
        detail := det }) := by
  have lv : codeLevel (faultCode 2 2 7 2) = 2 := by decide
  have keeps : (decide (codeClass (faultCode 2 2 7 2) = 2) && (decide (codeUnit (faultCode 2 2 7 2) = 8) || (decide (codeUnit (faultCode 2 2 7 2) = 6) &&
      (decide (codeCause (faultCode 2 2 7 2) = 2) || decide (codeCause (faultCode 2 2 7 2) = 4))))) = false := by decide
  have found : [(faultCode 2 2 7 2, det)].find? (fun q => q.1 == faultCode 2 2 7 2) = some (faultCode 2 2 7 2, det) :=
    List.find?_cons_of_pos (beq_self_eq_true _)
  simp only [execUnitErrorReport, lv, onUnit_up hu, State.modUnit, hq, found, List.erase_cons_head, keeps, Bool.false_eq_true, if_false]
  rfl

end Clocks

section Upkeep
variable (hu : s.unitUp level a = true)
include hu

/-- R175, R191: a CHECK that is due gets the next S slot. -/
theorem execCheckSend_due (hs : s.tr.seat = .seated) (hd : s.tr.checkAt = 0 ∨ s.tr.checkAt.toNat + 4096 ≤ s.tr.hcc.toNat) {c : BitVec 64}
    (hc : c = BitVec.ofNat 64 (s.tr.nextSlot (s.tr.hcc.toNat + 1))) : execCheckSend s = .next (s.modTr fun r => { r with
      lastSlot := c, checkAt := c, slots := r.slots ++ [(c, c.extractLsb' 0 12 ++ (0 : BitVec 4) ++ wCheck)] }) := by
  obtain ⟨hl, hp, -⟩ := unitUp_iff.mp hu
  have due : (decide (s.tr.checkAt = 0) || decide (s.tr.checkAt.toNat + 4096 ≤ s.tr.hcc.toNat)) = true := by
    simpa only [Bool.or_eq_true, decide_eq_true_eq] using hd
  subst hc
  simp only [execCheckSend, onLeaf_alive hl (pdOn_alive hp), hp, hs, due, beq_self_eq_true, Bool.and_self, if_true]

section Retry
variable {x : Access} (hx : s.tr.accesses = [x]) (hlv : x.level = level) (hax : x.addr = a) (hd : tickLe (x.sentAt + 10000) s.tick = true)
include hx hlv hax hd

/-- R180: what a retry does with the only access, 10 µs after it was sent: three times it is sent again, and the fourth failure is a fault. -/
theorem execTrellisAccessRetry_only (ht : x.tries ≤ 3) : execTrellisAccessRetry x.write level a s = .next (
    let t := s.modTr fun r => { r with accesses := [{ x with tries := x.tries + 1, sentAt := s.tick }] }
    if x.tries < 3 then t.sendDown (x.regions s.tr) x.packet
    else
      let t := t.raiseNow (faultCode 2 3 7 4) (cellLoc a) s.activeTag (detail [(24, 1, if x.write then 1 else 0)])
      if x.write then t else t.modTr fun r => { r with
        accesses := r.accesses.filter fun y => !(y.write == x.write && y.level == level && y.addr == a) }) := by
  obtain ⟨hl, hp, -⟩ := unitUp_iff.mp hu
  have found : [x].find? (fun y => y.write == x.write && y.level == level && y.addr == a && decide (y.tries ≤ 3)) = some x :=
    List.find?_cons_of_pos (by simp [hlv, hax, ht])
  have tried : (s.modTr fun r => { r with accesses := modFirst (· == x) (fun y => { y with tries := y.tries + 1, sentAt := s.tick }) r.accesses }) =
      s.modTr fun r => { r with accesses := [{ x with tries := x.tries + 1, sentAt := s.tick }] } := by
    simp only [State.modTr, hx, modFirst, beq_self_eq_true, if_true]
  simp only [execTrellisAccessRetry, onLeaf_alive hl (pdOn_alive hp), hx, found, hp, hd, Bool.and_self, if_true, tried]
  rfl

end Retry

/-- R179: the report that is due at a seated unit below the Leaf core. -/
theorem execTelemReport_below (hs : s.tr.unitSeated level a = true) (h3 : level ≠ 3) (hd : tickLe ((s.unit level a).telemAt + 1000000) s.tick = true) :
    execTelemReport level a ((s.unit level a).telemAt + 1000000) s =
      .next ((s.modUnit level a fun u => { u with deferrals := 0, telemAt := s.tick }).sendUp level (s.unit level a).addr {
        classU := true, header := pktHeader 5 2 level, body := [(s.unit level a).deferrals.setWidth 20, (s.unit level a).misuse.setWidth 20] }) := by
  simp only [execTelemReport, onSeated_seated hu hs, bne_self_eq_false, hd, Bool.not_true, Bool.or_self, Bool.false_eq_true, h3, if_false]

end Upkeep

/-- R179: the Leaf core's own deferrals go into TR_SAT at once. -/
theorem execTelemReport_core (hu : s.unitUp 3 a = true) (hd : tickLe ((s.unit 3 a).telemAt + 1000000) s.tick = true) :
    execTelemReport 3 a ((s.unit 3 a).telemAt + 1000000) s =
      .next ((s.modUnit 3 a fun u => { u with deferrals := 0, telemAt := s.tick }).modTr fun r => { r with
        sat := r.sat.modify 3 (· + (s.unit 3 a).deferrals.toNat) }) := by
  simp only [execTelemReport, onSeated_seated hu rfl, bne_self_eq_false, hd, Bool.not_true, Bool.or_self, Bool.false_eq_true, if_false, if_true]

/-- R193, R194: the first HOLD bit that rises begins an episode. -/
theorem seeHold_rises {r : Trellis} {g : BitVec 7} (h : r.upHold = 0) : (r.seeHold g true).episodes = satInc r.episodes ∧
    (r.seeHold g true).lastRegion = g ∧ (r.seeHold g true).episodeAt = r.hcc ∧ (r.seeHold g true).upHold = setBit 0 g.toNat := by
  have up : setBit 0#128 g.toNat ≠ 0#128 := fun zero => by
    have set := getLsbD_setBit 0#128 g.toNat g.toNat true g.isLt
    rw [zero, if_pos rfl] at set
    simp at set
  simp [Trellis.seeHold, h, up]

end Sys2Proof.Machine
end

section
/-!
The statement of the faults and the upkeep of the Trellis.
-/

namespace Sys2Proof.Machine

/-- Settles O30: the fault of a unit by its queue, and each event of the clocks and of the upkeep by its own condition. -/
theorem trellisFaultsAndUpkeep : Obligations.TrellisFaultsAndUpkeep := by
  unfold Obligations.TrellisFaultsAndUpkeep
  refine ⟨fun s t level a code det h3 hq ht => unitFault_queued h3 hq ht, fun s a child hu => ⟨execRegionClockSlip_up hu,
      execLaneClockLost_core (unitUp_core hu), execLaneClockLost_below hu (by decide), execErrorWireFault_up hu,
      fun hs hw hc => execHostClockWindow_fails hu hs hw hc, fun e h => execHostClockWindow_holds hu h, windowEnds_iff, fun n => countOk_iff,
      fun cnt det hq => execUnitErrorReport_packet hu hq⟩,
    fun s a hu => ⟨fun ⟨hs, hd⟩ c hc => execCheckSend_due hu hs hd hc, fun x hx hlv hax hd => ⟨fun ht => ?_, fun ⟨ht, hw⟩ => ?_, fun ⟨ht, hw⟩ => ?_⟩,
      fun hr hd => execTelemReport_below hu (unitSeated_region hr) (by decide) hd, fun hd => execTelemReport_core (unitUp_core hu) hd,
      fun b => onUnit_up hu, fun b => onUnit_up (unitUp_pergola (unitUp_above hu)), fun b => onUnit_up (unitUp_pergola (unitUp_above hu))⟩,
    fun r g h => seeHold_rises h⟩
  · exact (execTrellisAccessRetry_only hu hx hlv hax hd (by omega)).trans (congrArg _ (if_pos ht))
  · have failed := (execTrellisAccessRetry_only hu hx hlv hax hd (by omega)).trans (congrArg _ (if_neg (by omega)))
    show execTrellisAccessRetry true 0 a s = _
    simpa only [hw, ht, if_true, Nat.reduceAdd] using failed
  · have failed := (execTrellisAccessRetry_only hu hx hlv hax hd (by omega)).trans (congrArg _ (if_neg (by omega)))
    show execTrellisAccessRetry false 0 a s = _
    simpa only [hw, ht, Bool.false_eq_true, if_false, Nat.reduceAdd] using failed

end Sys2Proof.Machine
end

section
/-!
SUPPORT. Seating and the writes of TR_CTL (R182 to R185, R195, R199, R407, R417): how a seating ends, and what each bit of the register does.
-/

namespace Sys2Proof.Machine

variable {s : State} {m : SeatMeas}

/-- What a seating stores before its checks (R184, R417): a reseat the new CYC1024 alone. -/
def Trellis.stored (r : Trellis) (m : SeatMeas) : Trellis :=
  if r.reseating then { r with cyc1024 := satNat 16 (seatCount m) } else r.measured m

theorem stored_full {r : Trellis} (h : r.reseating = false) : r.stored m = r.measured m := by simp [Trellis.stored, h]

theorem stored_reseat {r : Trellis} (h : r.reseating = true) : r.stored m = { r with cyc1024 := satNat 16 (seatCount m) } := if_pos h

/-- The number and the region of the check that ends a seating as FAILED, if one does (R185, R417). -/
def Trellis.seatFault (r : Trellis) (m : SeatMeas) : Option (Nat × BitVec 7) :=
  ((r.stored m).seatCheck m).or (if r.reseating && !(r.stored m).fits m then some (9, r.reseatRegion) else none)

theorem seatFault_check {r : Trellis} {x : Nat × BitVec 7} (h : (r.stored m).seatCheck m = some x) : r.seatFault m = some x := by
  rw [Trellis.seatFault, h]
  rfl

theorem seatFault_unfit {r : Trellis} (h : (r.stored m).seatCheck m = none) (hp : r.reseating = true) (hf : (r.stored m).fits m = false) :
    r.seatFault m = some (9, r.reseatRegion) := by
  rw [Trellis.seatFault, h, hp, hf]
  rfl

theorem seatFault_none {r : Trellis} (h : (r.stored m).seatCheck m = none) (hf : r.reseating = false ∨ (r.stored m).fits m = true) :
    r.seatFault m = none := by
  rw [Trellis.seatFault, h]
  rcases hf with hf | hf <;> simp [hf]

/-- R183 to R185: a seating ends FAILED by the check that fails, or SEATED. -/
theorem seatingEnd_eq (hs : s.tr.seat = .seating) : s.seatingEnd m = match s.tr.seatFault m with
    | some (c, g) => s.modTr fun r => { r.stored m with seat := .failed, cause := BitVec.ofNat 4 c, failRegion := g, reseating := false }
    | none => State.clearFirst (s.modTr fun r => { (r.stored m).loadCounts m with
        seat := .seated, cause := 0, failRegion := ((r.stored m).loadCounts m).unseatedRegion, reseating := false, seatedAt := s.tick })
        (if s.tr.reseating then some s.tr.reseatRegion else none) := by
  have store : (s.modTr fun r => if s.tr.reseating then { r with cyc1024 := satNat 16 (seatCount m) } else r.measured m) =
      s.modTr fun r => r.stored m := rfl
  have region : (s.tr.stored m).reseatRegion = s.tr.reseatRegion := by unfold Trellis.stored; split <;> rfl
  simp only [State.seatingEnd, hs, bne_self_eq_false, Bool.false_eq_true, if_false, store, State.modTr_tr, region, Trellis.seatFault]
  cases (s.tr.stored m).seatCheck m with
  | some x => rfl
  | none => cases s.tr.reseating && !(s.tr.stored m).fits m <;> rfl

theorem execSeatingEnd_on (hl : s.isLeaf = true) (hp : s.pdOn 7 = true) : execSeatingEnd m s = .next (s.seatingEnd m) := by
  simp only [execSeatingEnd, onLeaf_alive hl (pdOn_alive hp), hp, if_true]

/-- R195, R199: EN cleared, with nothing else set. -/
def Trellis.disabled (r : Trellis) : Trellis := { r with
  en := false, seat := .unseated, reseating := false, seated := 0, upHold := 0, sent := [], slots := [], switchAt := none
  units := (r.units.map fun u => { u with lanes := [], upQ := [], upD := none, due := [], swapAt := none }).filter fun u => !u.isReset }

/-- R183: a seating begins, of every region or of RESEAT_REGION. -/
def Trellis.seatStarted (r : Trellis) (part : Bool) : Trellis := { r with
  seat := .seating, cause := 0, reseating := part, lastSlot := 0, checkAt := 0, slots := []
  seated := if part then setBit r.seated r.reseatRegion.toNat false else 0 }

theorem setTrEn_busy (h : s.activeSlot.isSome = true) : s.setTrEn false = s.rpErr := by
  simp only [State.setTrEn, h, Bool.not_false, Bool.and_self, if_true]

theorem setTrEn_off (h : s.activeSlot = none) : s.setTrEn false = (s.modTr Trellis.disabled).rpOk := by
  simp only [State.setTrEn, h, Option.isSome_none, Bool.and_false, Bool.false_eq_true, if_false]
  rfl

theorem setTrEn_on : s.setTrEn true = (s.modTr fun r => { r with en := true }).rpOk := rfl

theorem startSeat_starts {part : Bool} (he : s.tr.en = true) (hr : s.tr.regions ≠ 0) (hk : s.activeSlot = none) :
    s.startSeat part = (s.modTr fun r => r.seatStarted part).rpOk := by
  simp only [State.startSeat, he, bne_iff_ne.mpr hr, hk, Option.isNone_none, Bool.and_self, if_true]
  rfl

theorem startSeat_refused {part : Bool} (h : s.tr.en = false ∨ s.tr.regions = 0 ∨ s.activeSlot ≠ none) : s.startSeat part = s.rpErr := by
  refine if_neg ?_
  rcases h with h | h | h <;> simp [h]

theorem startCopy_starts (hk : s.activeSlot = none) :
    s.startCopy = (s.modTr fun r => { r with switchAt := some (BitVec.ofNat 64 (roundUp 256 (r.hcc.toNat + 1)), false) }).rpOk := by
  simp only [State.startCopy, hk, Option.isSome_none, Bool.false_eq_true, if_false]

theorem startCopy_refused (hk : s.activeSlot ≠ none) : s.startCopy = s.rpErr := if_pos (Option.isSome_iff_ne_none.mpr hk)

/-- The RW fields of TR_CTL but EN, as a word without them sets them. -/
def Trellis.fieldsCleared (r : Trellis) : Trellis := { r with view := false, reseatRegion := 0 }

theorem writeTrCtl_disable (h : s.activeSlot = none) : s.writeTrCtl 0 = (s.modTr fun r => r.disabled.fieldsCleared).rpOk := by
  have off : s.setTrEn ((0 : Word).getLsbD 0) = (s.modTr Trellis.disabled).rpOk := setTrEn_off h
  rw [State.writeTrCtl, off]
  rfl

theorem writeTrCtl_disable_refused (h : s.activeSlot ≠ none) : s.writeTrCtl 0 = s.rpErr := by
  have busy : s.setTrEn ((0 : Word).getLsbD 0) = s.rpErr := setTrEn_busy (Option.isSome_iff_ne_none.mpr h)
  rw [State.writeTrCtl, busy]
  rfl

theorem writeTrCtl_enable : s.writeTrCtl 1 = (s.modTr fun r => Trellis.fieldsCleared { r with en := true }).rpOk := rfl

/-- EN and SEAT together: the Trellis is on when the seating begins (R407). -/
theorem writeTrCtl_enableSeat (hr : s.tr.regions ≠ 0) (hk : s.activeSlot = none) :
    s.writeTrCtl 3 = (s.modTr fun r => (Trellis.fieldsCleared { r with en := true }).seatStarted false).rpOk := by
  let t := ((s.modTr fun r => { r with en := true }).rpOk).modTr Trellis.fieldsCleared
  have seats : t.startSeat false = (t.modTr fun r => r.seatStarted false).rpOk := startSeat_starts rfl hr hk
  show (if (t.startSeat false).rp.err then s.rpErr else t.startSeat false) = _
  rw [seats]
  rfl

section Registers
variable (hw : s.writable 7 = true) (hl : s.isLeaf = true)
include hw hl

theorem execTrEnWrite_writable (w : Word) : execTrEnWrite w s = .next (s.writeTrCtl w) := onLeafReg_writable hl hw

theorem execSeat_writable : execSeat s = .next (s.startSeat false) := onLeafReg_writable hl hw

theorem execCopy_writable : execCopy s = .next s.startCopy := onLeafReg_writable hl hw

theorem execReseat_starts {g : BitVec 7} (he : s.tr.en = true) (hr : s.tr.regions ≠ 0) (hk : s.activeSlot = none) :
    execReseat g s = .next ((s.modTr fun r => Trellis.seatStarted { r with reseatRegion := g } true).rpOk) := by
  have seats : (s.modTr fun r => { r with reseatRegion := g }).startSeat true =
      ((s.modTr fun r => { r with reseatRegion := g }).modTr fun r => r.seatStarted true).rpOk := startSeat_starts he hr hk
  rw [execReseat, onLeafReg_writable hl hw, seats]
  rfl

theorem execReseat_refused {g : BitVec 7} (h : s.tr.en = false ∨ s.tr.regions = 0 ∨ s.activeSlot ≠ none) : execReseat g s = .next s.rpErr := by
  have refused : (s.modTr fun r => { r with reseatRegion := g }).startSeat true = (s.modTr fun r => { r with reseatRegion := g }).rpErr :=
    startSeat_refused h
  rw [execReseat, onLeafReg_writable hl hw, refused]
  rfl

end Registers

/-- R182: the sets of the Leaf core change at the switch cycle and not before. -/
theorem switchSets_due {r : Trellis} {c : BitVec 64} {swaps : Bool} (h : r.switchAt = some (c, swaps)) (hc : c.toNat ≤ r.hcc.toNat) :
    r.switchSets.setA = r.setS ∧ r.switchSets.setS = (if swaps then r.setA else r.setS) ∧ r.switchSets.switchAt = none := by
  simp only [Trellis.switchSets, h, hc, if_true, and_self]

theorem switchSets_early {r : Trellis} {c : BitVec 64} {swaps : Bool} (h : r.switchAt = some (c, swaps)) (hc : r.hcc.toNat < c.toNat) :
    r.switchSets.setA = r.setA ∧ r.switchSets.setS = r.setS ∧ r.switchSets.switchAt = r.switchAt := by
  simp only [Trellis.switchSets, h, Nat.not_le.mpr hc, if_false, and_self]

theorem switchUnit_due {r : Trellis} {u : TUnit} {c : BitVec 64} (h : r.unitSwitch u = some c) (hc : c.toNat ≤ r.hcc.toNat) :
    (r.switchUnit u).setA = u.setS ∧ (r.switchUnit u).setS = (if u.swapAt.isSome then u.setA else u.setS) := by
  simp only [Trellis.switchUnit, h, hc, if_true, and_self]

end Sys2Proof.Machine
end

section
/-!
The statement of the seating and of TR_CTL.
-/

namespace Sys2Proof.Machine

/-- Settles O31: a seating ends by its first failed check or SEATED, and the writes of TR_CTL are taken by what the Trellis stands at. -/
theorem trellisControl : Obligations.TrellisControl := by
  unfold Obligations.TrellisControl
  refine ⟨fun s m ha hl hp hs => ?_, fun s g hw hl => ?_, fun s ha hl => onLeaf_alive hl ha,
    fun r c swaps h => ⟨switchSets_due h, switchSets_early h⟩, fun r u c h hc => switchUnit_due h hc⟩
  · have ends : exec (.seatingEnd m) s = _ := (execSeatingEnd_on hl hp).trans (congrArg _ (seatingEnd_eq hs))
    rw [ends]
    refine ⟨fun hf hc => ?_, fun c g hf hc => ?_, fun r' er hf hc => ⟨fun hfit => ?_, fun hfit => ?_⟩⟩
    · rw [seatFault_none (by rwa [stored_full hf]) (.inl hf), hf]
      simp only [State.modTr, stored_full hf]
      rfl
    · rw [seatFault_check (by rwa [stored_full hf])]
      simp only [State.modTr, stored_full hf]
    · have stored : s.tr.stored m = r' := er ▸ stored_reseat hf
      rw [seatFault_none (by rwa [stored]) (.inr (by rwa [stored])), hf]
      simp only [State.modTr, stored]
      rfl
    · have stored : s.tr.stored m = r' := er ▸ stored_reseat hf
      rw [seatFault_unfit (by rwa [stored]) hf (by rwa [stored])]
      simp only [State.modTr, stored]
      rfl
  · have write (w : Word) : exec (.trEnWrite w) s = _ := execTrEnWrite_writable hw hl w
    have seat : exec .seat s = _ := execSeat_writable hw hl
    have copy : exec .copy s = _ := execCopy_writable hw hl
    refine ⟨fun hk => ?_, (write 1).trans (congrArg _ writeTrCtl_enable), fun hr hk => ?_, fun hk => ?_, fun ⟨he, hr, hk⟩ => ?_,
      fun ⟨he, hr, hk⟩ => execReseat_starts hw hl he hr hk, fun h => ⟨?_, execReseat_refused hw hl h⟩, fun hk => ?_, fun hk => ?_,
      show execClrStretch s = _ from onLeafReg_writable hl hw, show execClrSat s = _ from onLeafReg_writable hl hw⟩
    · rw [write, writeTrCtl_disable hk]; rfl
    · rw [write, writeTrCtl_enableSeat hr hk]; rfl
    · rw [write, writeTrCtl_disable_refused hk]
    · rw [seat, startSeat_starts he hr hk]; rfl
    · rw [seat, startSeat_refused h]
    · rw [copy, startCopy_starts hk]
    · rw [copy, startCopy_refused hk]

end Sys2Proof.Machine
end

section
/-!
SUPPORT. CFG_WRITE, WINDOW_SET, LOAD_ENV and CAPTURE_ARM, once taken and checked (R181, R209, R211, R217, R220, R223, R311, R412).
-/

namespace Sys2Proof.Machine

variable {s t : State} {u : Bool} {d : Desc} {n : Nat}

/-- R311: the low and the high half of a CFG_WRITE's VALUE. -/
theorem setWidth_value (d : Desc) : (d.extractLsb' 128 64).setWidth 32 = d.extractLsb' 128 32 := by
  refine BitVec.eq_of_getLsbD_eq fun i hi => ?_
  simp [hi, Nat.lt_trans hi (by decide : 32 < 64)]

theorem extractLsb'_value (d : Desc) : (d.extractLsb' 128 64).extractLsb' 32 32 = d.extractLsb' 160 32 := by
  refine BitVec.eq_of_getLsbD_eq fun i hi => ?_
  have inside : 32 + i < 64 := by omega
  simp [hi, inside, ← Nat.add_assoc]

/-- R176, R211, R311: a CFG_WRITE that names no target, no unit's register, or a limit below its budget. -/
def cfgBad (d : Desc) : Bool :=
  match (d.extractLsb' 64 8).toNat with
  | 1 => !(((d.extractLsb' 72 8).toNat = 1 && (d.extractLsb' 104 8).toNat = 0) || ((d.extractLsb' 72 8).toNat = 0 && (d.extractLsb' 104 8).toNat ≤ 3)) ||
      ((d.extractLsb' 80 20).getLsbD 19 && (d.extractLsb' 112 2).toNat ≤ (d.extractLsb' 72 8).toNat)
  | 2 => (d.extractLsb' 128 64).extractLsb' 32 32 != 0 &&
      ((d.extractLsb' 128 64).extractLsb' 32 32).toNat < ((d.extractLsb' 128 64).setWidth 32).toNat
  | 3 => false
  | _ => true

theorem cfgBad_target (h : 3 < (d.extractLsb' 64 8).toNat ∨ d.extractLsb' 64 8 = 0) : cfgBad d = true := by
  unfold cfgBad
  rcases h with h | h
  · split
    next e => omega
    next e => omega
    next e => omega
    next => rfl
  · rw [h]
    rfl

/-- R181: TRIM of one Arbor. -/
theorem cfgBad_trim (h : d.extractLsb' 64 8 = 1) (hl : d.extractLsb' 72 8 = 1) (hx : d.extractLsb' 104 8 = 0) (hb : d.getLsbD 99 = false) :
    cfgBad d = false := by
  have single : (d.extractLsb' 80 20).getLsbD 19 = false := by rw [BitVec.getLsbD_extractLsb', hb]; rfl
  simp only [cfgBad, h, hl, hx, single]
  rfl

theorem cfgBad_limits (h : d.extractLsb' 64 8 = 2) : cfgBad d =
    (d.extractLsb' 160 32 != 0 && decide ((d.extractLsb' 160 32).toNat < (d.extractLsb' 128 32).toNat)) := by
  simp only [cfgBad, h, setWidth_value, extractLsb'_value]
  rfl

theorem cfgBad_signatures (h : d.extractLsb' 64 8 = 3) : cfgBad d = false := by
  rw [cfgBad, h]
  rfl

/-- What a CFG_WRITE of context `k` that nothing refuses writes in the shadow set of its target (R181, R209, R211). -/
def State.cfgApplied (s : State) (k : Bool) (n : Nat) (d : Desc) : State :=
  match (d.extractLsb' 64 8).toNat with
  | 1 =>
    let scope : Option Level := if (d.extractLsb' 80 20).getLsbD 19 then some (d.extractLsb' 112 2) else none
    let level : Level := BitVec.ofNat 2 (d.extractLsb' 72 8).toNat
    (s.cfgTrellis level (wordAddr (d.extractLsb' 80 20)) scope (d.extractLsb' 104 8).toNat ((d.extractLsb' 128 64).setWidth 32)).access true level
      (wordAddr (d.extractLsb' 80 20)) (BitVec.ofNat 7 (d.extractLsb' 104 8).toNat) ((d.extractLsb' 128 64).setWidth 32) scope (some n)
  | 2 => (s.modCtx k fun c => { c with cfgS := { c.cfgS with
      budget := (d.extractLsb' 128 64).setWidth 32, limit := (d.extractLsb' 128 64).extractLsb' 32 32 } }).complete n stDone
  | _ => (s.modCtx k fun c => { c with cfgS := { c.cfgS with sigHost := d.extractLsb' 128 64, sigBlock := d.extractLsb' 192 64 } }).complete n stDone

theorem cfgApplied_trim {k : Bool} (h : d.extractLsb' 64 8 = 1) (hl : d.extractLsb' 72 8 = 1) (hx : d.extractLsb' 104 8 = 0) (hb : d.getLsbD 99 = false) :
    s.cfgApplied k n d = (s.cfgTrellis 1 (wordAddr (d.extractLsb' 80 20)) none 0 (d.extractLsb' 128 32)).access true 1 (wordAddr (d.extractLsb' 80 20)) 0
      (d.extractLsb' 128 32) none (some n) := by
  have single : (d.extractLsb' 80 20).getLsbD 19 = false := by rw [BitVec.getLsbD_extractLsb', hb]; rfl
  simp only [State.cfgApplied, h, hl, hx, single, setWidth_value]
  rfl

theorem cfgApplied_limits {k : Bool} (h : d.extractLsb' 64 8 = 2) : s.cfgApplied k n d =
    (s.modCtx k fun c => { c with cfgS := { c.cfgS with budget := d.extractLsb' 128 32, limit := d.extractLsb' 160 32 } }).complete n stDone := by
  simp only [State.cfgApplied, h, setWidth_value, extractLsb'_value]
  rfl

theorem cfgApplied_signatures {k : Bool} (h : d.extractLsb' 64 8 = 3) : s.cfgApplied k n d =
    (s.modCtx k fun c => { c with cfgS := { c.cfgS with sigHost := d.extractLsb' 128 64, sigBlock := d.extractLsb' 192 64 } }).complete n stDone := by
  rw [State.cfgApplied, h]
  rfl

section Taken
variable (ha : s.alive = true) (ht : s.takeable u d = true) (hc : s.commonCheck d = none) (et : t = s.pull u d) (en : n = s.eng.takenNum)
include ha ht hc et en

/-- R311: a CFG_WRITE for a context of this node. -/
theorem execCfgWrite_taken {k : Bool} (ho : descOp d = 0x06) (hk : t.slotOf (descTag d) = some k) : execCfgWrite u d s = .next (
    if cfgBad d then t.complete n stInvalid else if t.swapArmed then t.complete n stBusy else t.cfgApplied k n d) := by
  rw [execCfgWrite, onDesc_taken ha ht (by rw [ho]; rfl) hc et en]
  simp only [hk]
  rfl

section Window
variable (ho : descOp d = 0x0A)
include ho

/-- R217: a schedule that breaks a rule. -/
theorem execWindowSet_invalid {m : Nat} (hb : t.schedBad (d.extractLsb' 224 4).toNat (schedOf d) = some m) :
    execWindowSet u d s = .next (t.complete n stInvalid 0 (det10 [(22, 1, m)])) := by
  have bad : t.schedBad (field d 28 4 : BitVec 4).toNat (schedOf d) = some m := hb
  rw [execWindowSet, onDesc_taken ha ht (by rw [ho]; rfl) hc et en]
  simp only [bad]

variable (hb : t.schedBad (d.extractLsb' 224 4).toNat (schedOf d) = none)
include hb

/-- R217, R218: a schedule that holds from now on where no context is active, and else is kept for the next one. -/
theorem execWindowSet_valid : execWindowSet u d s = .next (
    if t.swapArmed then t.complete n stBusy
    else
      let t := t.modBand fun b => { b with schedS := b.schedS.set (d.extractLsb' 224 4).toNat (schedOf d) }
      (if t.activeSlot.isNone then ((t.modBand fun b => { b with schedA := b.schedA.set (d.extractLsb' 224 4).toNat (schedOf d) }).enterSched
        (d.extractLsb' 224 4).toNat).driveWin else t).complete n stDone) := by
  have good : t.schedBad (field d 28 4 : BitVec 4).toNat (schedOf d) = none := hb
  rw [execWindowSet, onDesc_taken ha ht (by rw [ho]; rfl) hc et en]
  simp only [good]
  rfl

end Window

section Env
variable (ho : descOp d = 0x0E)
include ho

/-- R220: an envelope with STEP clear. -/
theorem execLoadEnv_envelope (hs : d.getLsbD 12 = false) : execLoadEnv u d s = .next (
    if envBad d then t.complete n stInvalid
    else if t.swapArmed then t.complete n stBusy
    else (if t.activeSlot.isNone then t.modBand fun b => { b with envS := envOf d, envA := envOf d } else t.modBand fun b => { b with envS := envOf d }).complete
      n stDone) := by
  have plain : descFlag d 4 = false := hs
  rw [execLoadEnv, onDesc_taken ha ht (by rw [ho]; rfl) hc et en]
  simp only [plain, Bool.false_eq_true, if_false]
  rfl

/-- R223: a step to a level, at its time, while no envelope is in force. -/
theorem execLoadEnv_step (hs : d.getLsbD 12 = true) (he : t.band.envA.en = false) (hl : (d.extractLsb' 224 8).toNat ≤ 15)
    (hlead : t.leadShort (d.extractLsb' 64 80) 100 = false) (hfull : t.tableFull = false) : execLoadEnv u d s = .next (t.insert {
      action := .loadStep, node := true, t := d.extractLsb' 64 80, id := descHost d, arg := d.extractLsb' 224 8, ofs := d.extractLsb' 256 32, desc := some n }) := by
  have step : descFlag d 4 = true := hs
  have level : ¬ (t.band.envA.en || decide ((field d 28 8 : Byte).toNat > 15)) = true := by simpa [he, field] using hl
  have lead : t.leadShort (descTime d 8) 100 = false := hlead
  rw [execLoadEnv, onDesc_taken ha ht (by rw [ho]; rfl) hc et en]
  simp only [step, if_true, level, lead, hfull, Bool.false_eq_true, if_false]
  rfl

end Env

section Capture
variable (ho : descOp d = 0x0D)
include ho

/-- R412: there are eight inputs. -/
theorem execCaptureArm_invalid (hi : 7 < (d.extractLsb' 384 8).toNat) : execCaptureArm u d s = .next (t.complete n stInvalid) := by
  have bad : (decide ((field d 48 8 : Byte).toNat > 7) || (!descFlag d 4 && !htLt (descTime d 8) (descTime d 28))) = true := by
    simpa [field] using .inl hi
  rw [execCaptureArm, onDesc_taken ha ht (by rw [ho]; rfl) hc et en]
  simp only [bad, if_true]
  rfl

/-- R412: a window that opens at its time, and closes at its second time where the descriptor gives one. -/
theorem execCaptureArm_arms (hi : (d.extractLsb' 384 8).toNat ≤ 7) (h2 : d.getLsbD 12 = true ∨ htLt (d.extractLsb' 64 80) (d.extractLsb' 224 80) = true)
    (hlead : t.leadShort (d.extractLsb' 64 80) 100 = false) (hfull : t.tableFull (if d.getLsbD 12 then 1 else 2) = false) :
    execCaptureArm u d s = .next (
      let e : Entry := { action := .capOpen, node := true, t := d.extractLsb' 64 80, id := descHost d, arg := d.extractLsb' 384 8, desc := some n
                         last := d.getLsbD 12 }
      if d.getLsbD 12 then t.insert e else (t.insert e).insert { e with action := .capClose, t := d.extractLsb' 224 80, last := true }) := by
  have good : (decide ((field d 48 8 : Byte).toNat > 7) || (!descFlag d 4 && !htLt (descTime d 8) (descTime d 28))) = false := by
    have times : (!d.getLsbD 12 && !htLt (d.extractLsb' 64 80) (d.extractLsb' 224 80)) = false := by
      rcases h2 with h | h
      · rw [h, Bool.not_true, Bool.false_and]
      · rw [h, Bool.not_true, Bool.and_false]
    have input : decide ((d.extractLsb' 384 8).toNat > 7) = false := decide_eq_false (Nat.not_lt.mpr hi)
    exact Bool.or_eq_false_iff.mpr ⟨input, times⟩
  have lead : t.leadShort (descTime d 8) 100 = false := hlead
  have full : t.tableFull (if descFlag d 4 then 1 else 2) = false := hfull
  rw [execCaptureArm, onDesc_taken ha ht (by rw [ho]; rfl) hc et en]
  simp only [good, lead, full, Bool.false_eq_true, if_false]
  rfl

end Capture

end Taken

end Sys2Proof.Machine
end

section
/-!
The statement of the setting descriptors.
-/

namespace Sys2Proof.Machine

/-- Settles O45: each descriptor once taken, by what its fields name and by what the Leaf holds. -/
theorem settingDescriptors : Obligations.SettingDescriptors := by
  unfold Obligations.SettingDescriptors
  intro s t u d n ha ht hc et en
  refine ⟨fun k ho hk => ?_, fun m ho hb => execWindowSet_invalid ha ht hc et en ho hb, fun ho hb hsw => ?_, fun ho hb hsw hk => ?_, fun ho hb hsw hk => ?_,
    fun ho hs hb => ?_, fun ho hs hb hsw hk => ?_, fun ho hs hb hsw hk => ?_,
    fun ho hs he hl hlead hfull => execLoadEnv_step ha ht hc et en ho hs he hl hlead hfull, fun ho hi => execCaptureArm_invalid ha ht hc et en ho hi,
    fun ho hi hs hlead hfull => ?_, fun ho hi hs h2 hlead hfull => ?_⟩
  · have cfg : exec (.cfgWrite u d) s = _ := execCfgWrite_taken ha ht hc et en ho hk
    rw [cfg]
    refine ⟨fun h => ?_, fun h h0 hlt => ?_, fun h hle hsw => ?_, fun h hsw => ?_, fun h hl hx hb hsw => ?_, fun h hsw => ?_⟩
    · rw [if_pos (cfgBad_target h)]
    · rw [cfgBad_limits h, bne_iff_ne.mpr h0, decide_eq_true hlt]; rfl
    · have good : cfgBad d = false := by
        rw [cfgBad_limits h]
        rcases hle with hle | hle
        · rw [hle]; rfl
        · rw [decide_eq_false (Nat.not_lt.mpr hle), Bool.and_false]
      rw [good, hsw, cfgApplied_limits h]; rfl
    · rw [cfgBad_signatures h, hsw, cfgApplied_signatures h]; rfl
    · rw [cfgBad_trim h hl hx hb, hsw, cfgApplied_trim h hl hx hb]; rfl
    · rw [cfgBad_signatures h, hsw]; rfl
  · exact (execWindowSet_valid ha ht hc et en ho hb).trans (congrArg _ (if_pos hsw))
  · refine (execWindowSet_valid ha ht hc et en ho hb).trans (congrArg _ ((if_neg (Bool.eq_false_iff.mp hsw)).trans ?_))
    exact congrArg (State.complete · n stDone) (if_neg (fun h => hk (Option.isNone_iff_eq_none.mp h)))
  · refine (execWindowSet_valid ha ht hc et en ho hb).trans (congrArg _ ((if_neg (Bool.eq_false_iff.mp hsw)).trans ?_))
    exact congrArg (State.complete · n stDone) (if_pos (Option.isNone_iff_eq_none.mpr hk))
  · exact (execLoadEnv_envelope ha ht hc et en ho hs).trans (congrArg _ (if_pos hb))
  · have env : exec (.loadEnv u d) s = _ := execLoadEnv_envelope ha ht hc et en ho hs
    rw [env, hb, hsw, hk]; rfl
  · have env : exec (.loadEnv u d) s = _ := execLoadEnv_envelope ha ht hc et en ho hs
    rw [env, hb, hsw, if_neg (show ¬ t.activeSlot.isNone = true from fun h => hk (Option.isNone_iff_eq_none.mp h))]; rfl
  · have arm : exec (.captureArm u d) s = _ := execCaptureArm_arms ha ht hc et en ho hi (.inl hs) hlead (by rw [hs]; exact hfull)
    rw [arm, hs]; rfl
  · have arm : exec (.captureArm u d) s = _ := execCaptureArm_arms ha ht hc et en ho hi (.inr h2) hlead (by rw [hs]; exact hfull)
    rw [arm, hs]; rfl

end Sys2Proof.Machine
end

section
/-!
SUPPORT. What the end of a partition leaves alone (R157 to R159, R274, R313, R317, R336): the Sundial, the pins, and the collector but for
the reports that wait, its SEQ and the SAFE record owed.
-/

namespace Sys2Proof.Machine

/-- The Sundial, the pins, and what the collector holds beside the reports that wait, its SEQ and the SAFE record owed. -/
def State.safeView (s : State) : Sun × Pins × Collector := (s.sun, s.pins, { s.fc with inbox := [], seq := 0, safeOwed := false })

variable {s t : State}

theorem foldl_safeView {α : Type} {f : State → α → State} (l : List α) (h : ∀ s a, (f s a).safeView = s.safeView) : (l.foldl f s).safeView = s.safeView := by
  induction l generalizing s with
  | nil => rfl
  | cons a l ih => exact ih.trans (h s a)

theorem ite_safeView {c : Prop} [Decidable c] {a b : State} (h : a.safeView = t.safeView) (g : b.safeView = t.safeView) :
    (if c then a else b).safeView = t.safeView := by split <;> assumption

theorem State.modEng_safeView (f : Engine → Engine) : (s.modEng f).safeView = s.safeView := rfl
theorem State.modTr_safeView (f : Trellis → Trellis) : (s.modTr f).safeView = s.safeView := rfl
theorem State.modBand_safeView (f : Band → Band) : (s.modBand f).safeView = s.safeView := rfl
theorem State.raiseNow_safeView (code : BitVec 16) (loc : BitVec 24) (part : Option PTag) (det : BitVec 64) :
    (s.raiseNow code loc part det).safeView = s.safeView := rfl
theorem State.reply_safeView (stamp : HT80) (cls order : Nat) (g : List (BitVec 256)) (num : Option Nat) :
    (s.reply stamp cls order g num).safeView = s.safeView := rfl
theorem State.modPart_safeView (p : PTag) (f : Part → Part) : (s.modPart p f).safeView = s.safeView := rfl

theorem State.modCtx_safeView (k : Bool) (f : Ctx → Ctx) : (s.modCtx k f).safeView = s.safeView := by cases k <;> rfl

-- What the block puts out, and the requests of its engine.

theorem State.traced_safeView (stamp : HT80) (src : Nat) (p : PortNo) (d : List Byte) : (s.traced stamp src p d).safeView = s.safeView := ite_safeView rfl rfl

theorem State.tracedMsg_safeView (stamp : HT80) (src : Nat) (p : PortNo) (n : BitVec 5) (m : Msg) : (s.tracedMsg stamp src p n m).safeView = s.safeView :=
  foldl_safeView _ fun _ _ => State.traced_safeView ..

theorem State.traceOut_safeView (stamp : HT80) (o : Out) : (s.traceOut stamp o).safeView = s.safeView := by
  unfold State.traceOut
  split
  any_goals exact State.traced_safeView ..
  any_goals exact State.tracedMsg_safeView ..
  rfl

theorem State.emit_safeView (o : Out) : (s.emit o).safeView = s.safeView := State.traceOut_safeView ..

theorem State.hmIssue_safeView (r : HmReq) : (s.hmIssue r).safeView = s.safeView := by
  unfold State.hmIssue
  refine ite_safeView rfl ?_
  split
  · exact ite_safeView (State.emit_safeView _) rfl
  · rfl

theorem State.writeGroup_safeView (n : BitVec 3) (g : List (BitVec 256)) (num : Option Nat) : (s.writeGroup n g num).safeView = s.safeView :=
  foldl_safeView _ fun _ _ => State.hmIssue_safeView _

theorem State.readDoorbell_safeView (n : Nat) : (s.readDoorbell n).safeView = s.safeView := ite_safeView rfl (State.hmIssue_safeView _)

theorem State.loseGroup_safeView (n : BitVec 3) (g : List (BitVec 256)) (num : Option Nat) : (s.loseGroup n g num).safeView = s.safeView :=
  ite_safeView rfl (ite_safeView rfl rfl)

theorem State.putGroup_safeView (n : BitVec 3) (g : List (BitVec 256)) (num : Option Nat) : (s.putGroup n g num).safeView = s.safeView := by
  unfold State.putGroup
  refine ite_safeView rfl (ite_safeView rfl (ite_safeView (State.writeGroup_safeView ..) (ite_safeView (ite_safeView rfl ?_) ?_)))
  · exact State.readDoorbell_safeView _
  · exact State.loseGroup_safeView ..

-- Completions.

theorem State.flushEnds_safeView : s.flushEnds.safeView = s.safeView := ite_safeView rfl (foldl_safeView _ fun _ _ => rfl)

theorem State.complete_safeView (num : Nat) (status : Byte) (cause : BitVec 16) (det : BitVec 80) (stamp : Option HT80) (p : Option PTag) (entry : Bool) :
    (s.complete num status cause det stamp p entry).safeView = s.safeView := by
  unfold State.complete
  split
  · rfl
  · exact State.flushEnds_safeView

theorem State.discardEntry_safeView (e : Entry) (reason : Nat) (cause : BitVec 16) : (s.discardEntry e reason cause).safeView = s.safeView := by
  unfold State.discardEntry
  split
  · exact State.complete_safeView ..
  · rfl

theorem State.discardAll_safeView (p : PTag) (reason : Nat) (cause : BitVec 16) : (s.discardAll p reason cause).safeView = s.safeView := by
  unfold State.discardAll
  refine (foldl_safeView _ fun _ _ => State.complete_safeView ..).trans ((State.modTr_safeView _).trans ?_)
  exact foldl_safeView _ fun _ _ => State.discardEntry_safeView ..

-- Messages to other nodes.

theorem State.send_safeView (p : PortNo) (cls : Nat) (m : Msg) : (s.send p cls m).safeView = s.safeView := ite_safeView rfl rfl

theorem State.mirror_safeView (m : MirrorMsg) : (s.mirror m).safeView = s.safeView := by
  unfold State.mirror
  split
  · exact ite_safeView (State.send_safeView ..) rfl
  · rfl

theorem State.mirrorPart_safeView (p : PTag) : (s.mirrorPart p).safeView = s.safeView := by
  unfold State.mirrorPart
  split
  · exact foldl_safeView _ fun _ _ => State.mirror_safeView _
  · rfl

theorem State.tryCloseAck_safeView (p : PTag) : (s.tryCloseAck p).safeView = s.safeView := by
  unfold State.tryCloseAck
  split
  · rfl
  · refine ite_safeView ?_ rfl
    split
    · exact State.send_safeView ..
    · rfl

-- The dump of a slot, which reads the units of the Trellis.

theorem State.modUnit_safeView (level : Level) (a : CellAddr) (f : TUnit → TUnit) : (s.modUnit level a f).safeView = s.safeView := rfl

theorem State.sendDown_safeView (l : List Nat) (k : Packet) : (s.sendDown l k).safeView = s.safeView :=
  (State.modTr_safeView _).trans (State.modUnit_safeView ..)

theorem State.access_safeView (write : Bool) (level : Level) (a : CellAddr) (ix : BitVec 7) (v : BitVec 32) (scope : Option Level) (d : Option Nat) :
    (s.access write level a ix v scope d).safeView = s.safeView := by
  unfold State.access
  refine ite_safeView ?_ ((State.modTr_safeView _).trans (State.sendDown_safeView ..))
  split
  · exact State.complete_safeView ..
  · rfl

theorem State.pumpDump_safeView (n : Nat) : (s.pumpDump n).safeView = s.safeView := by
  induction n generalizing s with
  | zero => rfl
  | succ n ih =>
    unfold State.pumpDump
    split
    · rfl
    · split
      · rfl
      · exact ite_safeView rfl (ih.trans (State.writeGroup_safeView ..))

theorem State.startDump_safeView (j : DumpJob) : (s.startDump j).safeView = s.safeView := by
  unfold State.startDump
  refine (State.pumpDump_safeView _).trans (ite_safeView ((foldl_safeView _ fun _ _ => State.access_safeView ..).trans ?_) ?_) <;>
  · split
    · exact State.modCtx_safeView ..
    · rfl

theorem State.autoDump_safeView (k : Bool) : (s.autoDump k).safeView = s.safeView :=
  ite_safeView rfl (ite_safeView (State.modCtx_safeView ..) (State.startDump_safeView _))

-- The end of a partition.

theorem State.stopReplay_safeView (p : PTag) : (s.stopReplay p).safeView = s.safeView := ite_safeView rfl rfl

theorem State.endSlot_safeView (k : Bool) (stamp : HT80) (fault : BitVec 16) : (s.endSlot k stamp fault).safeView = s.safeView := by
  unfold State.endSlot
  have waking (x : State) (c : Prop) [Decidable c] (f : Trellis → Trellis) : (if c then x.modTr f else x).safeView = x.safeView := ite_safeView rfl rfl
  have overrun (x : State) (c : Prop) [Decidable c] (f : Band → Band) : (if c then x.modBand f else x).safeView = x.safeView := ite_safeView rfl rfl
  have idle (x : State) (c : Prop) [Decidable c] : (if c then x.idleDescent else x).safeView = x.safeView := ite_safeView rfl rfl
  exact (idle ..).trans ((overrun ..).trans ((State.stopReplay_safeView _).trans ((waking ..).trans (State.modCtx_safeView ..))))

theorem State.endPart_safeView (p : PTag) (stamp : HT80) (fault : BitVec 16) : (s.endPart p stamp fault).safeView = s.safeView := by
  unfold State.endPart
  split
  · rfl
  refine ite_safeView rfl ((State.tryCloseAck_safeView _).trans (State.flushEnds_safeView.trans ((State.mirrorPart_safeView _).trans ?_)))
  have unstaged (x : State) (c : Prop) [Decidable c] : (if c then x.unstage p else x).safeView = x.safeView := ite_safeView rfl rfl
  cases s.slotOf p with
  | none =>
    refine (State.modEng_safeView _).trans ((foldl_safeView _ fun _ _ => State.complete_safeView ..).trans
      ((foldl_safeView _ fun _ _ => State.complete_safeView ..).trans ((State.discardAll_safeView ..).trans ?_)))
    exact (State.modPart_safeView ..).trans (unstaged ..)
  | some k =>
    have dumped (x : State) (c : Prop) [Decidable c] : (if c then x else x.autoDump k).safeView = x.safeView :=
      ite_safeView rfl (State.autoDump_safeView k)
    refine (dumped ..).trans ((State.modEng_safeView _).trans ((foldl_safeView _ fun _ _ => State.complete_safeView ..).trans
      ((foldl_safeView _ fun _ _ => State.complete_safeView ..).trans ((State.discardAll_safeView ..).trans ?_))))
    exact (State.endSlot_safeView ..).trans ((State.modPart_safeView ..).trans (unstaged ..))

end Sys2Proof.Machine
end

section
/-!
SUPPORT. The safe state and the collector (R325, R327, R333, R335, R336): what the entry into the safe state changes, and what a report
does to FC_FIRST, the history and the safe state.
-/

namespace Sys2Proof.Machine

variable {s t : State}

/-- The collector's record, by the key of the state. -/
theorem core_of_key (h : t.key = s.key) : t.fc.core = s.fc.core := by
  obtain ⟨-, -, -, hfc, -⟩ := key_parts h
  exact hfc

theorem safe_of_key (h : t.key = s.key) : t.fc.safe = s.fc.safe := congrArg (fun c => c.2.2.2.2.2.2.2) (core_of_key h)

theorem State.trySafe_safeView : s.trySafe.safeView = s.safeView := ite_safeView (State.putGroup_safeView ..) rfl

/-- R335: what the entry changes of the Sundial, the pins and the collector. -/
theorem enterSafe_safeView {code : BitVec 16} (h : s.fc.safe = false) : (s.enterSafe code).safeView =
    ({ s.sun with st := .untrusted }, { s.pins with flHalt := true },
      { s.fc with inbox := [], seq := 0, safeOwed := false, safe := true, safeAt := s.tick, safeFault := code }) := by
  unfold State.enterSafe
  rw [if_neg (Bool.eq_false_iff.mp h)]
  refine State.trySafe_safeView.trans ((foldl_safeView _ fun _ _ => State.endPart_safeView ..).trans ?_)
  exact ite_safeView (t := State.silence _) rfl (foldl_safeView _ fun _ _ => State.emit_safeView _)

theorem enterSafe_safe (s : State) (code : BitVec 16) : (s.enterSafe code).fc.safe = true := by
  cases h : s.fc.safe with
  | true =>
    have stays : s.enterSafe code = s := if_pos h
    rw [stays, h]
  | false => exact congrArg (fun v => v.2.2.safe) (enterSafe_safeView (code := code) h)

/-- R335, R339: the fields of a node that has just entered the safe state. -/
theorem enterSafe_fields {code : BitVec 16} (h : s.fc.safe = false) (ht : s.enterSafe code = t) : t.fc.safe = true ∧ t.fc.safeAt = s.tick ∧
    t.fc.safeFault = code ∧ t.pins.flHalt = true ∧ t.sun.st = .untrusted ∧ t.sun.now = s.sun.now ∧ t.sun.counting = s.sun.counting ∧
    t.pins.mcWin = s.pins.mcWin ∧ t.pins.loadTarget = s.pins.loadTarget ∧ t.fc.first = s.fc.first ∧ t.fc.hist = s.fc.hist := by
  subst ht
  have view := enterSafe_safeView (code := code) h
  have fc {α : Type} (f : Collector → α) := congrArg (fun v => f v.2.2) view
  have pins {α : Type} (f : Pins → α) := congrArg (fun v => f v.2.1) view
  have sun {α : Type} (f : Sun → α) := congrArg (fun v => f v.1) view
  exact ⟨fc (·.safe), fc (·.safeAt), fc (·.safeFault), pins (·.flHalt), sun (·.st), sun (·.now), sun (·.counting), pins (·.mcWin),
    pins (·.loadTarget), fc (·.first), fc (·.hist)⟩

/-- R333: a self-fault of the collector leaves its record alone. -/
theorem selfFault_fields (s : State) : s.selfFault.fc.safe = true ∧ s.selfFault.fc.self = true ∧ s.selfFault.fc.hist = s.fc.hist ∧
    s.selfFault.fc.first = s.fc.first ∧ s.selfFault.fc.mask = s.fc.mask := by
  have key (f : Odo → Odo) (code : BitVec 16) : (State.chargeFault (s.odoCount f) code 0 0).key = s.key :=
    (State.chargeFault_key ..).trans (State.odoCount_key ..)
  have enters (t : State) (code : BitVec 16) (hk : t.key = s.key) : (State.enterSafe (t.modFc fun f => { f with self := true }) code).fc.self = true ∧
      (State.enterSafe (t.modFc fun f => { f with self := true }) code).fc.hist = s.fc.hist ∧
      (State.enterSafe (t.modFc fun f => { f with self := true }) code).fc.first = s.fc.first ∧
      (State.enterSafe (t.modFc fun f => { f with self := true }) code).fc.mask = s.fc.mask := by
    have core := core_of_key hk
    simp only [Collector.core, Prod.mk.injEq] at core
    obtain ⟨hfirst, -, -, hmask, -, -, hhist, -⟩ := core
    cases h : (t.modFc fun f => { f with self := true }).fc.safe with
    | true =>
      have stays : State.enterSafe (t.modFc fun f => { f with self := true }) code = t.modFc fun f => { f with self := true } := if_pos h
      rw [stays]
      exact ⟨rfl, hhist, hfirst, hmask⟩
    | false =>
      have view := enterSafe_safeView (code := code) h
      have fc {α : Type} (f : Collector → α) := congrArg (fun v => f v.2.2) view
      exact ⟨fc (·.self), (fc (·.hist)).trans hhist, (fc (·.first)).trans hfirst, (fc (·.mask)).trans hmask⟩
  exact ⟨enterSafe_safe .., enters _ _ (key ..)⟩

-- A report (R325).

theorem traced_collects (s : State) (stamp : HT80) (src : Nat) (p : PortNo) (d : List Byte) :
    (s.traced stamp src p d).fc = s.fc ∧ (s.traced stamp src p d).tick = s.tick := by
  unfold State.traced
  split <;> exact ⟨rfl, rfl⟩

theorem classify_of_not_ce {f : Collector} {r : Report} (h : codeClass r.code ≠ 1) : f.classify r = r := by
  have ce : (codeClass r.code == 1) = false := beq_eq_false_iff_ne.mpr h
  simp only [Collector.classify, ce, Bool.false_and, Bool.false_eq_true, if_false]

/-- R325 step 1: promotion makes no FT. -/
theorem classify_not_ft {f : Collector} {r : Report} (h : codeClass r.code ≠ 3) : codeClass (f.classify r).code ≠ 3 := by
  unfold Collector.classify
  split
  · have uc : codeClass ((r.code &&& 0x3FFF) ||| 0x8000) = 2 := by
      refine BitVec.eq_of_getLsbD_eq fun i hi => ?_
      obtain rfl | rfl : i = 0 ∨ i = 1 := by omega
      all_goals simp [codeClass]
    rw [uc]
    decide
  · exact h

/-- R325 step 6: what a recorded fault does at last, by its class. -/
theorem faultActs_safe (x : State) (r : Report) (promoted : Bool) (h : x.fc.safe = s.fc.safe) :
    (if codeClass r.code == 3 then x.enterSafe r.code
      else if codeClass r.code == 2 then (x.touched r promoted).foldl (fun s t => s.touch r t) x else x).fc.safe =
    if codeClass r.code = 3 then true else s.fc.safe := by
  by_cases ft : codeClass r.code = 3
  · rw [if_pos (beq_iff_eq.mpr ft), if_pos ft, enterSafe_safe]
  · rw [if_neg (mt beq_iff_eq.mp ft), if_neg ft, ← h]
    exact safe_of_key (ite_key (foldl_key _ _ _ fun _ _ => State.touch_key ..) rfl)

/-- R325 steps 3 to 6: only an FT takes the node to the safe state. -/
theorem recordFault_safe (s : State) (r : Report) (promoted : Bool) :
    (s.recordFault r promoted).fc.safe = if codeClass r.code = 3 then true else s.fc.safe := by
  have counted (x : State) (c : Prop) [Decidable c] (v : Collector → CPair 32) :
      (if c then x.modFc fun f => { f with ceCnt := v f } else x).fc.safe = x.fc.safe := by split <;> rfl
  have stopped (x : State) (c : Prop) [Decidable c] (f : Trace → Trace) : (if c then x.modBv f else x).fc.safe = x.fc.safe := by split <;> rfl
  unfold State.recordFault
  refine faultActs_safe _ _ _ ?_
  refine (safe_of_key (State.chargeFault_key ..)).trans ((safe_of_key (State.modFc_key _ _ fun _ => rfl)).trans ?_)
  refine (safe_of_key (ite_key (State.modBand_key ..) rfl)).trans ((safe_of_key (State.faultDetail_key ..)).trans ?_)
  refine (safe_of_key (State.event_key ..)).trans ((Collector.store_safe ..).trans ((safe_of_key (State.odoCount_key ..)).trans ?_))
  exact (counted ..).trans ((stopped ..).trans (Collector.latch_safe ..))

/-- R325 step 2: a report that is coalesced is only counted. -/
theorem collect_coalesced {r : Report} (h : s.fc.coalesces (s.fc.classify r) s.tick = true) : (s.collect r).key = (s.modFc fun f => { f with
    ovf := cpair (if (f.ovf.v.extractLsb' 16 16 : BitVec 16) = 0xFFFF then f.ovf.v else f.ovf.v + 0x10000) }).key := by
  have traced (stamp : HT80) (d : List Byte) (f g : Collector → Collector) (hfg : ∀ c, (f c).core = (g c).core) :
      ((s.traced stamp 3 0 d).modFc f).key = (s.modFc g).key := by
    unfold State.traced
    split <;> simp only [State.key, State.modFc, State.modBv, hfg]
  unfold State.collect
  refine (State.trySafe_key _).trans ((State.flushEnds_key _).trans ((congrArg State.key (if_pos ?_)).trans ?_))
  · rw [(traced_collects ..).1, (traced_collects ..).2, h]
  · exact (ite_key (State.modBand_key ..) rfl).trans (traced _ _ _ _ fun _ => rfl)

theorem collect_safe {r : Report} (h : s.fc.coalesces (s.fc.classify r) s.tick = false) :
    (s.collect r).fc.safe = if codeClass (s.fc.classify r).code = 3 then true else s.fc.safe := by
  unfold State.collect
  refine (safe_of_key (State.trySafe_key _)).trans ((safe_of_key (State.flushEnds_key _)).trans ?_)
  refine (congrArg (fun x : State => x.fc.safe) (if_neg ?_)).trans ?_
  · rw [(traced_collects ..).1, (traced_collects ..).2, h]
    decide
  · rw [recordFault_safe, (traced_collects ..).1]

/-- R325, R327: no report but an FT moves the safe state. -/
theorem collect_keeps_safe {r : Report} (h : codeClass r.code ≠ 3) : (s.collect r).fc.safe = s.fc.safe := by
  cases hc : s.fc.coalesces (s.fc.classify r) s.tick with
  | true => exact congrArg (fun c => c.2.2.2.2.2.2.2) (core_of_key (s := s.modFc _) (collect_coalesced hc))
  | false => rw [collect_safe hc, if_neg (classify_not_ft h)]

end Sys2Proof.Machine
end

section
/-!
SUPPORT. The events of the collector beside the reports (R195, R324, R336, R339).
-/

namespace Sys2Proof.Machine

variable {s : State}

theorem execControlCoreWatchdog_runs {core : Bool} (ha : s.alive = true) (hr : s.coreRuns core = true) : execControlCoreWatchdog core s =
    .next (s.raiseNow (ft 0x13 0x01) 0 none (detail [(24, 1, if core then 1 else 0)])) := by
  simp only [execControlCoreWatchdog, whenAlive_alive ha, hr, if_true]
  cases core <;> rfl

theorem execControlCoreWatchdog_stopped {core : Bool} (ha : s.alive = true) (hr : s.coreRuns core = false) : execControlCoreWatchdog core s = .next s := by
  simp only [execControlCoreWatchdog, whenAlive_alive ha, hr, Bool.false_eq_true, if_false]

theorem execIslandWireFault_held {i : Byte} (ha : s.alive = true) (hi : i.toNat < 3 + s.ports.length) : execIslandWireFault i s =
    .next (s.raiseNow (uc 0x15 0x02) 0 (soleTag s.standing) (detail [(24, 1, 1), (25, 1, i.toNat)])) := by
  rw [execIslandWireFault, if_pos hi, whenAlive_alive ha]

theorem execIslandWireFault_absent {i : Byte} (hi : 3 + s.ports.length ≤ i.toNat) : execIslandWireFault i s = .fault .absentUnit :=
  if_neg (Nat.not_lt.mpr hi)

/-- R336: 100 µs after the entry the engine is quiet. -/
theorem execSafeDrainEnd_due (ha : s.alive = true) (hs : s.fc.safe = true) (hq : s.eng.quiet = false) (hd : s.isDue (s.fc.safeAt + 100000) = true) :
    execSafeDrainEnd s = .next s.hush := by
  simp only [execSafeDrainEnd, whenAlive_alive ha, hs, hq, hd, Bool.not_false, Bool.true_or, Bool.and_self, if_true]

theorem execSafeDrainEnd_idle (ha : s.alive = true) (h : s.fc.safe = false ∨ s.eng.quiet = true) : execSafeDrainEnd s = .next s := by
  rw [execSafeDrainEnd, whenAlive_alive ha, if_neg]
  rcases h with h | h <;> simp [h]

theorem execFaultReport_waiting (ha : s.alive = true) : execFaultReport .waiting s = .next (
    match s.fc.inbox with
    | [] => s
    | r :: rest => (s.modFc fun f => { f with inbox := rest }).collect r) := whenAlive_alive ha

end Sys2Proof.Machine
end

section
/-!
The statement of the fault commands.
-/

namespace Sys2Proof.Machine

/-- Settles O57: a report by whether it is coalesced and by its class, and each event of the collector by its own condition. -/
theorem faultCommands : Obligations.FaultCommands := by
  unfold Obligations.FaultCommands
  intro s r ha
  have waiting : exec (.faultReport .waiting) s = _ := execFaultReport_waiting ha
  have unit : exec (.faultReport (.unit r)) s = .next (s.collect r) := show execFaultReport (.unit r) s = _ from whenAlive_alive ha
  have sundial : exec .sundialCheck s = _ := show execSundialCheck s = _ from whenAlive_alive ha
  refine ⟨fun h => ?_, fun rest h => ?_, unit, fun h => ?_, fun h3 hc => ?_, collect_keeps_safe, fun code h => ?_, ?_, sundial,
    fun core => execControlCoreWatchdog_runs ha, fun core => execControlCoreWatchdog_stopped ha, fun i => execIslandWireFault_held ha,
    fun i => execIslandWireFault_absent, execSafeDrainEnd_due ha, execSafeDrainEnd_idle ha⟩
  · rw [waiting, h]
  · rw [waiting, h]
  · have core := core_of_key (collect_coalesced h)
    simp only [Collector.core, Prod.mk.injEq] at core
    obtain ⟨hfirst, -, hovf, -, -, -, hhist, hsafe⟩ := core
    exact ⟨hhist, hfirst, hsafe, hovf⟩
  · have same : s.fc.classify r = r := classify_of_not_ce (by rw [h3]; decide)
    rw [collect_safe hc, same, if_pos h3]
  · exact ⟨_, rfl, enterSafe_fields h rfl⟩
  · exact ⟨s.selfFault, whenAlive_alive ha, selfFault_fields s⟩

end Sys2Proof.Machine
end

section
/-!
SUPPORT. The entries of the tick table that act on their due tick (R201, R203, R223, R224, R227, R260, R412).
-/

namespace Sys2Proof.Machine

variable {s : State} {e : Entry} {k : Bool}

section Due
variable (hb : s.bandRuns = true)
include hb

/-- R223: the load target of a LOAD_ENV step. -/
theorem execLoadStep_due (he : s.dueEntry .loadStep e.seq = some e) : execLoadStep e.seq s = .next (
    ((s.freeEntry e.seq).modBand fun b => { b with stepTarget := e.arg.setWidth 4, ramps := b.ramps.filter fun r => r.seq != e.seq }).entryDone e) := by
  obtain ⟨hl, ha⟩ := bandRuns_up hb
  rw [execLoadStep, onLeaf_alive hl ha, he]

/-- R201, R260: a timed SIGNAL reaches the object of the active context, unless a release of this tick comes first (R263). -/
theorem execSignalEntry_due (he : s.dueEntry .signal e.seq = some e) (hk : s.slotOf e.ptag = some k) (hact : (s.ctx k).st = .active)
    (hrel : ((s.ctx k).rels.any fun r => s.isDue (dueTick r.t)) = false) :
    execSignalEntry e.seq s = .next (((s.objOp k (e.relRound.toNat % 4096) e.relBid e.id 3).freeEntry e.seq).entryDone e) := by
  obtain ⟨hl, ha⟩ := bandRuns_up hb
  have found := filter_active hk hact
  have released : ((s.slotOf e.ptag).elim false fun k => (s.ctx k).rels.any fun r => s.isDue (dueTick r.t)) = false := by rw [hk]; exact hrel
  simp only [execSignalEntry, onLeaf_alive hl ha, he, released, found]
  rfl

/-- R201: a timed SIGNAL of a partition that has no slot any more reaches nothing. -/
theorem execSignalEntry_noSlot (he : s.dueEntry .signal e.seq = some e) (hk : s.slotOf e.ptag = none) :
    execSignalEntry e.seq s = .next ((s.freeEntry e.seq).entryDone e) := by
  obtain ⟨hl, ha⟩ := bandRuns_up hb
  simp only [execSignalEntry, onLeaf_alive hl ha, he, hk]
  rfl

/-- R412: the stop window of an input opens. -/
theorem execCaptureOpen_due (he : s.dueEntry .capOpen e.seq = some e) :
    execCaptureOpen e.seq s = .next (((s.freeEntry e.seq).stopWindow e.arg.toNat true).entryDone e) := by
  obtain ⟨hl, ha⟩ := bandRuns_up hb
  rw [execCaptureOpen, onLeaf_alive hl ha, he]

/-- R412: the stop window of an input closes. -/
theorem execCaptureClose_due (he : s.dueEntry .capClose e.seq = some e) :
    execCaptureClose e.seq s = .next (((s.freeEntry e.seq).stopWindow e.arg.toNat false).entryDone e) := by
  obtain ⟨hl, ha⟩ := bandRuns_up hb
  rw [execCaptureClose, onLeaf_alive hl ha, he]

/-- R227: a park that no descriptor of this node waits for, once no release of the slot is held. -/
theorem execPark_due {t : State} (he : s.dueEntry .park e.seq = some e) (hk : s.slotOf e.ptag = some k) (hact : (s.ctx k).st = .active)
    (hrel : (s.ctx k).rels = []) (hd : e.desc = none) (et : t = s.expireAll k) :
    execPark e.seq s = .next ((State.stopReplay ((((t.modCtx k fun c => { c with
      st := .parked, objs := c.objs.map fun o => (o.1, o.2.parkOne), disarmed := satNat 8 ((t.ctx k).objs.filter fun o => o.2.disarms).length
      tStart := none, tArr := none }).modTr fun r => { r with acts := r.acts.filter fun a => a.obj.isNone }).modPart e.ptag
        fun p => { p with swap := none }).freeEntry e.seq) e.ptag).discardAll e.ptag reParked 0).idleDescent := by
  subst et
  obtain ⟨hl, ha⟩ := bandRuns_up hb
  have found := filter_active hk hact
  simp only [execPark, onLeaf_alive hl ha, he, found, hrel, hd]
  rfl

/-- R224: an armed swap at a member, in its turn among the edge actions. -/
theorem execSwap_turn {p : Part} {a : SwapArm} (hp : s.part e.ptag = some p) (hs : p.swap = some a)
    (he : s.band.table.find? (fun x => x.action == .swap && x.ptag == e.ptag) = some e)
    (hturn : s.edgeTurn (dueTick e.t) (actionRank .swap) e.seq.toNat = true) :
    execSwap e.ptag s = .next (((((s.modPart e.ptag Part.exchange).swapLeaf e.ptag).mirrorPart e.ptag).freeEntry e.seq).swapDone e.ptag a) := by
  have armed : (s.part e.ptag).bind (·.swap) = some a := by rw [hp]; exact hs
  simp only [execSwap, whenAlive_alive (bandRuns_up hb).2, armed, he, hturn]
  rfl

end Due

end Sys2Proof.Machine
end

section
/-!
The statement of the entries of the tick table.
-/

namespace Sys2Proof.Machine

/-- Settles O33: each action of an entry in its turn. -/
theorem tableEntriesAct : Obligations.TableEntriesAct := by
  unfold Obligations.TableEntriesAct
  intro s e hb
  exact ⟨execLoadStep_due hb, fun _ => execSignalEntry_due hb, execSignalEntry_noSlot hb, execCaptureOpen_due hb, execCaptureClose_due hb,
    fun _ he hk hact hrel hd _ => execPark_due hb he hk hact hrel hd, fun _ _ => execSwap_turn hb⟩

end Sys2Proof.Machine
end

section
/-!
SUPPORT. LAUNCH_AT, SWAP_AT, PARK_AT, SIGNAL and BARRIER_ARM, once taken and checked (R204, R206, R224, R225, R231, R232, R269).
-/

namespace Sys2Proof.Machine

variable {s t : State} {u : Bool} {d : Desc} {n : Nat} {p : Part} {k : Bool}

/-- The LAUNCH of a partition-scope LAUNCH_AT (R206). -/
def State.launchOf (s : State) (p : Part) (d : Desc) : LaunchMsg :=
  { ptag := p.ptag, launchId := d.extractLsb' 224 32, t := d.extractLsb' 64 80, origin := s.elect.node, up := s.isLeaf, leafOrig := s.isLeaf
    chan := d.extractLsb' 256 4 }

/-- The SWAP of a SWAP_AT (R224). -/
def State.swapOf (s : State) (p : Part) (d : Desc) : SwapMsg :=
  { ptag := p.ptag, swapId := d.extractLsb' 224 32, t := d.extractLsb' 64 80, origin := s.elect.node, up := s.isLeaf, leafOrig := s.isLeaf }

/-- R204, R206: a partition-scope launch by its lead, the profile and the room in the table. -/
theorem launchFabric_held (hp : t.part (descTag d) = some p) : t.launchFabric d n =
    if t.leadShort (d.extractLsb' 64 80) (t.minLead p) || (t.isLeaf && t.envShort d (d.extractLsb' 64 80)) then t.complete n stLate
    else if t.isLeaf then (if t.tableFull then t.complete n stTableFull else t.takeLaunch 0 p (t.launchOf p d))
    else (t.sendOn p.act.children 5 (.launch (t.launchOf p d))).complete n stDone := by
  rw [State.launchFabric, hp]
  rfl

/-- R201, R204: a local launch at its own time. -/
theorem launchLocal_timed (hk : t.slotOf (descTag d) = some k) (h13 : d.getLsbD 13 = false) : t.launchLocal d n =
    if t.leadShort (d.extractLsb' 64 80) (t.lTr + 100) || t.envShort d (d.extractLsb' 64 80) then t.complete n stLate
    else if t.tableFull then t.complete n stTableFull
    else (t.insert {
      action := .launch, env := d.getLsbD 14, ptag := descTag d, id := d.extractLsb' 224 32, arg := d.extractLsb' 256 8, desc := some n
      t := d.extractLsb' 64 80 }).lendFall (d.getLsbD 14) := by
  have timed : ¬ descFlag d 5 = true := Bool.eq_false_iff.mp h13
  simp only [State.launchLocal, hk]
  rw [if_neg timed]
  rfl

/-- R225: a park from the slot that holds the partition. -/
theorem parkFrom_held (hk : t.slotOf (descTag d) = some k) (hp : t.part (descTag d) = some p) : t.parkFrom d n =
    if !((t.ctx k).arm (d.extractLsb' 224 8)).elim false (fun a => a.step) then t.complete n stInvalid
    else if !t.parkFree k then t.drew.complete n stRefused ((Config.anyWord t.freeIx).setWidth 16)
    else if t.tableFull then t.complete n stTableFull
    else t.takePark p { ptag := p.ptag, bid := d.extractLsb' 224 8, round := 0, origin := t.elect.node, up := true, leafOrig := true } := by
  simp only [State.parkFrom, hk, hp]
  rfl

/-- The object of a barrier that is armed at `now` (R265). -/
def Arm.object (a : Arm) (now : HT80) : Obj :=
  { type := .barrier, armed := true, chan := a.chan, chanEn := a.chanEn, timeout := a.timeout
    deadline := if a.timeout = 0 then 0 else htAdd now a.timeout.toNat }

section Taken
variable (ha : s.alive = true) (ht : s.takeable u d = true) (hc : s.commonCheck d = none) (et : t = s.pull u d) (en : n = s.eng.takenNum)
include ha ht hc et en

section Launch
variable (ho : descOp d = 0x01)
include ho

/-- R311: there are sixteen channels. -/
theorem execLaunchAt_badChannel (hch : 15 < (d.extractLsb' 256 8).toNat) : execLaunchAt u d s = .next (t.complete n stInvalid) := by
  have bad : (decide ((field d 32 8 : Byte).toNat > 15) || (descFlag d 5 && !descFlag d 4)) = true := by simpa [field] using .inl hch
  rw [execLaunchAt, onDesc_taken ha ht (by rw [ho]; rfl) hc et en, if_pos bad]
  rfl

variable (hch : (d.extractLsb' 256 8).toNat ≤ 15) (h13 : d.getLsbD 13 = false)
include hch h13

/-- R204: a launch at a time goes to the fabric, or on a Leaf with LOCAL set to its own table. -/
theorem execLaunchAt_timed : execLaunchAt u d s = .next (
    if !d.getLsbD 12 then t.launchFabric d n
    else if !t.isLeaf then t.complete n stInvalid (refusal 0x0D 0x11)
    else t.launchLocal d n) := by
  have good : ¬(decide ((field d 32 8 : Byte).toNat > 15) || (descFlag d 5 && !descFlag d 4)) = true := by
    have named : descFlag d 5 = false := h13
    simpa [field, named] using hch
  rw [execLaunchAt, onDesc_taken ha ht (by rw [ho]; rfl) hc et en, if_neg good]
  rfl

theorem execLaunchAt_fabric (h12 : d.getLsbD 12 = false) : execLaunchAt u d s = .next (t.launchFabric d n) := by
  rw [execLaunchAt_timed ha ht hc et en ho hch h13, h12]
  rfl

theorem execLaunchAt_local (h12 : d.getLsbD 12 = true) (hl : t.isLeaf = true) : execLaunchAt u d s = .next (t.launchLocal d n) := by
  rw [execLaunchAt_timed ha ht hc et en ho hch h13, h12, hl]
  rfl

end Launch

/-- R224: a SWAP_AT of a partition that the node holds. -/
theorem execSwapAt_taken (ho : descOp d = 0x05) (hp : t.part (descTag d) = some p) : execSwapAt u d s = .next (
    if p.rev4 then t.complete n stRefused (refusal 0x05 0x15)
    else if p.swap.isSome || t.tr.pending then t.complete n stBusy
    else if t.leadShort (d.extractLsb' 64 80) (t.minLead p) then t.complete n stLate
    else if t.isLeaf && t.tableFull then t.complete n stTableFull
    else t.takeSwap 0 p (t.swapOf p d)) := by
  rw [execSwapAt, onDesc_taken ha ht (by rw [ho]; rfl) hc et en]
  simp only [hp]
  rfl

/-- R225, R228: PARK_AT on a Leaf: a park, or with RESUME set the time at which the parked context runs again. -/
theorem execParkAt_leaf (ho : descOp d = 0x09) (hl : t.isLeaf = true) : execParkAt u d s = .next (
    if d.getLsbD 12 then (if t.leadShort (d.extractLsb' 64 80) 1000 then t.complete n stLate else t) else t.parkFrom d n) := by
  rw [execParkAt, onDesc_taken ha ht (by rw [ho]; rfl) hc et en, if_pos hl]
  rfl

section Signal
variable (ho : descOp d = 0x04)
include ho

/-- R269: a SIGNAL that leaves at once is a POST or a SUB from the active context. -/
theorem execSignal_now (h12 : d.getLsbD 12 = false) (hop : d.extractLsb' 272 8 = 1 ∨ d.extractLsb' 272 8 = 2) (hk : t.slotOf (descTag d) = some k)
    (hp : t.part (descTag d) = some p) (hact : (t.ctx k).st = .active) : execSignal u d s = .next (
      (t.leafSignal p none { ptag := descTag d, destRank := d.extractLsb' 224 32, obj := d.extractLsb' 256 12, op := d.extractLsb' 272 8
                             xlated := false, value := d.extractLsb' 288 32, srcRank := (t.ctx k).rank, destNode := noNode }).complete n stDone) := by
  have untimed : descFlag d 4 = false := h12
  have allowed : ((field d 34 8 : Byte) != 1 && (field d 34 8 : Byte) != 2) = false := by
    rcases hop with h | h
    · exact Bool.and_eq_false_iff.mpr (.inl (bne_eq_false_iff_eq.mpr h))
    · exact Bool.and_eq_false_iff.mpr (.inr (bne_eq_false_iff_eq.mpr h))
  have active : ((t.ctx k).st != .active) = false := bne_eq_false_iff_eq.mpr hact
  rw [execSignal, onDesc_taken ha ht (by rw [ho]; rfl) hc et en]
  simp only [untimed, allowed, hk, hp, active]
  rfl

/-- R201, R269: a timed SIGNAL waits in the tick table. -/
theorem execSignal_timed (h12 : d.getLsbD 12 = true) : execSignal u d s = .next (
    if t.leadShort (d.extractLsb' 64 80) 100 then t.complete n stLate
    else if t.tableFull then t.complete n stTableFull
    else t.insert { action := .signal, ptag := descTag d, id := d.extractLsb' 288 32, t := d.extractLsb' 64 80, relBid := d.extractLsb' 272 8
                    relRound := (d.extractLsb' 256 12).setWidth 32, desc := some n }) := by
  have timed : descFlag d 4 = true := h12
  rw [execSignal, onDesc_taken ha ht (by rw [ho]; rfl) hc et en]
  simp only [timed]
  rfl

end Signal

/-- R231, R232, R265: a barrier is armed with its object, unless it breaks a rule or is armed already. -/
theorem execBarrierArm_taken (ho : descOp d = 0x02) (hk : t.slotOf (descTag d) = some k) (hp : t.part (descTag d) = some p) :
    execBarrierArm u d s = .next (
      if t.armInvalid (t.ctx k) p (armOf d) then t.complete n stInvalid
      else if ((t.ctx k).arm (d.extractLsb' 64 8)).isSome then t.complete n stBusy
      else ((t.modCtx k fun c => { c with arms := c.arms ++ [armOf d] }).setObj k (d.extractLsb' 64 8).toNat ((armOf d).object t.stamp)).complete n stDone) := by
  rw [execBarrierArm, onDesc_taken ha ht (by rw [ho]; rfl) hc et en]
  simp only [hk, hp]
  rfl

end Taken

end Sys2Proof.Machine
end

section
/-!
The statement of the timed descriptors.
-/

namespace Sys2Proof.Machine

/-- Settles O44: each descriptor once taken, by its fields, its lead and what the node holds. -/
theorem timedDescriptors : Obligations.TimedDescriptors := by
  unfold Obligations.TimedDescriptors
  intro s t u d n p ha ht hc et en hp
  have swap (ho : descOp d = 0x05) : exec (.swapAt u d) s = _ := execSwapAt_taken ha ht hc et en ho hp
  have park (ho : descOp d = 0x09) (hl : t.isLeaf = true) : exec (.parkAt u d) s = _ := execParkAt_leaf ha ht hc et en ho hl
  refine ⟨fun ho hch => execLaunchAt_badChannel ha ht hc et en ho hch, fun ho hch h12 h13 => ?_, fun k ho hch h12 h13 hl hk hlead henv => ?_,
    fun ho hr => ?_, fun ho hr hbusy => ?_, fun ho hr hs hpend hlead hfull => ?_, fun k ho hl h12 hk => ?_, fun ho hl h12 => ?_,
    fun k ho h12 hop hk hact => execSignal_now ha ht hc et en ho h12 hop hk hp hact, fun ho h12 hlead hfull => ?_, fun k ho hk => ?_⟩
  · have launch : exec (.launchAt u d) s = _ := execLaunchAt_fabric ha ht hc et en ho hch h13 h12
    rw [launch, launchFabric_held hp]
    refine ⟨fun hlead => ?_, fun hlead hl => ?_, fun hlead hl henv hfull => ?_⟩
    · rw [hlead]; rfl
    · rw [hlead, hl, State.launchOf, hl]; rfl
    · rw [hlead, hl, henv, hfull, State.launchOf, hl]; rfl
  · have launch : exec (.launchAt u d) s = _ := execLaunchAt_local ha ht hc et en ho hch h13 h12 hl
    rw [launch, launchLocal_timed hk h13, hlead, henv]
    exact ⟨fun hfull => by rw [hfull]; rfl, fun hfull => by rw [hfull]; rfl⟩
  · rw [swap ho, if_pos hr]
  · rw [swap ho, hr, Bool.or_eq_true_iff.mpr hbusy]; rfl
  · have room : (t.isLeaf && t.tableFull) = false := by
      cases hl : t.isLeaf
      · rfl
      · exact hfull hl
    rw [swap ho, hr, hs, hpend, hlead, room]; rfl
  · rw [park ho hl, h12, parkFrom_held hk hp]
    exact ⟨fun hstep => by rw [hstep]; rfl, fun hstep hfree hfull => by rw [hstep, hfree, hfull]; rfl⟩
  · rw [park ho hl, if_pos h12]
  · have signal : exec (.signal u d) s = _ := execSignal_timed ha ht hc et en ho h12
    rw [signal, hlead, hfull]; rfl
  · have arm : exec (.barrierArm u d) s = _ := execBarrierArm_taken ha ht hc et en ho hk hp
    rw [arm]
    refine ⟨fun hbad => ?_, fun hgood harm => ?_, fun hgood harm => ?_⟩
    · rw [if_pos hbad]
    · rw [hgood, harm]; rfl
    · rw [hgood, harm]; rfl

end Sys2Proof.Machine
end

section
/-!
SUPPORT. The writes of the sync window and of the registers beside it (R230, R263, R267, R268, R278, R282, R295).
-/

namespace Sys2Proof.Machine

variable {s : State} {k : Bool} {o : BitVec 12} {w : Word}

/-- R267: with SEL 0 the window shows the active slot. -/
theorem winSlot_active (h : s.sync.sel = false) : s.winSlot = s.activeSlot := by rw [State.winSlot, h]; rfl

section Post
variable {op : Byte} {v : BitVec 32}

/-- R263, R267: a post to the active slot waits for the end of its tick. -/
theorem winPost_active (hs : s.sync.sel = false) (hk : s.activeSlot = some k) :
    s.winPost o op v = s.rpOk.post { slot := k, obj := o.toNat, op := op, operand := v, src := 1, rank := 0 } := by
  simp only [State.winPost, winSlot_active hs, hk, hs]
  rfl

/-- R267: a parked slot takes no posts. -/
theorem winPost_parked (hs : s.sync.sel = true) (hk : s.winSlot = some k) : s.winPost o op v = s.rpErr := by
  simp only [State.winPost, hk, hs]
  rfl

theorem winPost_none (h : s.winSlot = none) : s.winPost o op v = s.winNone := by rw [State.winPost, h]

end Post

/-- R263: a tick without posts changes nothing. -/
theorem applyPosts_nil (h : s.sync.posts = []) : s.applyPosts = s := by
  have same : (s.modSync fun y => { y with posts := [] }) = s := by rw [← h]; rfl
  rw [State.applyPosts, h]
  exact same

/-- R263: the only post of a tick reaches the object engine. -/
theorem applyPosts_single {e : PostEv} (h : s.sync.posts = [e]) :
    s.applyPosts = (s.modSync fun y => { y with posts := [] }).objOp e.slot e.obj e.op e.operand e.src e.rank := by
  rw [State.applyPosts, h]
  rfl

/-- R267: a CFG word that no object can take: TYPE 3, 5 or above, or a COUNTER with THRESH 0. -/
def cfgWordBad (w : Word) : Bool :=
  (w.extractLsb' 0 3).toNat = 3 || (w.extractLsb' 0 3).toNat ≥ 5 || ((w.extractLsb' 0 3).toNat = 1 && w.extractLsb' 16 16 = 0)

theorem cfgWordBad_barrier (h : w.extractLsb' 0 3 = 3) : cfgWordBad w = true := by rw [cfgWordBad, h]; rfl

theorem cfgWordBad_allowed (h : w.extractLsb' 0 3 = 0 ∨ w.extractLsb' 0 3 = 2 ∨ w.extractLsb' 0 3 = 4 ∨ (w.extractLsb' 0 3 = 1 ∧ w.extractLsb' 16 16 ≠ 0)) :
    cfgWordBad w = false := by
  rw [cfgWordBad]
  rcases h with h | h | h | ⟨h, hthresh⟩
  · rw [h]; rfl
  · rw [h]; rfl
  · rw [h]; rfl
  · rw [h, decide_eq_false hthresh]; rfl

/-- R267, R268: a CFG word is taken after the posts before it. -/
theorem winCfg_none (h : s.applyPosts.winSlot = none) : s.winCfg o w = s.applyPosts.winNone := by simp only [State.winCfg, h]

theorem winCfg_slot (hk : s.applyPosts.winSlot = some k) : s.winCfg o w =
    if s.applyPosts.barrierObj k o.toNat || cfgWordBad w then s.applyPosts.rpErr
    else ((if (s.applyPosts.ctx k).st = .active then s.applyPosts.dropTimerWake o.toNat else s.applyPosts).setObj k o.toNat (cfgObj w)).rpOk := by
  simp only [State.winCfg, hk, cfgWordBad, Bool.or_assoc]

/-- R278: CLR clears the counters and leaves SEL and AUTO_DUMP. -/
theorem writeSoWin_clr : s.writeSoWin (setBit (setBit (4 : Word) 0 s.sync.sel) 1 s.sync.autoDump) =
    (s.modSync fun y => { y with stale := 0, remote := 0, ops := 0, noctx := 0 }).rpOk := by
  have bits (a b : Bool) : (setBit (setBit (4 : Word) 0 a) 1 b).getLsbD 0 = a ∧ (setBit (setBit (4 : Word) 0 a) 1 b).getLsbD 1 = b ∧
      (setBit (setBit (4 : Word) 0 a) 1 b).getLsbD 2 = true := by decide +revert
  obtain ⟨hsel, hdump, hclr⟩ := bits s.sync.sel s.sync.autoDump
  simp only [State.writeSoWin, State.modSync, hsel, hdump, hclr, if_true]

/-- R282, R295: the layer digest of the active slot is folded into A_H; without one the write is counted. -/
theorem writeLayerHi_active (hk : s.activeSlot = some k) : s.writeLayerHi w =
    (s.modCtx k fun c => c.note s.stamp (.item secH (bytesOf 4 s.sync.layerLo.toNat ++ bytesOf 4 w.toNat))).rpOk := by rw [State.writeLayerHi, hk]

theorem writeLayerHi_none (h : s.activeSlot = none) :
    s.writeLayerHi w = (s.modSync fun y => { y with layerNoctx := satInc y.layerNoctx }).rpErr := by rw [State.writeLayerHi, h]

end Sys2Proof.Machine
end

section
/-!
The statement of the sync window.
-/

namespace Sys2Proof.Machine

/-- Settles O48: each write by the slot that the window addresses. -/
theorem syncWindow : Obligations.SyncWindow := by
  unfold Obligations.SyncWindow
  intro s o w hl
  refine ⟨fun hw => ?_, fun hw => show execBsClr s = _ from onLeafReg_writable hl hw⟩
  have post : exec (.syncWinPost o w) s = .next (s.winPost o 1 w) := show execSyncWinPost o w s = _ from onLeafReg_writable hl hw
  have op : exec (.syncWinOp o w) s = .next (s.winPost o (w.extractLsb' 0 8) ((w.extractLsb' 8 24).setWidth 32)) :=
    show execSyncWinOp o w s = _ from onLeafReg_writable hl hw
  have cfg : exec (.syncWinCfg o w) s = .next (s.winCfg o w) := show execSyncWinCfg o w s = _ from onLeafReg_writable hl hw
  have layer : exec (.dgLayerHiWrite w) s = .next (s.writeLayerHi w) := show execDgLayerHiWrite w s = _ from onLeafReg_writable hl hw
  have clr : exec .soClr s = _ := show execSoClr s = _ from onLeafReg_writable hl hw
  rw [post, op, cfg, layer, clr, writeSoWin_clr]
  refine ⟨fun k hs hk => ?_, applyPosts_nil, fun e => applyPosts_single, fun h => ?_, fun k hs hk => ?_, fun t et => ?_, fun k hk => ?_, fun hk => ?_, rfl⟩
  · rw [winPost_active hs hk, winPost_active hs hk]
    exact ⟨rfl, rfl⟩
  · rw [winPost_none h, winPost_none h]
    exact ⟨rfl, rfl⟩
  · rw [winPost_parked hs hk, winPost_parked hs hk]
    exact ⟨rfl, rfl⟩
  · subst et
    refine ⟨fun h => ?_, fun k hk hbar => ?_, fun k hk h3 => ?_, fun k hk hbar hw => ⟨fun hact => ?_, fun hact => ?_⟩⟩
    · rw [winCfg_none h]; rfl
    · rw [winCfg_slot hk, hbar]; rfl
    · rw [winCfg_slot hk, cfgWordBad_barrier h3, Bool.or_true]; rfl
    · rw [winCfg_slot hk, hbar, cfgWordBad_allowed hw, if_pos hact]; rfl
    · rw [winCfg_slot hk, hbar, cfgWordBad_allowed hw, if_neg hact]; rfl
  · rw [writeLayerHi_active hk]; rfl
  · rw [writeLayerHi_none hk]

end Sys2Proof.Machine
end

section
/-!
SUPPORT. What an operation does to an object, by the cells of R260's table, and what a word of CFG makes (R260, R261, R263, R265, R267).
-/

namespace Sys2Proof.Machine

variable {x : Obj} {op : Byte} {v : BitVec 32} {now : HT80}

/-- R260: the operations that an object of a type has; the rest are the dashes of the table and the codes outside it. -/
def takesOp (t : ObjType) (op : Byte) : Bool :=
  match t with
  | .none => false
  | .counter => 1 ≤ op.toNat && op.toNat ≤ 5
  | .flag => op.toNat = 1 || op.toNat = 4 || op.toNat = 5
  | .barrier => op.toNat = 1
  | .timer => op.toNat = 4 || op.toNat = 6

/-- R260: an operation that the type does not have is dropped as misuse. -/
theorem apply_misuse (h : takesOp x.type op = false) : x.apply op v now = { obj := x, misuse := true } := by
  unfold Obj.apply
  split
  -- the last branch is the dash of the table; the ones before it are operations that the type has
  case h_12 => rfl
  all_goals simp [takesOp, *] at h

/-- R260: no type has the operation 0 or one above ARM. -/
theorem takesOp_outside (t : ObjType) (h : op = 0 ∨ 6 < op.toNat) : takesOp t op = false := by
  have outside : op.toNat = 0 ∨ 6 < op.toNat := h.imp_left fun h0 => by rw [h0]; rfl
  cases t <;> simp only [takesOp, Bool.or_eq_false_iff, Bool.and_eq_false_iff, decide_eq_false_iff_not] <;> omega

theorem getLsbD_setBit_zero (a : BitVec 32) (b : Bool) : (setBit a 0 b).getLsbD 0 = b :=
  (getLsbD_setBit a 0 0 b (by decide)).trans (if_pos rfl)

theorem satisfied_flag (ht : x.type = .flag) : x.satisfied = x.value.getLsbD 0 := by rw [Obj.satisfied, ht]

/-- R261: whether a COUNTER or a FLAG is satisfied does not depend on a wait. -/
theorem satisfied_armed (d : HT80) : ({ x with armed := true, deadline := d } : Obj).satisfied = x.satisfied := rfl

/-- R261: a wait that is not satisfied stays. -/
theorem settle_unsatisfied (h : x.satisfied = false) : x.settle = { obj := x } := by simp [Obj.settle, h]

/-- R261: a satisfied wait on a FLAG ends; CONSUME clears SET, and WAKE_EN gives a WAKE. -/
theorem settle_flag (ht : x.type = .flag) (harm : x.armed = true) (hset : x.value.getLsbD 0 = true) : x.settle =
    { obj := { x with armed := false, deadline := 0, value := if x.consume then setBit x.value 0 false else x.value }, wake := x.wakeEn } := by
  have hsat : x.satisfied = true := (satisfied_flag ht).trans hset
  cases hc : x.consume <;> simp [Obj.settle, harm, hsat, hc, ht]

/-- R260: a FLAG that is set already counts a double. -/
theorem apply_flagPost_set (ht : x.type = .flag) (hset : x.value.getLsbD 0 = true) :
    x.apply 1 v now = { obj := { x with double := true, cnt16 := satInc x.cnt16 }, rise := !x.double } := by
  rw [Obj.apply, ht]
  exact if_pos hset

/-- R260: a FLAG that is clear is set. -/
theorem apply_flagPost_clear (ht : x.type = .flag) (hclr : x.value.getLsbD 0 = false) :
    x.apply 1 v now = ({ x with value := setBit x.value 0 } : Obj).settle := by
  rw [Obj.apply, ht]
  exact if_neg (by rw [hclr]; decide)

theorem apply_flagClear (ht : x.type = .flag) : x.apply 4 v now = { obj := { x with value := setBit x.value 0 false } } := by
  rw [Obj.apply, ht]; rfl

/-- R261: WAIT arms a COUNTER or a FLAG, and the wait may be satisfied at once. -/
theorem apply_wait (ht : x.type = .counter ∨ x.type = .flag) : x.apply 5 v now =
    if x.armed then { obj := x }
    else ({ x with armed := true, deadline := if x.timeout = 0 then 0 else htAdd now x.timeout.toNat } : Obj).settle := by
  rcases ht with ht | ht <;> rw [Obj.apply, ht] <;> rfl

/-- R265: a BARRIER on a channel takes no POST. -/
theorem apply_barrierPost_channel (ht : x.type = .barrier) (hch : x.chanEn = true) : x.apply 1 v now = { obj := x, misuse := true } := by
  rw [Obj.apply, ht]
  exact if_pos hch

/-- R265: a POST to a BARRIER of the host is an arrival. -/
theorem apply_barrierPost_host (ht : x.type = .barrier) (hch : x.chanEn = false) : x.apply 1 v now = x.hostPost v := by
  rw [Obj.apply, ht]
  exact if_neg (by rw [hch]; decide)

/-- R265: the first arrival for the current round. -/
theorem hostPost_current (hd : v.extractLsb' 0 2 = x.value.extractLsb' 0 2) (hcur : x.hostCur = false) :
    x.hostPost v = { obj := { x with hostCur := true }, arrived := true } := by
  simp [Obj.hostPost, hd, hcur]

/-- R265: an arrival two rounds ahead is dropped and counted. -/
theorem hostPost_ahead (hd : v.extractLsb' 0 2 = x.value.extractLsb' 0 2 + 2) :
    x.hostPost v = { obj := { x with cnt16 := satInc x.cnt16 } } := by
  have two : v.extractLsb' 0 2 - x.value.extractLsb' 0 2 = 2 := by rw [hd, BitVec.add_comm, BitVec.add_sub_cancel]
  rw [Obj.hostPost, two]
  rfl

section Counter
variable (ht : x.type = .counter)
include ht

theorem apply_counterPost : x.apply 1 v now = (x.addTo v).settle := by rw [Obj.apply, ht]; rfl

theorem apply_counterSub : x.apply 2 v now = (x.subFrom v).settle := by rw [Obj.apply, ht]; rfl

theorem apply_counterSet : x.apply 3 v now = ({ x with value := v } : Obj).settle := by rw [Obj.apply, ht]; rfl

theorem apply_counterClear : x.apply 4 v now = ({ x with value := 0 } : Obj).settle := by rw [Obj.apply, ht]; rfl

end Counter

/-- R260: CNT16 counts a sum that passes 2^32. -/
theorem addTo_cnt16 : (x.addTo v).cnt16 = if 2 ^ 32 ≤ x.value.toNat + v.toNat then satInc x.cnt16 else x.cnt16 := by
  simp only [Obj.addTo, Obj.count, decide_eq_true_eq, ge_iff_le]

/-- R260: CNT16 counts a difference below 0. -/
theorem subFrom_cnt16 : (x.subFrom v).cnt16 = if x.value.toNat < v.toNat then satInc x.cnt16 else x.cnt16 := by
  simp only [Obj.subFrom, Obj.count, decide_eq_true_eq]

section Timer
variable (ht : x.type = .timer)
include ht

theorem apply_timerArm : x.apply 6 v now = { obj := x.start now v, started := true, stopped := true } := by rw [Obj.apply, ht]; rfl

theorem apply_timerClear : x.apply 4 v now = { obj := { x with armed := false, deadline := 0 }, stopped := true } := by rw [Obj.apply, ht]; rfl

end Timer

section Cfg
variable {w : Word}

/-- R267: a CFG word of TYPE 1 keeps the fields of a COUNTER. -/
theorem cfgObj_counter (h : w.extractLsb' 0 3 = 1) : cfgObj w = { type := .counter, consume := w.getLsbD 3, remoteOk := w.getLsbD 4, wakeEn := w.getLsbD 5
                                                                  wchan := w.extractLsb' 6 4, auto := w.getLsbD 10, thresh := w.extractLsb' 16 16 } := by
  rw [cfgObj, h]; rfl

/-- R267: a CFG word of TYPE 2 keeps the fields of a FLAG. -/
theorem cfgObj_flag (h : w.extractLsb' 0 3 = 2) : cfgObj w = { type := .flag, consume := w.getLsbD 3, remoteOk := w.getLsbD 4, wakeEn := w.getLsbD 5
                                                               wchan := w.extractLsb' 6 4, auto := w.getLsbD 10 } := by
  rw [cfgObj, h]; rfl

/-- R267: a CFG word of TYPE 4 keeps the fields of a TIMER. -/
theorem cfgObj_timer (h : w.extractLsb' 0 3 = 4) : cfgObj w = { type := .timer, remoteOk := w.getLsbD 4, wakeEn := w.getLsbD 5
                                                                wchan := w.extractLsb' 6 4, rel := w.getLsbD 11 } := by
  rw [cfgObj, h]; rfl

end Cfg

end Sys2Proof.Machine
end

section
/-!
The statement of the operations on objects.
-/

namespace Sys2Proof.Machine

/-- Settles O47: each cell of the table by its type, the misuse by the operations that a type has, and the words of CFG. -/
theorem objectOperations : Obligations.ObjectOperations := by
  unfold Obligations.ObjectOperations
  refine ⟨fun x v now => ?_, fun w => ⟨cfgObj_counter, cfgObj_flag, cfgObj_timer⟩⟩
  have misuse {op : Byte} {t : ObjType} (ht : x.type = t) (h : takesOp t op = false) : x.apply op v now = { obj := x, misuse := true } :=
    apply_misuse (by rw [ht]; exact h)
  refine ⟨fun ht => ?counter, fun ht hset => ?flagSet, fun ht hclr harm => ?flagWait, fun ht => ?flag, fun ht harm => ?waitArmed,
    fun ht harm hsat => ?waitNew, fun ht => ?timer, fun ht hch => ?barrierChan, fun ht hch hd hcur => ?barrierNow,
    fun ht hch hd => ?barrierAhead, fun ht op => misuse ht rfl, fun op h => apply_misuse (takesOp_outside x.type h)⟩
  case counter =>
    refine ⟨apply_counterPost ht, apply_counterSub ht, apply_counterSet ht, apply_counterClear ht, ?_, rfl, rfl, addTo_cnt16, subFrom_cnt16⟩
    rw [misuse ht rfl]
  case flagSet =>
    rw [apply_flagPost_set ht hset]
    exact ⟨rfl, rfl, rfl⟩
  case flagWait =>
    have ends : x.apply 1 v now = _ := (apply_flagPost_clear ht hclr).trans (settle_flag ht harm (getLsbD_setBit_zero x.value true))
    rw [ends]
    refine ⟨rfl, rfl, rfl, ?_⟩
    show (if x.consume then setBit (setBit x.value 0) 0 false else setBit x.value 0).getLsbD 0 = !x.consume
    cases x.consume
    · exact getLsbD_setBit_zero x.value true
    · exact getLsbD_setBit_zero _ false
  case flag =>
    rw [misuse ht rfl, misuse ht rfl, apply_flagClear ht]
    exact ⟨rfl, rfl, getLsbD_setBit_zero x.value false⟩
  case waitArmed => rw [apply_wait ht, if_pos harm]
  case waitNew => rw [apply_wait ht, harm, settle_unsatisfied ((satisfied_armed _).trans hsat)]; rfl
  case timer =>
    rw [apply_timerArm ht, apply_timerClear ht, misuse ht rfl, misuse ht rfl]
    exact ⟨rfl, rfl, rfl, rfl⟩
  case barrierChan => exact apply_barrierPost_channel ht hch
  case barrierNow =>
    rw [apply_barrierPost_host ht hch, hostPost_current hd hcur]
    exact ⟨rfl, rfl⟩
  case barrierAhead =>
    rw [apply_barrierPost_host ht hch, hostPost_ahead hd]
    exact ⟨rfl, rfl⟩

end Sys2Proof.Machine
end

section
/-!
SUPPORT. What the taking of a descriptor leaves in the ring engine (R299, R305): the writes of CONS and the reads of entries that follow it
touch no copy, no number and no CONS.
-/

namespace Sys2Proof.Machine

/-- What taking is about: the copies held, the number that the next one gets, and CONS of each ring. -/
structure Takings where
  copies : List Taken
  nextNum : Nat
  cons : List (BitVec 32)

/-- What the ring engine has taken so far. -/
def State.takings (s : State) : Takings := { copies := s.eng.taken, nextNum := s.eng.takenNum, cons := s.eng.rings.map Ring.cons }

/-- The copy that the block holds of a descriptor taken now. -/
def State.copyTaken (s : State) (u : Bool) (d : Desc) : Taken :=
  { num := s.eng.takenNum, urgent := u, opcode := descOp d, node := descNode d, ptag := descTag d, hostTag := descHost d, takenAt := s.tick, body := d }

variable {s : State} {u : Bool} {d : Desc}

theorem State.ring_cons (n : Nat) : (s.ring n).cons = s.takings.cons.getD n 0 := by
  unfold State.ring State.takings
  rw [List.getD_eq_getElem?_getD, List.getD_eq_getElem?_getD, List.getElem?_map]
  cases s.eng.rings[n]? <;> rfl

/-- What an update of one ring does to the list of CONS. -/
theorem map_cons_modify {f : Ring → Ring} {g : BitVec 32 → BitVec 32} (l : List Ring) {n : Nat} (h : ∀ r, (f r).cons = g r.cons) :
    (l.modify n f).map Ring.cons = (l.map Ring.cons).modify n g := by
  apply List.ext_getElem?
  intro i
  simp only [List.getElem?_map, List.getElem?_modify]
  cases l[i]? with
  | none => rfl
  | some r =>
    by_cases e : n = i
    · simp only [Option.map_some, Option.map_eq_map, e, if_true, h]
    · simp only [Option.map_some, Option.map_eq_map, e, if_false]

/-- An update of a ring that keeps CONS. -/
theorem State.modRing_takings {f : Ring → Ring} (n : Nat) (h : ∀ r, (f r).cons = r.cons) : (s.modRing n f).takings = s.takings :=
  congrArg (Takings.mk s.eng.taken s.eng.takenNum) ((map_cons_modify s.eng.rings h).trans (List.modify_id n _))

theorem State.hmIssue_takings (r : HmReq) : (s.hmIssue r).takings = s.takings := by
  unfold State.hmIssue
  split
  · rfl
  · split
    · split <;> rfl
    · rfl

theorem State.flushCons_takings (n : Nat) : (s.flushCons n).takings = s.takings := by
  unfold State.flushCons
  dsimp only
  split
  · rfl
  · exact (State.hmIssue_takings _).trans (State.modRing_takings n fun _ => rfl)

theorem State.fetchMore_takings (n k : Nat) : (s.fetchMore n k).takings = s.takings := by
  induction k generalizing s with
  | zero => rfl
  | succ k ih =>
    unfold State.fetchMore
    dsimp only
    split
    · exact ih.trans ((State.hmIssue_takings _).trans (State.modRing_takings n fun _ => rfl))
    · rfl

/-- R299, R305: one more copy, the next number, and CONS of the descriptor's ring advanced by one. -/
theorem State.pull_takings : (s.pull u d).takings = {
    copies := s.eng.taken ++ [s.copyTaken u d], nextNum := s.eng.takenNum + 1, cons := s.takings.cons.modify (cmdRing u) (· + 1) } := by
  unfold State.pull
  dsimp only
  rw [State.fetchMore_takings, State.flushCons_takings]
  exact congrArg (Takings.mk _ _) (map_cons_modify _ fun _ => rfl)

theorem State.pull_cons (h : cmdRing u < s.eng.rings.length) : ((s.pull u d).ring (cmdRing u)).cons = (s.ring (cmdRing u)).cons + 1 := by
  have inside : cmdRing u < s.takings.cons.length := by rw [State.takings, List.length_map]; exact h
  rw [State.ring_cons, State.ring_cons, State.pull_takings, List.getD_eq_getElem?_getD, List.getElem?_modify_eq, List.getD_eq_getElem?_getD,
    List.getElem?_eq_getElem inside]
  rfl

/-- R308: an opcode that the profile does not have is the first check to fail. -/
theorem commonCheck_unsupported (h : opSupported s.isLeaf (descOp d).toNat = false) : s.commonCheck d = some (stUnsupported, 0, 0) := by
  rw [State.commonCheck, h]
  rfl

/-- R308: a descriptor of such an opcode is taken and completes at once. -/
theorem execUnsupportedOpcode_taken (ha : s.alive = true) (ht : s.takeable u d = true) (ho : opSupported s.isLeaf (descOp d).toNat = false) :
    execUnsupportedOpcode u d s = .next ((s.pull u d).complete s.eng.takenNum stUnsupported) :=
  onDesc_refused ha ht (by rw [ho]; rfl) (commonCheck_unsupported ho)

end Sys2Proof.Machine
end

section
/-!
The statement of the taking of a descriptor.
-/

namespace Sys2Proof.Machine

/-- Settles O43: nothing out of turn, what the engine holds once the descriptor is taken, and the outcome of a check that fails. -/
theorem descriptorTaken : Obligations.DescriptorTaken := by
  unfold Obligations.DescriptorTaken
  intro s u d ha
  refine ⟨fun ht => ⟨?launchWaits, ?fenceWaits⟩, congrArg Takings.copies State.pull_takings, congrArg Takings.nextNum State.pull_takings,
    State.pull_cons, State.pull_eq, execUnsupportedOpcode_taken ha, fun st c det ht hc => ⟨fun ho => ?launch, fun ho => ?barrier, fun ho => ?swap,
    fun ho => ?fence⟩⟩
  case launchWaits => show execLaunchAt u d s = _; exact onDesc_waits ha ht
  case fenceWaits => show execFence u d s = _; exact onDesc_waits ha ht
  case launch => show execLaunchAt u d s = _; exact onDesc_refused ha ht (by rw [ho]; rfl) hc
  case barrier => show execBarrierArm u d s = _; exact onDesc_refused ha ht (by rw [ho]; rfl) hc
  case swap => show execSwapAt u d s = _; exact onDesc_refused ha ht (by rw [ho]; rfl) hc
  case fence => show execFence u d s = _; exact onDesc_refused ha ht (by rw [ho]; rfl) hc

end Sys2Proof.Machine
end

section
/-!
SUPPORT. The collector's own operations (R325, R326, R333, R341): what FC_FIRST latches, what promotion makes of a CE, and which record
of a full history leaves.
-/

namespace Sys2Proof.Machine

variable {f : Collector} {r : Report} {seq : BitVec 16} {b : BitVec 256}

/-- R325 step 3: an FT, or a UC whose unit is not masked. -/
def Collector.unmasked (f : Collector) (r : Report) : Bool :=
  codeClass r.code == 3 || (codeClass r.code == 2 && !f.mask.v.getLsbD (codeUnit r.code).toNat)

theorem unmasked_iff : f.unmasked r = true ↔
    codeClass r.code = 3 ∨ (codeClass r.code = 2 ∧ f.mask.v.getLsbD (codeUnit r.code).toNat = false) := by
  simp only [Collector.unmasked, Bool.or_eq_true, Bool.and_eq_true, beq_iff_eq, Bool.not_eq_true']

theorem ce_not_unmasked (h : codeClass r.code = 1) : f.unmasked r = false := by
  simp [Collector.unmasked, h]

theorem masked_uc_not_unmasked (h : codeClass r.code = 2) (hm : f.mask.v.getLsbD (codeUnit r.code).toNat = true) : f.unmasked r = false := by
  simp [Collector.unmasked, h, hm]

theorem latch_eq : f.latch r seq =
    if !f.unmasked r then (f, false)
    else if f.valid then ({ f with ovf := cpair (bump8 (setBit f.ovf.v (codeLevel r.code).toNat) 1) }, false)
    else ({ f with first := cpair (firstWords r seq), firstT := cpair (r.ptag ++ r.stamp) }, true) := rfl

theorem latch_passed_by (h : f.unmasked r = false) : f.latch r seq = (f, false) := by simp [latch_eq, h]

theorem latch_first (h : f.unmasked r = true) (hv : f.valid = false) :
    f.latch r seq = ({ f with first := cpair (firstWords r seq), firstT := cpair (r.ptag ++ r.stamp) }, true) := by
  simp [latch_eq, h, hv]

theorem latch_later (h : f.unmasked r = true) (hv : f.valid = true) :
    f.latch r seq = ({ f with ovf := cpair (bump8 (setBit f.ovf.v (codeLevel r.code).toNat) 1) }, false) := by
  simp [latch_eq, h, hv]

/-- R325 step 1: promotion writes the two bits of the class alone. -/
theorem getLsbD_promoted (c : BitVec 16) {i : Nat} (hi : i < 14) : ((c &&& 0x3FFF) ||| 0x8000).getLsbD i = c.getLsbD i := by
  have kept : (0x3FFF : BitVec 16).getLsbD i = true := by interval_cases i <;> rfl
  have unset : (0x8000 : BitVec 16).getLsbD i = false := by interval_cases i <;> rfl
  rw [BitVec.getLsbD_or, BitVec.getLsbD_and, kept, unset, Bool.and_true, Bool.or_false]

theorem extractLsb'_promoted (c : BitVec 16) {start len : Nat} (h : start + len ≤ 14) :
    ((c &&& 0x3FFF) ||| 0x8000).extractLsb' start len = c.extractLsb' start len := by
  refine BitVec.eq_of_getLsbD_eq fun i hi => ?_
  rw [BitVec.getLsbD_extractLsb', BitVec.getLsbD_extractLsb', getLsbD_promoted c (by omega)]

theorem codeClass_promoted (c : BitVec 16) : codeClass ((c &&& 0x3FFF) ||| 0x8000) = 2 := by
  refine BitVec.eq_of_getLsbD_eq fun i hi => ?_
  obtain rfl | rfl : i = 0 ∨ i = 1 := by omega
  all_goals simp [codeClass]

theorem classify_promotes (h : codeClass r.code = 1) (hp : f.promote.v.getLsbD (codeUnit r.code).toNat = true) :
    f.classify r = { r with code := (r.code &&& 0x3FFF) ||| 0x8000 } := by
  rw [Collector.classify, h, hp]
  rfl

-- The history.

theorem eraseP_eq_takeWhile_append {α : Type} (p : α → Bool) (l : List α) :
    (l.takeWhile fun a => !p a) ++ (l.dropWhile fun a => !p a).tail = l.eraseP p := by
  induction l with
  | nil => rfl
  | cons a l ih => cases h : p a <;> simp [h, ih]

theorem filter_not_eraseP {α : Type} (p : α → Bool) (l : List α) : (l.eraseP p).filter (fun a => !p a) = l.filter fun a => !p a := by
  induction l with
  | nil => rfl
  | cons a l ih => cases h : p a <;> simp [h, ih]

/-- A record of the history whose code is that of a CE. -/
def isCeRecord (c : CPair 256) : Bool := codeClass (c.v.extractLsb' 32 16) == 1

theorem store_below (h : f.hist.length < 32) (isCe : Bool) : f.store b isCe = { f with hist := cpair b :: f.hist } := if_pos h

theorem store_full (h : f.hist.length = 32) : f.store b false = { f with hist := cpair b :: f.hist.dropLast } := if_neg (by omega)

theorem store_full_ce (h : f.hist.length = 32) : f.store b true =
    if f.hist.any isCeRecord then { f with hist := cpair b :: (f.hist.reverse.eraseP isCeRecord).reverse } else { f with ceLost := satInc f.ceLost } := by
  rw [← eraseP_eq_takeWhile_append]
  exact if_neg (by omega)

theorem store_ce_lost (h : f.hist.length = 32) (hn : f.hist.any isCeRecord = false) : f.store b true = { f with ceLost := satInc f.ceLost } := by
  rw [store_full_ce h, if_neg (Bool.eq_false_iff.mp hn)]

/-- R326: the CE takes the place of the oldest CE. -/
theorem store_ce_replaces (h : f.hist.length = 32) (hc : f.hist.any isCeRecord = true) :
    f.store b true = { f with hist := cpair b :: (f.hist.reverse.eraseP isCeRecord).reverse } := by
  rw [store_full_ce h, if_pos hc]

theorem store_ce_length (h : f.hist.length = 32) (hc : f.hist.any isCeRecord = true) : (f.store b true).hist.length = 32 := by
  rw [store_ce_replaces h hc, List.length_cons, List.length_reverse, List.length_eraseP, List.any_reverse, if_pos hc, List.length_reverse, h]

theorem store_ce_keeps_others (h : f.hist.length = 32) (hc : f.hist.any isCeRecord = true) :
    (f.store b true).hist.tail.filter (fun c => !isCeRecord c) = f.hist.filter fun c => !isCeRecord c := by
  rw [store_ce_replaces h hc, List.tail_cons, List.filter_reverse, filter_not_eraseP, List.filter_reverse, List.reverse_reverse]

end Sys2Proof.Machine
end

section
/-!
The statement of what the collector does with a report.
-/

namespace Sys2Proof.Machine

/-- Settles O56: by the class of the code, by FC_FIRST.VALID, and by the room and the CEs of the history. -/
theorem collectorRules : Obligations.CollectorRules := by
  unfold Obligations.CollectorRules
  intro f r seq b
  refine ⟨fun ce => latch_passed_by (ce_not_unmasked ce), fun uc masked => latch_passed_by (masked_uc_not_unmasked uc masked),
    fun h => ⟨latch_first (unmasked_iff.mpr h), fun hv => ?later⟩, classify_of_not_ce, fun ce hp => ?promoted,
    fun room isCe => congrArg Collector.hist (store_below room isCe), fun full => congrArg Collector.hist (store_full full),
    fun full noCe => ?lost, fun full ce => ?replaces⟩
  case later =>
    rw [latch_later (unmasked_iff.mpr h) hv]
    exact ⟨rfl, rfl, rfl, rfl⟩
  case promoted =>
    rw [classify_promotes ce hp]
    exact ⟨codeClass_promoted _, extractLsb'_promoted _ (by decide), extractLsb'_promoted _ (by decide)⟩
  case lost =>
    exact store_ce_lost full (List.any_eq_false.mpr fun c hc => by simpa [isCeRecord] using noCe c hc)
  case replaces =>
    have hasCe : f.hist.any isCeRecord = true := List.any_eq_true.mpr (by simpa [isCeRecord] using ce)
    exact ⟨store_ce_length full hasCe, by rw [store_ce_replaces full hasCe]; rfl, store_ce_keeps_others full hasCe⟩

end Sys2Proof.Machine
end

section
/-!
SUPPORT. A fault of a unit below the Leaf core (R197, R323): what the unit holds after it, and that the collector's own page stays.
-/

namespace Sys2Proof.Machine

variable {s : State} {level : Level} {a : CellAddr}

theorem unitAddr_idem (level : Level) (a : CellAddr) : unitAddr level (unitAddr level a) = unitAddr level a := by
  unfold unitAddr
  split <;> rfl

theorem State.unit_level (s : State) (level : Level) (a : CellAddr) : (s.unit level a).level = level := by
  simp only [State.unit]
  cases hf : s.tr.units.find? fun x => x.level == level && x.addr == unitAddr level a with
  | none => rfl
  | some u =>
    have found := List.find?_some hf
    simp only [Bool.and_eq_true, beq_iff_eq] at found
    exact found.1

theorem State.unit_unitAddr (s : State) (level : Level) (a : CellAddr) : s.unit level (unitAddr level a) = s.unit level a := by
  simp only [State.unit, unitAddr_idem]

/-- The units that are listed, without one. -/
def State.otherUnits (s : State) (level : Level) (a : CellAddr) : List TUnit :=
  s.tr.units.filter fun y => !(y.level == level && y.addr == unitAddr level a)

theorem State.modUnit_units {f : TUnit → TUnit} : (s.modUnit level a f).tr.units =
    if f (s.unit level a) = { level := level, addr := unitAddr level a } then s.otherUnits level a
    else f (s.unit level a) :: s.otherUnits level a := rfl

theorem State.find?_otherUnits : ((s.otherUnits level a).find? fun y => y.level == level && y.addr == unitAddr level a) = none :=
  List.find?_eq_none.mpr fun y hy found => by simpa [found] using (List.mem_filter.mp hy).2

/-- A unit is read as it was written, whether or not it is listed. -/
theorem State.unit_modUnit_same {f : TUnit → TUnit} (hl : ∀ u, (f u).level = u.level) (ha : ∀ u, (f u).addr = u.addr) :
    (s.modUnit level a f).unit level a = f (s.unit level a) := by
  have own_level : (f (s.unit level a)).level = level := (hl _).trans (s.unit_level level a)
  have own_addr : (f (s.unit level a)).addr = unitAddr level a := (ha _).trans (s.unit_addr level a)
  rw [State.unit, State.modUnit_units]
  split
  next reset =>
    rw [State.find?_otherUnits, reset]
    rfl
  next =>
    rw [List.find?_cons_of_pos (by simp [own_level, own_addr])]
    rfl

/-- A unit with one more packet of its own ready on its lane toward the parent. -/
def TUnit.readied (u : TUnit) (k : Packet) (n : BitVec 32) : TUnit :=
  u.setLane { u.lane none k.classU with ready := (u.lane none k.classU).ready ++ [{ pkt := k, child := 0, fwd := false, num := n }] }

/-- A packet that waits in a unit leaves FIRST alone. -/
theorem sendUp_first (k : Packet) : ((s.sendUp level (unitAddr level a) k).unit level a).first = (s.unit level a).first := by
  have sent : (s.sendUp level (unitAddr level a) k).unit level (unitAddr level a) = (s.unit level (unitAddr level a)).readied k s.tr.pktIx :=
    State.unit_modUnit_same (f := fun u => u.readied k s.tr.pktIx) (fun _ => rfl) fun _ => rfl
  rw [← State.unit_unitAddr, sent, State.unit_unitAddr]
  rfl

theorem sendUp_safeView (k : Packet) : (s.sendUp level a k).safeView = s.safeView := rfl

/-- R323: the first fault that a unit detects stands in FIRST. -/
theorem unitFault_first {code : BitVec 16} {det : BitVec 64} (h3 : level ≠ 3) (h0 : (s.unit level a).first = 0) :
    ((s.unitFault level a code det).unit level a).first = code := by
  unfold State.unitFault
  rw [if_neg h3]
  dsimp only
  have latched (f : TUnit → TUnit) (hl : ∀ u, (f u).level = u.level) (ha : ∀ u, (f u).addr = u.addr)
      (hf : ∀ u, u.first = 0 → (f u).first = code) : ((s.modUnit level a f).unit level a).first = code := by
    rw [State.unit_modUnit_same hl ha, hf _ h0]
  split
  · rw [sendUp_first]
    exact latched _ (fun _ => rfl) (fun _ => rfl) fun _ h => if_pos h
  · exact latched _ (fun _ => rfl) (fun _ => rfl) fun _ h => if_pos h

theorem unitFault_safeView {code : BitVec 16} {det : BitVec 64} : (s.unitFault level a code det).safeView = s.safeView := by
  unfold State.unitFault
  refine ite_safeView (State.raiseNow_safeView ..) (ite_safeView ?_ ?_)
  · exact (sendUp_safeView _).trans (State.modUnit_safeView ..)
  · exact State.modUnit_safeView ..

end Sys2Proof.Machine
end

section
/-!
SUPPORT. A self-fault of the collector (R333, R370, R379): what it leaves of the collector beside the safe state.
-/

namespace Sys2Proof.Machine

variable {s : State}

-- The SERVICE record of hard evidence.

theorem State.modLg_safeView (f : Ledger → Ledger) : (s.modLg f).safeView = s.safeView := rfl
theorem State.modHs_safeView (f : Health → Health) : (s.modHs f).safeView = s.safeView := rfl

theorem State.beforeRecord_safeView : s.beforeRecord.safeView = s.safeView := by
  unfold State.beforeRecord
  refine ite_safeView (State.modLg_safeView _) (ite_safeView (ite_safeView (State.modLg_safeView _) ?_) rfl)
  exact (State.raiseNow_safeView ..).trans ((State.modLg_safeView _).trans (State.modLg_safeView _))

theorem State.lgProgram_safeView (addr : Nat) (p : Page) : (s.lgProgram addr p).safeView = s.safeView :=
  (State.emit_safeView _).trans ((State.emit_safeView _).trans (State.emit_safeView _))

theorem State.startRecord_safeView (j : Job) : (s.startRecord j).safeView = s.safeView :=
  (State.lgProgram_safeView ..).trans ((State.modLg_safeView _).trans State.beforeRecord_safeView)

theorem State.loseSvc_safeView (q : SvcReq) : (s.loseSvc q).safeView = s.safeView := by
  unfold State.loseSvc
  cases q.desc with
  | none => rfl
  | some n => exact State.complete_safeView ..

theorem State.startJob_safeView : s.startJob.safeView = s.safeView := by
  unfold State.startJob
  have lost (x : State) : (if x.lg.logFull then x.lg.queue.foldl State.loseSvc (x.modLg fun l => { l with queue := [] }) else x).safeView = x.safeView :=
    ite_safeView (foldl_safeView _ fun _ q => State.loseSvc_safeView q) rfl
  refine ite_safeView rfl (ite_safeView (State.startRecord_safeView _) ?_)
  dsimp only
  split
  · exact ite_safeView (lost s) ((State.startRecord_safeView _).trans ((State.modLg_safeView _).trans (lost s)))
  · exact lost s

theorem State.svc_safeView (code : BitVec 16) (note : BitVec 256) (desc : Option Nat) : (s.svc code note desc).safeView = s.safeView :=
  ite_safeView rfl State.startJob_safeView

theorem State.chargeHard_safeView (i : Nat) (code : BitVec 16) : (s.chargeHard i code).safeView = s.safeView :=
  ite_safeView rfl ((ite_safeView (State.modHs_safeView _) rfl).trans ((State.svc_safeView ..).trans (State.modHs_safeView _)))

/-- R379: a fault of the collector itself is hard evidence against the node. -/
theorem chargeFault_self : s.chargeFault (ft 0x15 0x01) 0 0 = s.chargeHard entNode (ft 0x15 0x01) := rfl

theorem State.odoCount_safeView (f : Odo → Odo) : (s.odoCount f).safeView = s.safeView := ite_safeView rfl rfl

theorem enterSafe_injDone (s : State) (code : BitVec 16) : (s.enterSafe code).fc.injDone = s.fc.injDone := by
  cases h : s.fc.safe with
  | true =>
    have stays : s.enterSafe code = s := if_pos h
    rw [stays]
  | false => exact congrArg (fun v => v.2.2.injDone) (enterSafe_safeView (code := code) h)

theorem selfFault_injDone (s : State) : s.selfFault.fc.injDone = s.fc.injDone := by
  refine (enterSafe_injDone ..).trans ?_
  have charged : ((s.odoCount fun o => { o with ft := satInc o.ft }).chargeFault (ft 0x15 0x01) 0 0).safeView = s.safeView := by
    rw [chargeFault_self, State.chargeHard_safeView, State.odoCount_safeView]
  exact congrArg (fun v => v.2.2.injDone) charged

end Sys2Proof.Machine
end

section
/-!
SUPPORT. FC_CLR and FC_INJ (R325, R340, R341): the fields of the words that the commands write, and what each mode of injection does.
-/

namespace Sys2Proof.Machine

variable {s : State} {w : Word}

/-- R325: VALID of FC_FIRST reads 0 once it has been cleared. -/
theorem cleared_valid (f : Collector) (v : BitVec 32) : ({ f with first := cpair (setBit f.first.v 56 false), ovf := cpair v } : Collector).valid = false :=
  (getLsbD_setBit f.first.v 56 56 false (by decide)).trans (if_pos rfl)

/-- FC_CLR with the held SEQ (R325, R61). -/
theorem writeFcClr_held (h : w.extractLsb' 0 16 = s.fc.first.v.extractLsb' 16 16) : s.writeFcClr w = State.rpOk (State.driveErr (s.modFc fun f => { f with
    first := cpair (setBit f.first.v 56 false), ovf := cpair (f.ovf.v &&& 0xFFFF0000) })) := by
  rw [State.writeFcClr, if_pos (beq_iff_eq.mpr h)]

theorem writeFcClr_other (h : w.extractLsb' 0 16 ≠ s.fc.first.v.extractLsb' 16 16) : s.writeFcClr w = s.rpOk := by
  rw [State.writeFcClr, if_neg (mt beq_iff_eq.mp h)]

/-- R61: the pins after FC_FIRST.VALID has been cleared. -/
theorem driveErr_pins (h : s.fc.valid = false) : s.driveErr.pins = { s.pins with flErrP := false, flErrN := true } := by
  simp [State.driveErr, State.modPins, h]

-- The word of an injection.

/-- The bits of the word that MODE and GO do not take. -/
theorem getLsbD_injWord {m i : Nat} (hm : m < 8) (hi : i < 16 ∨ (19 ≤ i ∧ i < 31)) : (injWord w m).getLsbD i = w.getLsbD i := by
  have outside (k : Nat) (hk : k < 2 ^ 3) : (BitVec.ofNat 32 (k * 2 ^ 16)).getLsbD i = false := by
    rw [BitVec.getLsbD_ofNat, Nat.testBit_mul_two_pow]
    rcases hi with low | ⟨high, -⟩
    · simp [show ¬16 ≤ i by omega]
    · have wide : 2 ^ 3 ≤ 2 ^ (i - 16) := Nat.pow_le_pow_right (by decide) (by omega)
      rw [Nat.testBit_lt_two_pow (Nat.lt_of_lt_of_le hk wide), Bool.and_false, Bool.and_false]
  have go : (0x80000000 : Word).getLsbD i = false := by
    show (BitVec.ofNat 32 (2 ^ 31)).getLsbD i = false
    rw [BitVec.getLsbD_ofNat, Nat.testBit_two_pow_of_ne (by omega), Bool.and_false]
  have mode : (0x00070000 : Word).getLsbD i = false := outside 7 (by decide)
  rw [injWord, BitVec.getLsbD_or, BitVec.getLsbD_or, BitVec.getLsbD_and, BitVec.getLsbD_not, go, outside m hm, mode,
    decide_eq_true (by omega : i < 32)]
  simp

theorem extractLsb'_injWord {m start len : Nat} (hm : m < 8) (h : start + len ≤ 16 ∨ (19 ≤ start ∧ start + len ≤ 31)) :
    (injWord w m).extractLsb' start len = w.extractLsb' start len := by
  refine BitVec.eq_of_getLsbD_eq fun i hi => ?_
  rw [BitVec.getLsbD_extractLsb', BitVec.getLsbD_extractLsb', getLsbD_injWord hm (by omega)]

theorem injWord_go (w : Word) (m : Nat) : (injWord w m).getLsbD 31 = true := by
  simp [injWord]

-- One injection.

/-- R340: FC_INJ as it reads during an injection, which DONE counts. -/
def State.injecting (s : State) (w : Word) (m : Nat) : State :=
  s.modFc fun f => { f with
    injCode := w.extractLsb' 0 16, injMode := (injWord w m).extractLsb' 16 3, injCount := w.extractLsb' 20 8, injDone := satInc f.injDone }

theorem writeFcInj_factory {m : Nat} (hf : s.gate.life = .factory) (hm : m ≤ 4) :
    s.writeFcInj (injWord w m) = ((s.injecting w m).inject1 (w.extractLsb' 0 16) m (w.extractLsb' 20 8)).rpOk := by
  have mode := injWord_mode w (m := m) (by omega)
  have code : (injWord w m).extractLsb' 0 16 = w.extractLsb' 0 16 := extractLsb'_injWord (by omega) (by decide)
  have count : (injWord w m).extractLsb' 20 8 = w.extractLsb' 20 8 := extractLsb'_injWord (by omega) (by decide)
  simp only [State.writeFcInj, hf, bne_self_eq_false, Bool.false_eq_true, if_false, injWord_go, mode, code, count, hm, decide_true, Bool.and_self, if_true]
  rfl

/-- R340: outside FACTORY there is no injection. -/
theorem writeFcInj_barred (hf : s.gate.life ≠ .factory) (w : Word) : s.writeFcInj w = s.rpErr := if_pos (bne_iff_ne.mpr hf)

variable {code : BitVec 16} {count : Byte}

theorem inject1_report : s.inject1 code 0 count = s.drew.drew.raise {
    code := code, loc := s.fc.injLoc, partV := s.fc.injPartV, ptag := s.fc.injPtag
    stamp := s.stamp, detail := Config.anyWord s.freeIx ++ Config.anyWord (s.freeIx + 1) } := rfl

theorem inject1_unit (hl : s.isLeaf = true) (hu : s.hasUnit (codeLevel code) (locAddr s.fc.injLoc) = true) : s.inject1 code 1 count =
    s.drew.drew.unitFault (codeLevel code) (locAddr s.fc.injLoc) code (Config.anyWord s.freeIx ++ Config.anyWord (s.freeIx + 1)) :=
  if_pos (by rw [hl, hu]; rfl)

theorem inject1_crc : s.inject1 code 2 count = s.modPort (s.fc.injLoc.extractLsb' 0 6) fun q => { q with crcInject := count } := rfl

/-- R324, R340: the Leaf core sees both rails of a Pergola's pair high. -/
theorem inject1_wire (hl : s.isLeaf = true) (h2 : codeLevel code = 2) (hu : s.hasUnit 2 (locAddr s.fc.injLoc) = true) : s.inject1 code 3 count =
    s.raiseNow (faultCode 2 3 0x15 2) 0 s.activeTag (detail [(24, 1, 0), (25, 1, (locAddr s.fc.injLoc).region.toNat)]) := by
  have taken : s.inject1 code 3 count = _ := if_pos (by rw [hl, h2, hu]; rfl)
  rw [taken, h2]
  rfl

theorem inject1_self : s.inject1 code 4 count = s.selfFault := rfl

-- The commands.

theorem execFcClr_open (hp : s.pins.powered = true) (hh : s.pins.hmRunning = true) (ha : s.alive = true) (hx : s.xoOk = true) :
    execFcClr w s = .next (s.writeFcClr w) := onSafeReg_open hp hh ha hx

/-- R335, R339: FORCE is bit 2 of FC_SAFE. -/
theorem execForce_writable (hw : s.writable 0 = true) : execForce s = .next (s.raiseNow (ft 0x15 0x03)).rpOk := onReg_writable hw

/-- R340: an injection that FACTORY lets pass. -/
theorem onFcInj_factory {m : Nat} (hw : s.writable 0 = true) (hf : s.gate.life = .factory) (hm : m ≤ 4) :
    onReg 0 s (fun t => t.writeFcInj (injWord w m)) = .next ((s.injecting w m).inject1 (w.extractLsb' 0 16) m (w.extractLsb' 20 8)).rpOk := by
  rw [onReg_writable hw, writeFcInj_factory hf hm]

theorem onFcInj_barred (hw : s.writable 0 = true) (hf : s.gate.life ≠ .factory) (m : Nat) :
    onReg 0 s (fun t => t.writeFcInj (injWord w m)) = .next s.rpErr := by
  rw [onReg_writable hw, writeFcInj_barred hf]

end Sys2Proof.Machine
end

section
/-!
The statement of FC_CLR, FORCE and the injections.
-/

namespace Sys2Proof.Machine

/-- Settles O58: each command as the write of its register, and each injection by its mode. -/
theorem faultRegisters : Obligations.FaultRegisters := by
  unfold Obligations.FaultRegisters
  intro s w
  refine ⟨fun hp hh ha hx => ⟨fun held => ?cleared, fun other => ?kept⟩, fun hw => ⟨execForce_writable hw, fun hf => ?barred, fun hf =>
    ⟨⟨_, onFcInj_factory hw hf (by decide), rfl, rfl, rfl⟩, fun hl hu h3 => ?unit, ⟨_, onFcInj_factory hw hf (by decide), rfl, rfl⟩,
      fun hl h2 hu => ?wire, ⟨_, onFcInj_factory hw hf (by decide), ?self⟩⟩⟩⟩
  case cleared =>
    refine ⟨_, execFcClr_open hp hh ha hx, ?_⟩
    rw [writeFcClr_held held]
    exact ⟨rfl, driveErr_pins (cleared_valid ..), rfl, rfl, rfl⟩
  case kept => exact (execFcClr_open hp hh ha hx).trans (congrArg _ (writeFcClr_other other))
  case barred =>
    exact ⟨onFcInj_barred hw hf 0, onFcInj_barred hw hf 1, onFcInj_barred hw hf 2, onFcInj_barred hw hf 3, onFcInj_barred hw hf 4⟩
  case unit =>
    refine ⟨_, onFcInj_factory hw hf (by decide), ?_⟩
    rw [inject1_unit (s := s.injecting w 1) hl hu]
    refine ⟨congrArg (fun v => v.2.2.injDone) unitFault_safeView, rfl, fun h0 => unitFault_first (s := (s.injecting w 1).drew.drew) h3 h0⟩
  case wire =>
    refine ⟨_, onFcInj_factory hw hf (by decide), ?_⟩
    rw [inject1_wire (s := s.injecting w 3) hl h2 hu]
    exact ⟨rfl, rfl, _, List.mem_append_right _ (List.mem_singleton_self _), rfl⟩
  case self =>
    rw [inject1_self]
    obtain ⟨safe, self, -⟩ := selfFault_fields (s.injecting w 4)
    exact ⟨selfFault_injDone (s.injecting w 4), safe, self⟩

end Sys2Proof.Machine
end

section
/-!
The statement of the step.
-/

namespace Sys2Proof.Machine

/-- Settles O1: the queue's front decides the case of the step. -/
theorem stepTakesFront : Obligations.StepTakesFront := by
  unfold Obligations.StepTakesFront
  intro s c rest waits
  unfold step
  rw [waits]

end Sys2Proof.Machine
end

section
/-!
SUPPORT. Pages of the ledger (R368, R369, R371 to R373): what a program takes of the flash, and how a record ends or goes on.
-/

namespace Sys2Proof.Machine

variable {s : State} {p : Page} {j : Job} {pf : Bool}

/-- An update of the ledger is known by what it makes of the ledger that stands. -/
theorem State.modLg_congr {f g : Ledger → Ledger} (h : f s.lg = g s.lg) : s.modLg f = s.modLg g := congrArg (fun l => { s with lg := l }) h

theorem State.modLg_modLg (f g : Ledger → Ledger) : (s.modLg f).modLg g = s.modLg fun l => g (f l) := rfl

/-- R66: the commands of an erase are logged, and change nothing else. -/
theorem State.lgErase_eq (k : Nat) : s.lgErase k = s.modOut fun o =>
    .lg 0x05 none none :: .lg (s.lg.lgCode 0x20 0x21) (some (k * 4096)) none :: .lg 0x06 none none :: o := rfl

/-- An update of the ledger that leaves the addressing of the flash. -/
theorem State.lgErase_modLg {f : Ledger → Ledger} (h : (f s.lg).cfg = s.lg.cfg) (k : Nat) : (s.lgErase k).modLg f = (s.modLg f).lgErase k := by
  have code : (s.modLg f).lg.lgCode 0x20 0x21 = s.lg.lgCode 0x20 0x21 := congrArg (fun c : BitVec 7 => if c.getLsbD 0 then (0x21 : Byte) else 0x20) h
  rw [State.lgErase_eq, State.lgErase_eq, code]
  rfl

-- The page that a program takes.

theorem Ledger.program_within {l : Ledger} (h : l.jPos % 16 ≠ 0) : l.program (.odo pf) p =
    { l with journal := assocSet l.jPos p l.journal, jPos := (l.jPos + 1) % 4096 } := by
  unfold Ledger.program
  rw [if_neg h]

/-- R372: the first page of a sector makes the sector after the next one be erased. -/
theorem Ledger.program_first {l : Ledger} (h : l.jPos % 16 = 0) : l.program (.odo pf) p =
    { l with journal := assocSet l.jPos p l.journal, jPos := (l.jPos + 1) % 4096, erasing := some ((l.jPos / 16 + 2) % 256) } := by
  unfold Ledger.program
  rw [if_pos h]

/-- No erase starts where the program leaves the sector being erased as it was. -/
theorem State.tookPage_still (h : (s.lg.program j p).erasing = s.lg.erasing) :
    s.tookPage j p = (s.lgRead (s.lg.writeAddr j)).modLg fun l => l.program j p := by
  change (if s.lg.erasing.isNone then (s.lg.program j p).erasing.elim _ _ else _) = _
  rw [h]
  cases s.lg.erasing <;> rfl

theorem State.tookPage_erases {k : Nat} (idle : s.lg.erasing = none) (h : (s.lg.program j p).erasing = some k) :
    s.tookPage j p = ((s.lgRead (s.lg.writeAddr j)).modLg fun l => l.program j p).lgErase (2 + k) := by
  change (if s.lg.erasing.isNone then (s.lg.program j p).erasing.elim _ _ else _) = _
  rw [h, idle]
  rfl

theorem State.tookPage_svc (q : SvcReq) :
    s.tookPage (.svc q) p = (s.lgRead (logAddr s.lg.log.length)).modLg fun l => { l with log := l.log ++ [p] } := State.tookPage_still rfl

theorem State.tookPage_within (h : s.lg.jPos % 16 ≠ 0) : s.tookPage (.odo pf) p = (s.lgRead (journalAddr s.lg.jPos)).modLg fun l => { l with
    journal := assocSet l.jPos p l.journal, jPos := (l.jPos + 1) % 4096 } := by
  have taken := Ledger.program_within (p := p) (pf := pf) h
  exact (State.tookPage_still (by rw [taken])).trans (State.modLg_congr taken)

theorem State.tookPage_first (h : s.lg.jPos % 16 = 0) (idle : s.lg.erasing = none) : s.tookPage (.odo pf) p =
    ((s.lgRead (journalAddr s.lg.jPos)).modLg fun l => { l with
      journal := assocSet l.jPos p l.journal, jPos := (l.jPos + 1) % 4096
      erasing := some ((l.jPos / 16 + 2) % 256) }).lgErase (2 + (s.lg.jPos / 16 + 2) % 256) := by
  have taken := Ledger.program_first (p := p) (pf := pf) h
  exact (State.tookPage_erases idle (congrArg Ledger.erasing taken)).trans (congrArg (State.lgErase · _) (State.modLg_congr taken))

-- How a record ends.

theorem State.pageDone_idle (h : s.lg.job = none) (ok : Bool) : s.pageDone ok = s := by
  unfold State.pageDone
  rw [h]

theorem State.pageDone_good (h : s.lg.job = some j) (hj : j ≠ .odo true) : s.pageDone true = (s.recordDone j).startJob := by
  unfold State.pageDone
  rw [h]
  exact if_neg hj

/-- R373: the read-back of the power-fail record counts with PFAIL_COMMIT_DONE. -/
theorem State.pageDone_commit (h : s.lg.job = some (.odo true)) : s.pageDone true = s := by
  unfold State.pageDone
  rw [h]
  rfl

theorem State.pageDone_bad (h : s.lg.job = some j) : s.pageDone false = (s.recordFailed j).startJob := by
  unfold State.pageDone
  rw [h]
  rfl

theorem State.recordDone_svc {q : SvcReq} (h : q.desc = none) : s.recordDone (.svc q) =
    (s.lgRead (logAddr s.lg.log.length)).modLg fun l => { l with
      log := l.log ++ [.valid l.rec_], job := none, seq := l.seq + 1, tries := 0, chain := l.rec_.extractLsb' 896 128
      svcFull := decide (l.logPages ≤ l.log.length + 1), odo := { l.odo with svcCount := satInc l.odo.svcCount } } := by
  have full (l : Ledger) : decide (l.logPages ≤ l.log.length + 1) = decide (l.logPages ≤ (l.log ++ [Page.valid l.rec_]).length) := by
    rw [List.length_append, List.length_singleton]
  change q.desc.elim _ _ = _
  rw [h, Option.elim_none, State.tookPage_svc, State.modLg_modLg, State.modLg_modLg]
  simp only [full]
  exact State.modLg_congr rfl

theorem State.recordDone_odo : s.recordDone (.odo pf) =
    (s.tookPage (.odo pf) (.valid s.lg.rec_)).modLg fun l => { l with job := none, seq := l.seq + 1, tries := 0 } := rfl

theorem State.recordDone_within (h : s.lg.jPos % 16 ≠ 0) : s.recordDone (.odo pf) = (s.lgRead (journalAddr s.lg.jPos)).modLg fun l => { l with
    journal := assocSet l.jPos (.valid l.rec_) l.journal, jPos := (l.jPos + 1) % 4096, job := none, seq := l.seq + 1, tries := 0 } := by
  rw [State.recordDone_odo, State.tookPage_within h, State.modLg_modLg]
  exact State.modLg_congr rfl

theorem State.recordDone_first (h : s.lg.jPos % 16 = 0) (idle : s.lg.erasing = none) : s.recordDone (.odo pf) =
    ((s.lgRead (journalAddr s.lg.jPos)).modLg fun l => { l with
      journal := assocSet l.jPos (.valid l.rec_) l.journal, jPos := (l.jPos + 1) % 4096, erasing := some ((l.jPos / 16 + 2) % 256), job := none
      seq := l.seq + 1, tries := 0 }).lgErase (2 + (s.lg.jPos / 16 + 2) % 256) := by
  rw [State.recordDone_odo, State.tookPage_first h idle, State.lgErase_modLg rfl, State.modLg_modLg]
  exact congrArg (State.lgErase · _) (State.modLg_congr rfl)

/-- R372: a record that fails goes on at the next page, but for its third failure. -/
theorem State.recordFailed_again (hp : s.pw.pfail = false) (within : s.lg.jPos % 16 ≠ 0) (h : s.lg.tries < 2) : s.recordFailed (.odo pf) =
    ((s.lgRead (journalAddr s.lg.jPos)).modLg fun l => { l with
      journal := assocSet l.jPos .invalid l.journal, jPos := (l.jPos + 1) % 4096, tries := l.tries + 1 }).nextPage (.odo pf) := by
  unfold State.recordFailed
  rw [State.tookPage_within within]
  change (if s.pw.pfail && _ then _ else if s.lg.tries + 1 < 3 then _ else _) = _
  rw [hp, if_pos (by omega : s.lg.tries + 1 < 3)]
  rfl

theorem State.recordFailed_third (hp : s.pw.pfail = false) (within : s.lg.jPos % 16 ≠ 0) (h : s.lg.tries = 2) : s.recordFailed (.odo false) =
    ((s.lgRead (journalAddr s.lg.jPos)).modLg fun l => { l with
      journal := assocSet l.jPos .invalid l.journal, jPos := (l.jPos + 1) % 4096, tries := 3, job := none }).raiseNow (ce 0x10 0x01) 0 none
      (detail [(24, 1, 1), (28, 4, s.lg.seq.toNat)]) := by
  have last : s.lg.tries + 1 = 3 := by rw [h]
  unfold State.recordFailed
  rw [State.tookPage_within within]
  change (if s.pw.pfail && _ then _ else if s.lg.tries + 1 < 3 then _ else State.raiseNow (State.modLg (State.modLg (State.modLg _ _) _) _) _ _ _
    (detail [(24, 1, 1), (28, 4, s.lg.seq.toNat)])) = _
  rw [hp, Bool.false_and, if_neg Bool.false_ne_true, if_neg (by omega : ¬ s.lg.tries + 1 < 3), State.modLg_modLg, State.modLg_modLg, ← last]
  exact congrArg (State.raiseNow · _ _ _ _) (State.modLg_congr rfl)

-- Erases, and the records of the odometer that are asked for.

theorem State.eraseDone_idle (h : s.lg.erasing = none) : s.eraseDone = s := by
  unfold State.eraseDone
  rw [h]

theorem State.eraseDone_erasing {k : Nat} (h : s.lg.erasing = some k) : s.eraseDone = (s.modLg fun l => { l with
    erasing := none, journal := l.journal.filter fun x => x.1 / 16 != k }).startJob := by
  unfold State.eraseDone
  rw [h]

/-- R372: the word that FLUSH writes names the thresholds as they stand. -/
theorem State.writeLgCtl_thresholds {w : Word} (hi : w.extractLsb' 0 8 = s.lg.tHi) (lo : w.extractLsb' 8 8 = s.lg.tLo) : s.writeLgCtl w =
    if w.getLsbD 16 && s.lg.ready && s.lg.lastFlush.elim true (fun t => tickLe (t + 1000000000) s.tick) then
      (s.rpOk.modLg fun l => { l with lastFlush := some s.tick, odoDue := true }).startJob
    else s.rpOk := by
  unfold State.writeLgCtl
  rw [hi, lo]
  have same : (s.modLg fun l => { l with tHi := s.lg.tHi, tLo := s.lg.tLo }) = s := rfl
  rw [same, ite_self]
  rfl

/-- R372: a FLUSH asks for an ODO record where the ledger is ready and a second has passed since the last. -/
theorem execFlush_eq (hw : s.writable 0 = true) : execFlush s = .next
    (if s.lg.ready && s.lg.lastFlush.elim true (fun t => tickLe (t + 1000000000) s.tick) then
      (s.rpOk.modLg fun l => { l with lastFlush := some s.tick, odoDue := true }).startJob
    else s.rpOk) := by
  have hi : (setBit ((s.lg.tLo ++ s.lg.tHi : BitVec 16).setWidth 32) 16).extractLsb' 0 8 = s.lg.tHi := by
    rw [extractLsb'_setBit _ _ _ (by omega) (by omega), BitVec.extractLsb'_setWidth_of_le (by omega)]
    exact BitVec.extractLsb'_append_eq_right
  have lo : (setBit ((s.lg.tLo ++ s.lg.tHi : BitVec 16).setWidth 32) 16).extractLsb' 8 8 = s.lg.tLo := by
    rw [extractLsb'_setBit _ _ _ (by omega) (by omega), BitVec.extractLsb'_setWidth_of_le (by omega)]
    exact BitVec.extractLsb'_append_eq_left
  have asks : (setBit ((s.lg.tLo ++ s.lg.tHi : BitVec 16).setWidth 32) 16).getLsbD 16 = true := getLsbD_setBit _ 16 16 true (by decide)
  rw [execFlush, onReg_writable hw, State.writeLgCtl_thresholds hi lo, asks, Bool.true_and]

end Sys2Proof.Machine
end

section
/-!
The statement of the ledger's records.
-/

namespace Sys2Proof.Machine

/-- Settles O51: each read-back by the record that is being written, and what asks for the next. -/
theorem ledgerRecords : Obligations.LedgerRecords := by
  unfold Obligations.LedgerRecords
  intro s ha
  have done (ok : Bool) : execPageProgramDone ok s = .next (s.pageDone ok) := whenAlive_alive ha
  have erased : execSectorEraseDone s = .next s.eraseDone := whenAlive_alive ha
  refine ⟨fun idle => ⟨?_, ?_⟩, fun q hj hq => ?_, fun hj within => ?_, fun hj first idle => ?_, fun hj within hn hp => ?_, fun hj within hn hp => ?_,
    fun hj => ?_, fun k hk => ?_, fun idle => ?_, fun hr h10 h0 hnew hp => ?interval, fun hw hr hf => ?_, fun hw barred => ?barred⟩
  · exact (done true).trans (congrArg _ (State.pageDone_idle idle true))
  · exact (done false).trans (congrArg _ (State.pageDone_idle idle false))
  · exact (done true).trans (by rw [State.pageDone_good hj nofun, State.recordDone_svc hq])
  · exact (done true).trans (by rw [State.pageDone_good hj (by decide), State.recordDone_within within])
  · exact (done true).trans (by rw [State.pageDone_good hj (by decide), State.recordDone_first first idle])
  · exact (done false).trans (by rw [State.pageDone_bad hj, State.recordFailed_again hp within hn])
  · exact (done false).trans (by rw [State.pageDone_bad hj, State.recordFailed_third hp within hn])
  · exact (done true).trans (congrArg _ (State.pageDone_commit hj))
  · exact erased.trans (congrArg _ (State.eraseDone_erasing hk))
  · exact erased.trans (congrArg _ (State.eraseDone_idle idle))
  case interval =>
    refine (whenAlive_alive ha).trans (congrArg _ (if_pos ?_))
    rw [hr, hp, bne_iff_ne.mpr h0, bne_iff_ne.mpr hnew, decide_eq_true h10]
    rfl
  · exact (execFlush_eq hw).trans (by rw [hr, hf]; rfl)
  case barred =>
    have early : (s.lg.ready && s.lg.lastFlush.elim true fun t => tickLe (t + 1000000000) s.tick) = false := Bool.and_eq_false_iff.mpr barred
    exact (execFlush_eq hw).trans (by rw [early]; rfl)

end Sys2Proof.Machine
end

section
/-!
SUPPORT. The samples of the odometer, the reads of the ledger and the notes of the host (R369, R374, R376, R377).
-/

namespace Sys2Proof.Machine

variable {s : State}

-- The odometer.

/-- R369, R373: the odometer stands before the start-up scan is done and after a power failure. -/
theorem State.odoCount_stopped (h : s.lg.ready = false ∨ s.pw.pfail = true) (f : Odo → Odo) : s.odoCount f = s := by
  unfold State.odoCount
  rcases h with h | h
  · rw [h]; rfl
  · rw [h, Bool.not_true, Bool.and_false]; rfl

theorem State.odoCount_counts (hr : s.lg.ready = true) (hp : s.pw.pfail = false) (f : Odo → Odo) :
    s.odoCount f = s.modLg fun l => { l with odo := f l.odo } := by
  unfold State.odoCount
  rw [hr, hp]
  rfl

theorem execTempSample_early (ha : s.alive = true) (h : tickLe (s.lg.sampleAt + 1000000000) s.tick = false) : execTempSample s = .next s :=
  (whenAlive_alive ha).trans (congrArg _ (if_pos (congrArg (!·) h)))

/-- R369: what a sample counts, where the odometer counts; the temperature is a free value (log entry 11). -/
theorem execTempSample_due (ha : s.alive = true) (due : tickLe (s.lg.sampleAt + 1000000000) s.tick = true) : ∃ (hot : Bool) (tMax : Odo → BitVec 8)
    (thermal : Odo → BitVec 32),
    execTempSample s = .next (((s.drew.modLg fun l => { l with sampleAt := s.tick }).odoCount fun o => { o with
      poweredS := satInc o.poweredS, serdesS := satInc o.serdesS s.upPorts.length, tNow := Config.temperature s.freeIx
      tMax := tMax o, thermal := thermal o }).modLg fun l => { l with hot := hot }) :=
  ⟨_, _, _, (whenAlive_alive ha).trans (congrArg _ (if_neg (ne_true_of_eq_false (congrArg (!·) due))))⟩

-- The start-up scan and the reads.

/-- R374: the flash does not answer its identification. -/
theorem execLedgerScanDone_absent (ha : s.alive = true) (h : s.lg.scanning = true) (id : BitVec 24) : execLedgerScanDone false id s =
    .next ((s.modLg fun l => { l with scanning := false, absent := true }).raiseNow (ce 0x10 0x04) 0 none (detail [(24, 3, id.toNat)])) :=
  (whenAlive_alive ha).trans (congrArg _ (if_neg (ne_true_of_eq_false (congrArg (!·) h))))

/-- R359, R374: BLANK has no ledger to read. -/
theorem execLedgerScanDone_answers (ha : s.alive = true) (h : s.lg.scanning = true) (id : BitVec 24) : execLedgerScanDone true id s =
    .next (if s.gate.life = .blank then s.modLg fun l => { l with scanning := false } else (s.modLg fun l => { l with scanning := false }).scanFlash) :=
  (whenAlive_alive ha).trans (congrArg _ (if_neg (ne_true_of_eq_false (congrArg (!·) h))))

theorem execLedgerScanDone_done (ha : s.alive = true) (h : s.lg.scanning = false) (b : Bool) (id : BitVec 24) : execLedgerScanDone b id s = .next s :=
  (whenAlive_alive ha).trans (congrArg _ (if_pos (congrArg (!·) h)))

/-- R408: BLANK has nothing to read. -/
theorem execLgRdSelWrite_blank (hw : s.writable 0 = true) (hl : s.gate.life = .blank) (w : Word) : execLgRdSelWrite w s = .next s.rpErr :=
  (onReg_writable hw).trans (congrArg _ (if_pos hl))

/-- R377: a read that LG_RD_SEL starts. -/
theorem execLgRdSelWrite_life (hw : s.writable 0 = true) (hl : s.gate.life ≠ .blank) {w : Word} {t : State} (et : t = s.modLg fun l => { l with
    rdArea := w.extractLsb' 0 2, rdIndex := w.extractLsb' 8 22, rdBusy := true, rdValid := false, rdErased := false }) :
    execLgRdSelWrite w s = .next (t.rdAddr.elim t t.lgRead).rpOk := by
  subst et
  exact (onReg_writable hw).trans (congrArg _ (if_neg hl))

theorem execLedgerReadDone_idle (ha : s.alive = true) (h : s.lg.rdBusy = false) : execLedgerReadDone s = .next s :=
  (whenAlive_alive ha).trans (congrArg _ (if_pos (congrArg (!·) h)))

/-- R377: LG_RD_SEL names a page of the service log. -/
theorem State.rdPage_log (h : s.lg.rdArea = 1) : s.rdPage = some s.lg.log[s.lg.logAt s.lg.rdIndex.toNat]? := by
  change (if s.lg.rdArea = 0 then _ else if s.lg.rdArea = 1 then _ else _) = _
  rw [h]
  rfl

section Read

variable (ha : s.alive = true) (hb : s.lg.rdBusy = true) (hr : s.lg.ready = true) (hp : s.lg.absent = false)

include ha hb hr hp

theorem execLedgerReadDone_valid {r : BitVec 1024} (h : s.rdPage = some (some (.valid r))) : execLedgerReadDone s =
    .next (s.modLg fun l => { l with rdBusy := false, rdValid := true, rdErased := false, rdData := r }) := by
  refine (whenAlive_alive ha).trans (congrArg _ ?_)
  dsimp only
  rw [hb, hr, hp, h]
  rfl

/-- R368: an erased page reads as ones. -/
theorem execLedgerReadDone_erased (h : s.rdPage = some none) : execLedgerReadDone s =
    .next (s.modLg fun l => { l with rdBusy := false, rdValid := false, rdErased := true, rdData := BitVec.allOnes 1024 }) := by
  refine (whenAlive_alive ha).trans (congrArg _ ?_)
  dsimp only
  rw [hb, hr, hp, h]
  rfl

end Read

end Sys2Proof.Machine
end

section
/-!
SUPPORT. LEDGER_NOTE, once taken and checked (R376): each refusal, and the note that is queued.
-/

namespace Sys2Proof.Machine

variable {s t : State} {u : Bool} {d : Desc} {n : Nat}

/-- R359, R373: a SERVICE record that the ledger takes waits its turn. -/
theorem State.svc_queues (blank : s.gate.life ≠ .blank) (retired : s.gate.life ≠ .retired) (hs : s.lg.sealed = false) (hp : s.pw.pfail = false)
    (code : BitVec 16) (note : BitVec 256) (desc : Option Nat) : s.svc code note desc =
      (s.modLg fun l => { l with queue := l.queue ++ [{ code := code, host := desc.isSome, note := note, desc := desc }] }).startJob := by
  unfold State.svc
  rw [hs, hp, decide_eq_false blank, decide_eq_false retired]
  rfl

variable (ha : s.alive = true) (ht : s.takeable u d = true) (hc : s.commonCheck d = none) (ho : descOp d = 0x0C) (et : t = s.pull u d)
  (en : n = s.eng.takenNum)

include ha ht hc ho et en

/-- R376: what becomes of a note, in the order of its checks. -/
theorem execLedgerNote_taken : execLedgerNote u d s = .next
    (if (d.extractLsb' 64 16).toNat < 256 then t.complete n stInvalid
    else if t.gate.life = .retired then t.complete n stRefused (refusal 0x12 0x10)
    else if !t.lg.ready then t.complete n stRefused (refusal 0x10 0x10)
    else if t.lg.logFull then t.complete n stRefused (refusal 0x10 0x11)
    else if t.lg.queue.length ≥ 16 then t.complete n stBusy
    else t.svc (d.extractLsb' 64 16) (d.extractLsb' 96 256) (some n)) :=
  onDesc_taken ha ht (by rw [ho]; rfl) hc et en

end Sys2Proof.Machine
end

section
/-!
The statement of the ledger's reads and notes.
-/

namespace Sys2Proof.Machine

/-- Settles O52: each command by what stands of the scan, the read and the note. -/
theorem ledgerReadsAndNotes : Obligations.LedgerReadsAndNotes := by
  unfold Obligations.LedgerReadsAndNotes
  intro s ha
  refine ⟨fun due stands => ?stopped, fun due hr hp => ?counts, fun early => execTempSample_early ha early, fun id hs => execLedgerScanDone_absent ha hs id,
    fun id hs hl => (execLedgerScanDone_answers ha hs id).trans (congrArg _ (if_pos hl)),
    fun id hs hl => (execLedgerScanDone_answers ha hs id).trans (congrArg _ (if_neg hl)), fun id b hs => execLedgerScanDone_done ha hs b id,
    fun w t hw hl et => ⟨fun a named => ?_, fun nameless => ?_⟩, fun w hw hl => execLgRdSelWrite_blank hw hl w,
    fun r hb hr hp h1 page => execLedgerReadDone_valid ha hb hr hp ((State.rdPage_log h1).trans (congrArg _ page)),
    fun hb hr hp h1 page => execLedgerReadDone_erased ha hb hr hp ((State.rdPage_log h1).trans (congrArg _ page)), fun idle => execLedgerReadDone_idle ha idle,
    fun u d t n ht hc ho et en => ?notes⟩
  case stopped =>
    obtain ⟨hot, tMax, thermal, sampled⟩ := execTempSample_due ha due
    refine ⟨_, sampled, ?_⟩
    rw [State.odoCount_stopped (s := s.drew.modLg fun l => { l with sampleAt := s.tick }) stands]
    exact ⟨rfl, rfl, rfl, rfl, rfl, rfl⟩
  case counts =>
    obtain ⟨hot, tMax, thermal, sampled⟩ := execTempSample_due ha due
    refine ⟨_, sampled, ?_⟩
    rw [State.odoCount_counts (s := s.drew.modLg fun l => { l with sampleAt := s.tick }) hr hp]
    simp only [State.modLg_lg, State.modLg_fc, State.modLg_pins, true_and]
    exact ⟨rfl, rfl, rfl, rfl, rfl, rfl⟩
  · exact (execLgRdSelWrite_life hw hl et).trans (by rw [named, Option.elim_some])
  · exact (execLgRdSelWrite_life hw hl et).trans (by rw [nameless, Option.elim_none])
  case notes =>
    have taken := execLedgerNote_taken ha ht hc ho et en
    refine ⟨fun own => ?_, fun host gone => ?_, fun host here unread => ?_, fun host here hr room full => ?_, fun host here blank hr room free hs hp => ?_⟩
    · exact taken.trans (by rw [if_pos own])
    · exact taken.trans (by rw [if_neg host.not_gt, if_pos gone])
    · exact taken.trans (by rw [if_neg host.not_gt, if_neg here, unread, Bool.not_false, if_pos rfl])
    · exact taken.trans (by rw [if_neg host.not_gt, if_neg here, hr, Bool.not_true, if_neg Bool.false_ne_true, room, if_neg Bool.false_ne_true, if_pos full])
    · exact taken.trans (by rw [if_neg host.not_gt, if_neg here, hr, Bool.not_true, if_neg Bool.false_ne_true, room, if_neg Bool.false_ne_true, if_neg free.not_ge,
        State.svc_queues blank here hs hp, Option.isSome_some])

end Sys2Proof.Machine
end

section
/-!
SUPPORT. Health scoring (R378, R380 to R383, R387): the windows and their charges, the verdict of a score, and what HS_CTL clears.
-/

namespace Sys2Proof.Machine

variable {s t : State}

-- Windows.

theorem execHealthWindowEnd_not_due (ha : s.alive = true) (h : s.tick.toNat % 64000000000 ≠ 0 ∨ s.tick = s.hs.window) :
    execHealthWindowEnd s = .next s := by
  refine (whenAlive_alive ha).trans (congrArg _ (if_pos ?_))
  rcases h with h | h
  · have within : (s.tick.toNat % windowNs != 0) = true := bne_iff_ne.mpr h
    rw [within, Bool.or_true, Bool.true_or]
  · rw [beq_iff_eq.mpr h, Bool.or_true]

/-- R380: the units counted are set aside, and every UP port sends its own. -/
theorem execHealthWindowEnd_due (ha : s.alive = true) (hs : s.scoring = true) (h : s.tick.toNat % 64000000000 = 0) (new : s.tick ≠ s.hs.window)
    (et : t = State.modPorts (s.modHs fun h => { h with
        window := s.tick, due := true
        scores := h.scores.map fun x => (x.1, { x.2 with win := x.2.units, units := 0 }) })
      fun l => l.map fun q => { q with winUnits := q.units, units := 0 }) :
    execHealthWindowEnd s = .next (t.upPorts.foldl (fun v p => v.send p 7 (.health {
      node := v.elect.node, port := p.setWidth 8, fault := 0, t := htOf s.tick, count := satNat 32 (v.port p).winUnits, kind := 0, index := 0 })) t) := by
  subst et
  refine (whenAlive_alive ha).trans (congrArg _ (if_neg ?_))
  have whole : (s.tick.toNat % windowNs != 0) = false := bne_eq_false_iff_eq.mpr h
  rw [hs, whole, beq_eq_false_iff_ne.mpr new]
  decide

theorem execHealthCharge_not_due (ha : s.alive = true) (h : s.hs.due = false ∨ s.tick ≠ s.hs.window + 1000000) : execHealthCharge s = .next s := by
  refine (whenAlive_alive ha).trans (congrArg _ (if_pos ?_))
  rcases h with h | h
  · rw [h, Bool.not_false, Bool.or_true, Bool.true_or]
  · rw [bne_iff_ne.mpr h, Bool.or_true]

/-- R380, R381: the units of each port go to the entity to blame, and every score decays and takes its units. -/
theorem execHealthCharge_due (ha : s.alive = true) (hs : s.scoring = true) (due : s.hs.due = true) (h : s.tick = s.hs.window + 1000000)
    (et : t = s.portNos.foldl (fun v p => if (v.port p).winUnits = 0 then v else (v.modScore (v.blame p) fun x => { x with
      win := x.win + (v.port p).winUnits }).modPort p fun q => { q with winUnits := 0 }) s) :
    execHealthCharge s = .next (State.evaluate (t.modHs fun h => { h with
      due := false, scores := h.scores.map fun x => (x.1, x.2.step (decay h.halflife.toNat)) })) := by
  subst et
  refine (whenAlive_alive ha).trans (congrArg _ (if_neg ?_))
  rw [hs, due, bne_eq_false_iff_eq.mpr h]
  decide

-- Verdicts.

theorem State.evaluate_scoring (h : s.scoring = true) : s.evaluate = s.modHs fun h => { h with evalDue := true } := if_pos h

theorem State.settleVerdicts_due (h : s.scoring = true) (due : s.hs.evalDue = true) :
    s.settleVerdicts = (s.hs.scores.map (·.1)).foldl State.evalOne (s.modHs fun h => { h with evalDue := false }) :=
  if_pos (by rw [h, due, Bool.and_self])

theorem State.verdictOf_hard {x : Score} (h : x.hard = true) : s.verdictOf x = (2, false) := if_pos h

/-- R383: the governor caps the verdict of a score past the threshold of EXPEL. -/
theorem State.verdictOf_expel {x : Score} (h : x.hard = false) (he : s.hs.tExp.toNat * 256 ≤ x.s.toNat) :
    s.verdictOf x = if s.hs.spares.toNat ≤ s.hs.floor.toNat ∨ 3600 ≤ s.sparesAge.toNat then (1, true) else (2, false) := by
  refine (if_neg (ne_true_of_eq_false h)).trans ((if_pos he).trans ?_)
  unfold State.capped
  simp only [Bool.or_eq_true, decide_eq_true_eq, ge_iff_le]

theorem State.verdictOf_below {x : Score} (h : x.hard = false) (he : x.s.toNat < s.hs.tExp.toNat * 256) :
    s.verdictOf x = if s.hs.tAdv.toNat * 256 ≤ x.s.toNat then (1, false) else (0, false) :=
  (if_neg (ne_true_of_eq_false h)).trans (if_neg he.not_ge)

-- The governor.

theorem execSparesStale_stale (ha : s.alive = true) (hs : s.scoring = true) (fresh : s.hs.stale = false) (old : 3600 ≤ s.sparesAge.toNat) :
    execSparesStale s = .next ((s.modHs fun h => { h with stale := true }).raiseNow (ce 0x11 0x03)) :=
  (whenAlive_alive ha).trans (congrArg _ (if_pos (by rw [hs, fresh, decide_eq_true old]; rfl)))

theorem execSparesStale_young (ha : s.alive = true) (young : s.sparesAge.toNat < 3600) : execSparesStale s = .next s :=
  (whenAlive_alive ha).trans (congrArg _ (if_neg (by rw [decide_eq_false young.not_ge, Bool.and_false]; decide)))

theorem execHsSparesWrite_writable {w : Word} (hw : s.writable 3 = true) : execHsSparesWrite w s = .next (s.writeSpares w) := onReg_writable hw

theorem execHsFloorWrite_writable {w : Word} (hw : s.writable 3 = true) : execHsFloorWrite w s = .next (s.writeFloor w) := onReg_writable hw

-- HS_CTL.

theorem Health.ctl_tAdv (h : Health) : h.ctl.extractLsb' 8 8 = h.tAdv :=
  (BitVec.extractLsb'_append_eq_of_le (by decide)).trans BitVec.extractLsb'_append_eq_right

theorem Health.ctl_tExp (h : Health) : h.ctl.extractLsb' 16 8 = h.tExp :=
  (BitVec.extractLsb'_append_eq_of_le (by decide)).trans ((BitVec.extractLsb'_append_eq_of_le (by decide)).trans BitVec.extractLsb'_append_eq_right)

theorem Health.ctl_low (h : Health) {i : Nat} (hi : i < 8) : h.ctl.getLsbD i = (decide (i = 0) && h.en) := by
  have low : h.ctl.getLsbD i = (BitVec.ofNat 8 h.en.toNat).getLsbD i := BitVec.getLsbD_append.trans (if_pos hi)
  rw [low, BitVec.getLsbD_ofNat, decide_eq_true hi, Bool.true_and, Nat.testBit_bool_toNat]

/-- R387: what a word of HS_CTL clears, where its other fields name what stands. -/
theorem State.writeHsCtl_clears {w : Word} (adv : w.extractLsb' 8 8 = s.hs.tAdv) (exp : w.extractLsb' 16 8 = s.hs.tExp) (en : w.getLsbD 0 = s.hs.en)
    (h : s.hs.tAdv.toNat ≤ s.hs.tExp.toNat) : s.writeHsCtl w =
      if w.getLsbD 1 && !(s.gate.life = .factory || s.gate.scope.getLsbD 1) then s.rpErr
      else (if w.getLsbD 2 then (if w.getLsbD 1 then s.clearHard else s).modHs fun h => { h with scores := h.scores.map fun x => (x.1, { x.2 with s := 0 }) }
        else if w.getLsbD 1 then s.clearHard else s).rpOk := by
  unfold State.writeHsCtl
  rw [adv, exp, en]
  dsimp only
  rw [decide_eq_false h.not_gt, Bool.false_or]
  rfl

section Clears

variable (hw : s.writable 3 = true) (h : s.hs.tAdv.toNat ≤ s.hs.tExp.toNat)

include hw h

/-- R387: CLR_HARD is bit 1 of HS_CTL; the other fields stay. -/
theorem execClrHard_eq : execClrHard s = .next (if s.gate.life = .factory ∨ s.gate.scope.getLsbD 1 = true then s.clearHard.rpOk else s.rpErr) := by
  have en : (setBit s.hs.ctl 1).getLsbD 0 = s.hs.en := (getLsbD_setBit _ _ _ _ (by decide)).trans (Health.ctl_low _ (by decide))
  have hard : (setBit s.hs.ctl 1).getLsbD 1 = true := getLsbD_setBit _ _ _ _ (by decide)
  have clr : (setBit s.hs.ctl 1).getLsbD 2 = false := (getLsbD_setBit _ _ _ _ (by decide)).trans (Health.ctl_low _ (by decide))
  rw [execClrHard, onReg_writable hw, State.writeHsCtl_clears ((extractLsb'_setBit _ _ _ (by decide) (by decide)).trans s.hs.ctl_tAdv)
    ((extractLsb'_setBit _ _ _ (by decide) (by decide)).trans s.hs.ctl_tExp) en h, hard, clr]
  have barred : (true && !(decide (s.gate.life = .factory) || s.gate.scope.getLsbD 1)) = true ↔ ¬(s.gate.life = .factory ∨ s.gate.scope.getLsbD 1 = true) := by
    rw [Bool.true_and, Bool.not_eq_true', ← Bool.not_eq_true, Bool.or_eq_true, decide_eq_true_eq]
  simp only [barred, ite_not]
  rfl

/-- R387: bit 2 of HS_CTL clears the scores. -/
theorem execHsClr_eq : execHsClr s = .next ((s.modHs fun h => { h with scores := h.scores.map fun x => (x.1, { x.2 with s := 0 }) }).rpOk) := by
  have en : (setBit s.hs.ctl 2).getLsbD 0 = s.hs.en := (getLsbD_setBit _ _ _ _ (by decide)).trans (Health.ctl_low _ (by decide))
  have hard : (setBit s.hs.ctl 2).getLsbD 1 = false := (getLsbD_setBit _ _ _ _ (by decide)).trans (Health.ctl_low _ (by decide))
  have clr : (setBit s.hs.ctl 2).getLsbD 2 = true := getLsbD_setBit _ _ _ _ (by decide)
  rw [execHsClr, onReg_writable hw, State.writeHsCtl_clears ((extractLsb'_setBit _ _ _ (by decide) (by decide)).trans s.hs.ctl_tAdv)
    ((extractLsb'_setBit _ _ _ (by decide) (by decide)).trans s.hs.ctl_tExp) en h, hard, clr]
  rfl

end Clears

end Sys2Proof.Machine
end

section
/-!
The statement of the health commands.
-/

namespace Sys2Proof.Machine

/-- Settles O53: each command by what is due, and the verdict of a score by its thresholds. -/
theorem healthCommands : Obligations.HealthCommands := by
  unfold Obligations.HealthCommands
  intro s
  exact ⟨fun t ha hs whole new et => execHealthWindowEnd_due ha hs whole new et, fun ha h => execHealthWindowEnd_not_due ha h,
    fun t ha hs due h et => execHealthCharge_due ha hs due h et, fun ha h => execHealthCharge_not_due ha h, State.evaluate_scoring, State.settleVerdicts_due,
    fun ha hs fresh old => execSparesStale_stale ha hs fresh old, fun ha young => execSparesStale_young ha young,
    fun hw w => ⟨execHsSparesWrite_writable hw, execHsFloorWrite_writable hw⟩,
    fun hw h => ⟨fun hf hs => (execClrHard_eq hw h).trans (congrArg _ (if_neg fun may => may.elim hf (ne_true_of_eq_false hs))),
      fun may => (execClrHard_eq hw h).trans (congrArg _ (if_pos may)), execHsClr_eq hw h⟩,
    fun x => State.verdictOf_hard, fun x => State.verdictOf_expel, fun x => State.verdictOf_below⟩

end Sys2Proof.Machine
end

section
/-!
SUPPORT. What the writing of the ledger leaves alone (R358 to R366, R371, R372): of the Gatehouse everything but the fuse that anchors an epoch,
and, until a program ends, what the flash holds.
-/

namespace Sys2Proof.Machine

/-- The Gatehouse but for the fuse that an epoch of the ledger burns. -/
def State.gateView (s : State) : Gate := { s.gate with eLgFuse := 0 }

/-- What a record leaves alone until its program ends: the Gatehouse so, the areas of the flash, and the thresholds of the temperature. -/
structure FlashView where
  gate : Gate
  ready : Bool
  journal : List (Nat × Page)
  log : List Page
  tLo : BitVec 8
  tHi : BitVec 8

def State.flashView (s : State) : FlashView :=
  { gate := s.gateView, ready := s.lg.ready, journal := s.lg.journal, log := s.lg.log, tLo := s.lg.tLo, tHi := s.lg.tHi }

variable {s : State} {p : Page} {j : Job}

theorem foldl_keeps {α β : Type} {g : State → β} {f : State → α → State} (l : List α) (h : ∀ s a, g (f s a) = g s) : g (l.foldl f s) = g s := by
  induction l generalizing s with
  | nil => rfl
  | cons a l ih => exact ih.trans (h s a)

theorem ite_keeps {β : Type} {g : State → β} {v : β} {c : Prop} [Decidable c] {a b : State} (h : g a = v) (k : g b = v) : g (if c then a else b) = v := by
  split <;> assumption

theorem elim_keeps {α β : Type} {g : State → β} {v : β} {o : Option α} {a : State} {f : α → State} (h : g a = v) (k : ∀ x, g (f x) = v) :
    g (o.elim a f) = v := by
  cases o with
  | none => exact h
  | some x => exact k x

theorem State.modLg_gateView (f : Ledger → Ledger) : (s.modLg f).gateView = s.gateView := rfl
theorem State.lgRead_gateView (a : Nat) : (s.lgRead a).gateView = s.gateView := rfl
theorem State.lgProgram_gateView (a : Nat) : (s.lgProgram a p).gateView = s.gateView := rfl
theorem State.lgErase_gateView (k : Nat) : (s.lgErase k).gateView = s.gateView := rfl
theorem State.raiseNow_gateView (code : BitVec 16) (loc : BitVec 24) (part : Option PTag) (det : BitVec 64) :
    (s.raiseNow code loc part det).gateView = s.gateView := rfl

theorem flashView_of_lg {f : Ledger → Ledger} (hr : (f s.lg).ready = s.lg.ready) (hj : (f s.lg).journal = s.lg.journal) (hl : (f s.lg).log = s.lg.log)
    (lo : (f s.lg).tLo = s.lg.tLo) (hi : (f s.lg).tHi = s.lg.tHi) : (s.modLg f).flashView = s.flashView := by
  simp only [State.flashView, State.modLg_lg, hr, hj, hl, lo, hi]
  rfl

theorem State.lgProgram_flashView (a : Nat) : (s.lgProgram a p).flashView = s.flashView := rfl

-- The start of a record.

theorem State.complete_flashView (num : Nat) (status : Byte) (cause : BitVec 16) (det : BitVec 80) :
    (s.complete num status cause det).flashView = s.flashView := by
  unfold State.complete
  split
  · rfl
  · exact ite_keeps rfl (foldl_keeps _ fun _ _ => rfl)

theorem State.beforeRecord_flashView : s.beforeRecord.flashView = s.flashView := by
  unfold State.beforeRecord
  exact ite_keeps rfl (ite_keeps (ite_keeps rfl rfl) rfl)

theorem State.startRecord_flashView (j : Job) : (s.startRecord j).flashView = s.flashView :=
  (State.lgProgram_flashView _).trans ((flashView_of_lg rfl rfl rfl rfl rfl).trans State.beforeRecord_flashView)

theorem State.loseSvc_flashView (q : SvcReq) : (s.loseSvc q).flashView = s.flashView := by
  unfold State.loseSvc
  have lost : (s.modLg fun l => { l with svcFull := true, odo := { l.odo with svcLost := satInc l.odo.svcLost } }).flashView = s.flashView :=
    flashView_of_lg rfl rfl rfl rfl rfl
  cases q.desc with
  | none => exact lost
  | some n => exact (State.complete_flashView ..).trans lost

theorem State.startJob_flashView : s.startJob.flashView = s.flashView := by
  unfold State.startJob
  refine ite_keeps rfl (ite_keeps (State.startRecord_flashView _) ?_)
  have lost : (if s.lg.logFull then s.lg.queue.foldl State.loseSvc (s.modLg fun l => { l with queue := [] }) else s).flashView = s.flashView :=
    ite_keeps ((foldl_keeps _ fun _ q => State.loseSvc_flashView q).trans (flashView_of_lg rfl rfl rfl rfl rfl)) rfl
  generalize (if s.lg.logFull then s.lg.queue.foldl State.loseSvc (s.modLg fun l => { l with queue := [] }) else s) = x at lost
  dsimp only
  cases x.lg.queue with
  | nil => exact lost
  | cons q r => exact ite_keeps lost ((State.startRecord_flashView _).trans ((flashView_of_lg rfl rfl rfl rfl rfl).trans lost))

theorem State.svc_flashView (code : BitVec 16) (note : BitVec 256) (desc : Option Nat) : (s.svc code note desc).flashView = s.flashView :=
  ite_keeps rfl State.startJob_flashView

-- Its end.

theorem State.complete_gateView (num : Nat) (status : Byte) (cause : BitVec 16) (det : BitVec 80) : (s.complete num status cause det).gateView = s.gateView :=
  congrArg FlashView.gate (State.complete_flashView ..)

theorem State.startJob_gateView : s.startJob.gateView = s.gateView := congrArg FlashView.gate State.startJob_flashView

theorem State.svc_gateView (code : BitVec 16) (note : BitVec 256) (desc : Option Nat) : (s.svc code note desc).gateView = s.gateView :=
  congrArg FlashView.gate (State.svc_flashView ..)

theorem State.loseSvc_gateView (q : SvcReq) : (s.loseSvc q).gateView = s.gateView := congrArg FlashView.gate (State.loseSvc_flashView q)

theorem State.tookPage_gateView : (s.tookPage j p).gateView = s.gateView := by
  have taken : ((s.lgRead (s.lg.writeAddr j)).modLg fun l => l.program j p).gateView = s.gateView := rfl
  unfold State.tookPage
  exact ite_keeps (elim_keeps taken fun k => (State.lgErase_gateView _).trans taken) taken

theorem State.recordDone_gateView : (s.recordDone j).gateView = s.gateView := by
  unfold State.recordDone
  have taken (p : Page) (f : Ledger → Ledger) : ((s.tookPage j p).modLg f).gateView = s.gateView := (State.modLg_gateView f).trans State.tookPage_gateView
  cases j with
  | odo pf => exact taken ..
  | svc q => exact elim_keeps ((State.modLg_gateView _).trans (taken ..)) fun n => (State.complete_gateView ..).trans ((State.modLg_gateView _).trans (taken ..))

theorem State.recordFailed_gateView : (s.recordFailed j).gateView = s.gateView := by
  unfold State.recordFailed
  have taken : ((s.tookPage j .invalid).modLg fun l => { l with tries := l.tries + 1 }).gateView = s.gateView :=
    (State.modLg_gateView _).trans State.tookPage_gateView
  have ended (f : Ledger → Ledger) : (((s.tookPage j .invalid).modLg fun l => { l with tries := l.tries + 1 }).modLg f).gateView = s.gateView :=
    (State.modLg_gateView f).trans taken
  cases j with
  | odo pf => exact ite_keeps (ended _) (ite_keeps ((State.lgProgram_gateView _).trans taken)
      (ite_keeps ((State.raiseNow_gateView ..).trans (ended _)) ((State.raiseNow_gateView ..).trans (ended _))))
  | svc q =>
    exact ite_keeps (elim_keeps (ended _) fun n => (State.complete_gateView ..).trans (ended _))
      (ite_keeps ((State.loseSvc_gateView q).trans (ended _)) (ite_keeps ((State.lgProgram_gateView _).trans taken)
        ((State.raiseNow_gateView ..).trans (ended _))))

theorem State.pageDone_gateView (ok : Bool) : (s.pageDone ok).gateView = s.gateView := by
  unfold State.pageDone
  split
  · rfl
  · exact ite_keeps (ite_keeps rfl (State.startJob_gateView.trans State.recordDone_gateView)) (State.startJob_gateView.trans State.recordFailed_gateView)

theorem State.eraseDone_gateView : s.eraseDone.gateView = s.gateView := by
  unfold State.eraseDone
  split
  · rfl
  · exact State.startJob_gateView

theorem State.drainLedger_gateView : s.drainLedger.gateView = s.gateView :=
  (foldl_keeps _ fun x _ => (State.pageDone_gateView _).trans (State.eraseDone_gateView (s := x.drew))).trans State.startJob_gateView

end Sys2Proof.Machine
end

section
/-!
SUPPORT. The commands of the Gatehouse (R359 to R366, R387): where each is permitted, and the RESULT of each that is not.
-/

namespace Sys2Proof.Machine

variable {s : State} {scope : BitVec 3} {c : BitVec 128} {k : BitVec 256}

-- What the parts of a command leave of the Gatehouse.

theorem State.ghEnd_gateView (r : BitVec 4) : (s.ghEnd r).gateView = { s.gateView with result := r, resp := 0 } := rfl

theorem State.endSession_gateView (dest : Life) : (s.endSession dest).gateView = { s.gateView with life := dest, scope := 0, staged := none } := by
  change (State.modGate (if s.gate.scope.getLsbD 0 then _ else _) _).gateView = _
  split <;> rfl

theorem State.modGate_gateView {f : Gate → Gate} (h : ∀ g : Gate, { f g with eLgFuse := 0 } = f { g with eLgFuse := 0 }) :
    (s.modGate f).gateView = f s.gateView := h _

theorem State.drew_gateView : s.drew.gateView = s.gateView := rfl

theorem State.ghUse_gateView : s.ghUse.gateView = { s.gateView with chal := none } := rfl

theorem State.endSession_lg (dest : Life) : (s.endSession dest).lg = s.lg := by
  change (State.modGate (if s.gate.scope.getLsbD 0 then _ else _) _).lg = _
  split <;> rfl

theorem State.headerWritten_gateView (a : Bool) (p : Page) : (s.headerWritten a p).gateView = s.gateView := by
  simp only [State.headerWritten, State.modLg_gateView, State.drew_gateView, State.lgRead_gateView, State.lgProgram_gateView, State.lgErase_gateView]

theorem State.beforeRecord_gateView : s.beforeRecord.gateView = s.gateView := congrArg FlashView.gate State.beforeRecord_flashView

theorem State.headerFailed_gateView (a : Bool) : (s.headerFailed a).gateView = { s.gateView with staged := none, result := 7, resp := 0 } := by
  rw [State.headerFailed, State.ghEnd_gateView, State.modGate_gateView fun _ => rfl, State.modLg_gateView, State.headerWritten_gateView]
  rfl

-- CHAL, OPEN and EXIT.

theorem State.ghChal_elsewhere (hf : s.gate.life ≠ .field) (hs : s.gate.life ≠ .service) : s.ghChal = s.ghEnd 4 :=
  if_pos (by rw [bne_iff_ne.mpr hf, bne_iff_ne.mpr hs]; rfl)

/-- R361, R364: where a challenge may be asked for, LOCKED alone refuses it. -/
theorem State.ghChal_session (h : s.gate.life = .field ∨ s.gate.life = .service) : s.ghChal =
    if s.gate.locked then s.ghEnd 3 else (s.modGate fun g => { g with chal := none, drawing := true, result := 0, resp := 0 }).rpOk := by
  refine if_neg ?_
  rcases h with h | h <;> rw [h] <;> decide

theorem State.ghOpen_elsewhere (h : s.gate.life ≠ .field) : s.ghOpen scope = s.ghEnd 4 :=
  if_pos (by rw [bne_iff_ne.mpr h]; rfl)

theorem State.ghOpen_noChallenge (hf : s.gate.life = .field) (h0 : scope ≠ 0) (hc : s.gate.chal = none) (hk : s.kOwn = some k) :
    s.ghOpen scope = s.ghEnd 2 := by
  unfold State.ghOpen
  rw [hf, decide_eq_false h0, hc, hk]
  rfl

/-- R362, R363: an answer to a challenge. -/
theorem State.ghOpen_answered (hf : s.gate.life = .field) (h0 : scope ≠ 0) (hc : s.gate.chal = some c) (hk : s.kOwn = some k) : s.ghOpen scope =
    if scope.getLsbD 1 && s.partsHeld then s.ghUse.ghEnd 5
    else if s.gate.resp != s.ghMac (bytesOf 32 k.toNat) c (scope.setWidth 8) then s.ghUse.ghFail
    else (State.svc (s.modGate fun g => { g with chal := none, life := .service, scope := scope, fails := 0, openedAt := s.tick }) 0x0003
      (scope.setWidth 256)).ghEnd 0 := by
  unfold State.ghOpen
  rw [hf, decide_eq_false h0, hc, hk]
  rfl

theorem State.ghExit_elsewhere (h : s.gate.life ≠ .service) : s.ghExit = s.ghEnd 4 := if_pos (bne_iff_ne.mpr h)

theorem State.ghExit_service (h : s.gate.life = .service) : s.ghExit = ((s.svc 0x0004 1).endSession .field).ghEnd 0 := if_neg (by rw [h]; decide)

-- REKEY.

theorem State.ghRekey_elsewhere (h : s.gate.life ≠ .service) : s.ghRekey = s.ghEnd 4 := if_pos (by rw [bne_iff_ne.mpr h]; rfl)

theorem State.ghRekey_exhausted (h : s.gate.life = .service) (hs : s.gate.scope.getLsbD 2 = true) (he : s.gate.eOwn = 16) : s.ghRekey = s.ghUse.ghEnd 6 :=
  (if_neg (by rw [h, hs]; decide)).trans (if_pos he)

theorem State.ghRekey_staged (h : s.gate.life = .service) (hs : s.gate.scope.getLsbD 2 = true) (he : s.gate.eOwn ≠ 16) (hc : s.gate.chal = some c)
    (hk : s.kOwn = some k) : s.ghRekey =
      (s.modGate fun g => { g with chal := none, staged := some (g.resp ^^^ s.ghMac (bytesOf 32 k.toNat) c 0x80) }).ghEnd 0 := by
  refine (if_neg (by rw [h, hs]; decide)).trans ((if_neg he).trans ?_)
  rw [hc, hk]
  rfl

-- CONFIRM.

theorem State.ghConfirm_unstaged (h : s.gate.staged = none) : s.ghConfirm = s.ghEnd 4 := by
  unfold State.ghConfirm
  rw [h]
  rfl

section Confirm

variable (hk : s.gate.staged = some k) (h : s.gate.life = .service) (hs : s.gate.scope.getLsbD 2 = true) (hc : s.gate.chal = some c)

include hk h hs hc

/-- R365: an answer to a challenge, under the key that is staged. -/
theorem State.ghConfirm_wrong (hr : s.gate.resp ≠ s.ghMac (bytesOf 32 k.toNat) c 0x40) : s.ghConfirm = s.ghUse.ghFail := by
  unfold State.ghConfirm
  rw [hk]
  refine (if_neg (by rw [h, hs]; decide)).trans ?_
  rw [hc]
  exact if_pos (bne_iff_ne.mpr hr)

variable (hr : s.gate.resp = s.ghMac (bytesOf 32 k.toNat) c 0x40) (hl : s.lg.ready = true)

include hr hl

theorem State.ghConfirm_right : ∃ a p, s.ghConfirm =
    if !Config.flashOk s.freeIx then s.ghUse.beforeRecord.headerFailed a
    else ((((s.ghUse.beforeRecord.headerWritten a p).modGate fun g => { g with eOwn := s.gate.eOwn + 1, eOwnFuse := s.gate.eOwn + 1 }).svc 0x0006
      ((s.gate.eOwn + 1).setWidth 256)).endSession .field).ghEnd 0 := by
  unfold State.ghConfirm
  rw [hk]
  refine ⟨!s.ghUse.headerInA, s.ghUse.headerPage k (s.gate.eOwn + 1), (if_neg (by rw [h, hs]; decide)).trans ?_⟩
  rw [hc]
  refine (if_neg (ne_true_of_eq_false (bne_eq_false_iff_eq.mpr hr))).trans (if_neg (ne_true_of_eq_false ?_))
  exact congrArg (!·) hl

/-- R365: the new owner key stands, and the session ends. -/
theorem State.ghConfirm_gateView_written (ok : Config.flashOk s.freeIx = true) : s.ghConfirm.gateView = { s.gateView with
    chal := none, eOwn := s.gate.eOwn + 1, eOwnFuse := s.gate.eOwn + 1, life := .field, scope := 0, staged := none, result := 0, resp := 0 } := by
  obtain ⟨a, p, confirmed⟩ := State.ghConfirm_right hk h hs hc hr hl
  rw [confirmed, ok, Bool.not_true, if_neg Bool.false_ne_true, State.ghEnd_gateView, State.endSession_gateView, State.svc_gateView,
    State.modGate_gateView fun _ => rfl, State.headerWritten_gateView, State.beforeRecord_gateView, State.ghUse_gateView]

theorem State.ghConfirm_gateView_failed (bad : Config.flashOk s.freeIx = false) : s.ghConfirm.gateView = { s.gateView with
    chal := none, staged := none, result := 7, resp := 0 } := by
  obtain ⟨a, p, confirmed⟩ := State.ghConfirm_right hk h hs hc hr hl
  rw [confirmed, bad, Bool.not_false, if_pos rfl, State.headerFailed_gateView, State.beforeRecord_gateView, State.ghUse_gateView]

end Confirm

-- RETIRE.

theorem State.ghRetire_field (h : s.gate.life = .field) : s.ghRetire = s.ghEnd 4 := if_pos (by rw [h]; rfl)

section Retire

variable (h : s.gate.life = .factory) (hl : s.lg.ready = true)

include h hl

/-- R366: where the record of the retirement cannot be written, nothing is wiped. -/
theorem State.ghRetire_kept (hq : ((s.svc 0x0007).drainLedger.lg.queue.any fun q => q.code = 0x0007 && !q.host) = true) :
    s.ghRetire.gateView = { s.gateView with result := 7, resp := 0 } := by
  have refused : s.ghRetire = ((s.svc 0x0007).drainLedger.modLg fun l => { l with queue := l.queue.filter fun q => q.code != 0x0007 || q.host }).ghEnd 7 :=
    (if_neg (by rw [h]; exact Bool.false_ne_true)).trans ((if_neg (by rw [hl]; decide)).trans (if_pos hq))
  rw [refused, State.ghEnd_gateView, State.modLg_gateView, State.drainLedger_gateView, State.svc_gateView]

/-- R366: the device with its headers wiped. -/
theorem State.ghRetire_done (hq : ((s.svc 0x0007).drainLedger.lg.queue.any fun q => q.code = 0x0007 && !q.host) = false) :
    s.ghRetire.gateView = { s.gateView with
      lc := setBit s.gate.lc 2, life := .retired, scope := 0, staged := none, keyOk := false, result := 0, resp := 0 } ∧
    s.ghRetire.lg.hdrA = some .wiped ∧ s.ghRetire.lg.hdrB = some .wiped := by
  have wiped : s.ghRetire = ((((((s.svc 0x0007).drainLedger.lgProgram 0 .wiped).lgProgram 4096 .wiped).modGate fun g => { g with lc := setBit g.lc 2 }).modLg
      fun l => { l with hdrA := some .wiped, hdrB := some .wiped }).endSession .retired |>.modGate fun g => { g with keyOk := false }).ghEnd 0 :=
    (if_neg (by rw [h]; exact Bool.false_ne_true)).trans ((if_neg (by rw [hl]; decide)).trans (if_neg (ne_true_of_eq_false hq)))
  have ledger (t : State) : ((t.modGate fun g => { g with keyOk := false }).ghEnd 0).lg = t.lg := rfl
  refine ⟨?_, ?_, ?_⟩
  · rw [wiped, State.ghEnd_gateView, State.modGate_gateView fun _ => rfl, State.endSession_gateView, State.modLg_gateView, State.modGate_gateView fun _ => rfl,
      State.lgProgram_gateView, State.lgProgram_gateView, State.drainLedger_gateView, State.svc_gateView]
    rfl
  · rw [wiped, ledger, State.endSession_lg, State.modLg_lg]
  · rw [wiped, ledger, State.endSession_lg, State.modLg_lg]

end Retire

-- SHIP.

theorem State.ghShip_elsewhere (h : s.gate.life ≠ .factory) : s.ghShip = s.ghEnd 4 := if_pos (by rw [bne_iff_ne.mpr h]; rfl)

section Ship

variable (h : s.gate.life = .factory) (hl : s.lg.ready = true)

include h hl

/-- R360: the header of owner epoch 1 is good, and FIELD begins under it. -/
theorem State.ghShip_written (ok : Config.flashOk s.freeIx = true) : s.ghShip.gateView = { s.gateView with
    lc := setBit s.gate.lc 1, life := .field, eOwn := 1, eOwnFuse := 1, thermFuse := s.lg.tLo ++ s.lg.tHi, keyOk := true, result := 0, resp := 0 } := by
  have shipped : s.ghShip = (((s.beforeRecord.headerWritten true (s.headerPage s.gate.resp 1)).modGate fun g => { g with
      lc := setBit g.lc 1, life := .field, eOwn := 1, eOwnFuse := 1, thermFuse := s.beforeRecord.lg.tLo ++ s.beforeRecord.lg.tHi, keyOk := true }).svc
        0x0002 1).ghEnd 0 :=
    (if_neg (by rw [h, hl]; decide)).trans (if_neg (by rw [ok]; decide))
  have lo : s.beforeRecord.lg.tLo = s.lg.tLo := congrArg FlashView.tLo (State.beforeRecord_flashView (s := s))
  have hi : s.beforeRecord.lg.tHi = s.lg.tHi := congrArg FlashView.tHi (State.beforeRecord_flashView (s := s))
  rw [shipped, lo, hi, State.ghEnd_gateView, State.svc_gateView, State.modGate_gateView fun _ => rfl, State.headerWritten_gateView, State.beforeRecord_gateView]
  rfl

theorem State.ghShip_failed (bad : Config.flashOk s.freeIx = false) : s.ghShip.gateView = { s.gateView with staged := none, result := 7, resp := 0 } := by
  have failed : s.ghShip = s.beforeRecord.headerFailed true := (if_neg (by rw [h, hl]; decide)).trans (if_pos (by rw [bad]; rfl))
  rw [failed, State.headerFailed_gateView, State.beforeRecord_gateView]

end Ship

end Sys2Proof.Machine
end

section
/-!
The statement of the Gatehouse's commands.
-/

namespace Sys2Proof.Machine

/-- A command of the Gatehouse whose write is serviced (R387). -/
theorem gateCommands_writable {s : State} (hw : s.writable 0 = true) : exec .chal s = .next s.ghChal ∧
    (∀ scope, exec (.gateOpen scope) s = .next (s.ghOpen scope)) ∧
    exec .gateExit s = .next s.ghExit ∧ exec .rekey s = .next s.ghRekey ∧ exec .confirm s = .next s.ghConfirm ∧ exec .retire s = .next s.ghRetire ∧
    exec .ship s = .next s.ghShip :=
  ⟨onReg_writable hw, fun scope => onReg_writable (f := fun t => t.ghOpen scope) hw, onReg_writable hw, onReg_writable hw, onReg_writable hw,
    onReg_writable hw, onReg_writable hw⟩

/-- Settles O54: each command by the lifecycle, its challenge and, where it programs a page, the read-back. -/
theorem gatehouseCommands : Obligations.GatehouseCommands := by
  unfold Obligations.GatehouseCommands
  intro s hw
  obtain ⟨chal, gateOpen, gateExit, rekey, confirm, retire, ship⟩ := gateCommands_writable hw
  refine ⟨fun hl free => ?_, fun hl locked => ?_, fun hf hs => chal.trans (congrArg _ (State.ghChal_elsewhere hf hs)),
    fun scope c k hf h0 hc hk => ⟨fun parts held => ?_, fun may right => ?right, fun may wrong => ?wrong⟩,
    fun scope k hf h0 hc hk => (gateOpen scope).trans (congrArg _ (State.ghOpen_noChallenge hf h0 hc hk)),
    fun scope hf => (gateOpen scope).trans (congrArg _ (State.ghOpen_elsewhere hf)), fun hs => gateExit.trans (congrArg _ (State.ghExit_service hs)),
    fun hs => gateExit.trans (congrArg _ (State.ghExit_elsewhere hs)), fun c k hs scope he hc hk => rekey.trans (congrArg _ (State.ghRekey_staged hs scope he hc hk)),
    fun hs scope he => rekey.trans (congrArg _ (State.ghRekey_exhausted hs scope he)), fun hs => rekey.trans (congrArg _ (State.ghRekey_elsewhere hs)),
    fun hk => confirm.trans (congrArg _ (State.ghConfirm_unstaged hk)),
    fun k c hk hs scope hc wrong => confirm.trans (congrArg _ (State.ghConfirm_wrong hk hs scope hc wrong)),
    fun k c hk hs scope hc hl right => ⟨_, confirm, ?confirmed⟩, fun hf hl => ⟨_, retire, ?retired⟩,
    fun hf => retire.trans (congrArg _ (State.ghRetire_field hf)),
    fun hf hl => ⟨_, ship, ?shipped⟩, fun hf => ship.trans (congrArg _ (State.ghShip_elsewhere hf))⟩
  · exact chal.trans (by rw [State.ghChal_session hl, free]; rfl)
  · exact chal.trans (by rw [State.ghChal_session hl, locked]; rfl)
  · exact (gateOpen scope).trans (by rw [State.ghOpen_answered hf h0 hc hk, parts, held]; rfl)
  case right =>
    have barred : (scope.getLsbD 1 && s.partsHeld) = false := Bool.and_eq_false_iff.mpr may
    exact (gateOpen scope).trans (by rw [State.ghOpen_answered hf h0 hc hk, barred, bne_eq_false_iff_eq.mpr right]; rfl)
  case wrong =>
    have barred : (scope.getLsbD 1 && s.partsHeld) = false := Bool.and_eq_false_iff.mpr may
    exact (gateOpen scope).trans (by rw [State.ghOpen_answered hf h0 hc hk, barred, bne_iff_ne.mpr wrong]; rfl)
  case confirmed =>
    cases ok : Config.flashOk s.freeIx with
    | true =>
      have v := State.ghConfirm_gateView_written hk hs scope hc right hl ok
      exact ⟨congrArg Gate.staged v, congrArg Gate.chal v, congrArg Gate.resp v,
        fun _ => ⟨congrArg Gate.eOwn v, congrArg Gate.eOwnFuse v, congrArg Gate.life v, congrArg Gate.result v⟩, nofun⟩
    | false =>
      have v := State.ghConfirm_gateView_failed hk hs scope hc right hl ok
      exact ⟨congrArg Gate.staged v, congrArg Gate.chal v, congrArg Gate.resp v, nofun,
        fun _ => ⟨(congrArg Gate.eOwn v :), (congrArg Gate.eOwnFuse v :), (congrArg Gate.life v).trans hs, congrArg Gate.result v⟩⟩
  case retired =>
    cases kept : (s.svc 0x0007).drainLedger.lg.queue.any fun q => q.code = 0x0007 && !q.host with
    | true =>
      have v := State.ghRetire_kept hf hl kept
      exact ⟨congrArg Gate.resp v, nofun, fun _ => ⟨(congrArg Gate.life v).trans hf, (congrArg Gate.lc v :), congrArg Gate.result v⟩⟩
    | false =>
      obtain ⟨v, hdrA, hdrB⟩ := State.ghRetire_done hf hl kept
      exact ⟨congrArg Gate.resp v, fun _ => ⟨congrArg Gate.life v, congrArg Gate.lc v, hdrA, hdrB, congrArg Gate.result v⟩, nofun⟩
  case shipped =>
    cases ok : Config.flashOk s.freeIx with
    | true =>
      have v := State.ghShip_written hf hl ok
      exact ⟨congrArg Gate.resp v, fun _ => ⟨congrArg Gate.life v, congrArg Gate.lc v, congrArg Gate.eOwn v, congrArg Gate.eOwnFuse v, congrArg Gate.keyOk v,
        congrArg Gate.thermFuse v, congrArg Gate.result v⟩, nofun⟩
    | false =>
      have v := State.ghShip_failed hf hl ok
      exact ⟨congrArg Gate.resp v, nofun, fun _ => ⟨(congrArg Gate.life v).trans hf, (congrArg Gate.lc v :), (congrArg Gate.eOwn v :), congrArg Gate.result v⟩⟩

end Sys2Proof.Machine
end

section
/-!
SUPPORT. The fuses that BLANK burns (R360, R367), and the timers of the Gatehouse (R360, R361, R364).
-/

namespace Sys2Proof.Machine

variable {s : State}

-- FUSE_ID and FUSE_KEY.

theorem State.ghFuseId_elsewhere (h : s.gate.life ≠ .blank) : s.ghFuseId = s.ghEnd 4 := if_pos (by rw [bne_iff_ne.mpr h]; rfl)

/-- R360: an ID of all zeros or all ones is none. -/
theorem State.ghFuseId_burned (h : s.gate.life = .blank) (h0 : s.gate.resp.extractLsb' 0 64 ≠ 0) (h1 : s.gate.resp.extractLsb' 0 64 ≠ BitVec.allOnes 64) :
    s.ghFuseId =
      (s.modGate fun g => { g with hwidFuse := g.hwidFuse ||| g.resp.extractLsb' 0 64, hwid := g.hwidFuse ||| g.resp.extractLsb' 0 64 }).ghEnd 0 := by
  have low : s.gate.resp.setWidth 64 = s.gate.resp.extractLsb' 0 64 := BitVec.setWidth_eq_extractLsb' (by decide)
  unfold State.ghFuseId
  rw [low, h]
  dsimp only
  rw [decide_eq_false h0, decide_eq_false h1]
  rfl

/-- R367: every sector is erased before the key is burned. -/
def State.formatted (s : State) : State := (List.range (2048 * 2 ^ (s.lg.cfg.extractLsb' 1 3).toNat)).foldl State.lgErase s

/-- R360, R367: the key and the addressing are burned, and the ledger begins anew. -/
def State.keyBurned (s : State) : State :=
  (s.modGate fun g => { g with devKey := g.devKey ||| g.resp, lgcfgFuse := s.lg.cfg.setWidth 8, lc := setBit g.lc 0, life := .factory }).modLg fun l => { l with
    journal := [], jPos := 0, log := [], hdrA := none, hdrB := none, erasing := none, job := none, queue := [], odoDue := false
    seq := 0, chain := 0, odo := {}, odoAt := 0, ready := true, scanning := false, svcFull := false }

theorem State.formatted_gate : s.formatted.gate = s.gate := foldl_keeps (g := State.gate) _ fun _ _ => rfl

theorem State.ghFuseKey_elsewhere (h : s.gate.life ≠ .blank) : s.ghFuseKey = s.ghEnd 4 := if_pos (by rw [bne_iff_ne.mpr h]; rfl)

theorem State.ghFuseKey_noId (h : s.gate.hwidFuse = 0) : s.ghFuseKey = s.ghEnd 4 := if_pos (by rw [decide_eq_true h, Bool.or_true, Bool.true_or])

section Format

variable (h : s.gate.life = .blank) (hid : s.gate.hwidFuse ≠ 0) (hcfg : s.lg.cfgWritten = true)

include h hid hcfg

theorem State.ghFuseKey_named : ¬(s.gate.life != .blank || s.gate.hwidFuse = 0 || !s.lg.cfgWritten) = true := by
  rw [h, decide_eq_false hid, hcfg]
  decide

theorem State.ghFuseKey_absent (ha : s.lg.absent = true) : s.ghFuseKey = s.ghEnd 7 :=
  (if_neg (State.ghFuseKey_named h hid hcfg)).trans (if_pos ha)

theorem State.ghFuseKey_formats (ha : s.lg.absent = false) : ∃ note, s.ghFuseKey = (s.formatted.keyBurned.svc 0x0001 note).ghEnd 0 :=
  ⟨_, (if_neg (State.ghFuseKey_named h hid hcfg)).trans (if_neg (ne_true_of_eq_false ha))⟩

/-- R367: what the format leaves: FACTORY, the key, and an empty ledger. -/
theorem State.ghFuseKey_factory (ha : s.lg.absent = false) : s.ghFuseKey.gate.life = .factory ∧ s.ghFuseKey.gate.devKey = s.gate.devKey ||| s.gate.resp ∧
    s.ghFuseKey.gate.lc = setBit s.gate.lc 0 ∧ s.ghFuseKey.lg.ready = true ∧ s.ghFuseKey.lg.journal = [] ∧ s.ghFuseKey.lg.log = [] ∧
    s.ghFuseKey.gate.result = 0 := by
  obtain ⟨note, formats⟩ := State.ghFuseKey_formats h hid hcfg ha
  have v : (s.formatted.keyBurned.svc 0x0001 note).flashView = s.formatted.keyBurned.flashView := State.svc_flashView ..
  rw [formats, ← State.formatted_gate (s := s)]
  exact ⟨congrArg (fun v => v.gate.life) v, congrArg (fun v => v.gate.devKey) v, congrArg (fun v => v.gate.lc) v,
    congrArg FlashView.ready v, congrArg FlashView.journal v, congrArg FlashView.log v, rfl⟩

end Format

-- The timers.

theorem execChalDrawn_drawing (ha : s.alive = true) (h : s.gate.drawing = true) : execChalDrawn s = .next (s.drew.modGate fun g => { g with
    drawing := false, chal := some (Config.challenge s.freeIx), chalAt := s.tick }) := (whenAlive_alive ha).trans (congrArg _ (if_pos h))

theorem execChalDrawn_idle (ha : s.alive = true) (h : s.gate.drawing = false) : execChalDrawn s = .next s :=
  (whenAlive_alive ha).trans (congrArg _ (if_neg (ne_true_of_eq_false h)))

/-- R361: a challenge ends 300 s after its issue. -/
theorem execChalExpire_due (ha : s.alive = true) (hc : s.gate.chal ≠ none) (due : tickLe (s.gate.chalAt + 300000000000) s.tick = true) :
    execChalExpire s = .next (s.modGate fun g => { g with chal := none }) :=
  (whenAlive_alive ha).trans (congrArg _ (if_pos (Bool.and_eq_true_iff.mpr ⟨Option.isSome_iff_ne_none.mpr hc, due⟩)))

theorem execChalExpire_early (ha : s.alive = true) (early : tickLe (s.gate.chalAt + 300000000000) s.tick = false) : execChalExpire s = .next s :=
  (whenAlive_alive ha).trans (congrArg _ (if_neg (ne_true_of_eq_false (Bool.and_eq_false_iff.mpr (.inr early)))))

/-- R360: a session ends eight hours after its opening. -/
theorem execSessionTimeLimit_due (ha : s.alive = true) (hl : s.gate.life = .service) (due : tickLe (s.gate.openedAt + 28800000000000) s.tick = true) :
    execSessionTimeLimit s = .next ((s.svc 0x0004 2).endSession .field) :=
  (whenAlive_alive ha).trans (congrArg _ (if_pos (Bool.and_eq_true_iff.mpr ⟨beq_iff_eq.mpr hl, due⟩)))

theorem execSessionTimeLimit_elsewhere (ha : s.alive = true) (hl : s.gate.life ≠ .service) : execSessionTimeLimit s = .next s :=
  (whenAlive_alive ha).trans (congrArg _ (if_neg (ne_true_of_eq_false (Bool.and_eq_false_iff.mpr (.inl (beq_eq_false_iff_ne.mpr hl))))))

/-- R364: the lockout of the fourth failure ends after 60 s. -/
theorem execLockoutEnd_due (ha : s.alive = true) (locked : s.gate.locked = true) (few : s.gate.fails.toNat < 8)
    (due : tickLe (s.gate.lockedAt + 60000000000) s.tick = true) : execLockoutEnd s = .next (s.modGate fun g => { g with locked := false }) :=
  (whenAlive_alive ha).trans (congrArg _ (if_pos (Bool.and_eq_true_iff.mpr ⟨Bool.and_eq_true_iff.mpr ⟨locked, decide_eq_true few⟩, due⟩)))

/-- R364: that of the eighth stays. -/
theorem execLockoutEnd_stays (ha : s.alive = true) (many : 8 ≤ s.gate.fails.toNat) : execLockoutEnd s = .next s := by
  refine (whenAlive_alive ha).trans (congrArg _ (if_neg ?_))
  rw [decide_eq_false many.not_gt, Bool.and_false, Bool.false_and]
  decide

end Sys2Proof.Machine
end

section
/-!
The statement of the fuses and the Gatehouse's timers.
-/

namespace Sys2Proof.Machine

/-- Settles O55: the fuses by the lifecycle and what has been burned, each timer by what it waits for. -/
theorem fusesAndGateTimers : Obligations.FusesAndGateTimers := by
  unfold Obligations.FusesAndGateTimers
  intro s
  refine ⟨fun hw => ?fuses, fun ha => ⟨execChalDrawn_drawing ha, execChalDrawn_idle ha, execChalExpire_due ha, execChalExpire_early ha,
    execSessionTimeLimit_due ha, execSessionTimeLimit_elsewhere ha, execLockoutEnd_due ha, execLockoutEnd_stays ha⟩⟩
  case fuses =>
    have fuseId : execFuseId s = .next s.ghFuseId := onReg_writable hw
    have fuseKey : execFuseKey s = .next s.ghFuseKey := onReg_writable hw
    exact ⟨fun hb h0 h1 => fuseId.trans (congrArg _ (State.ghFuseId_burned hb h0 h1)),
      fun hb => ⟨fuseId.trans (congrArg _ (State.ghFuseId_elsewhere hb)), fuseKey.trans (congrArg _ (State.ghFuseKey_elsewhere hb))⟩,
      fun _ noId => fuseKey.trans (congrArg _ (State.ghFuseKey_noId noId)),
      fun hb hid hcfg absent => fuseKey.trans (congrArg _ (State.ghFuseKey_absent hb hid hcfg absent)),
      fun hb hid hcfg answers => ⟨_, fuseKey, State.ghFuseKey_factory hb hid hcfg answers⟩⟩

end Sys2Proof.Machine
end

section
/-!
SUPPORT. What lets a node leave the safe state (R338): of the operations that reach beyond the key of the state, none but the resets and the loss
of the supply.
-/

namespace Sys2Proof.Machine

/-- A node that is in the safe state in `s` is in it in `t`. -/
def StaysSafe (s t : State) : Prop := s.fc.safe = true → t.fc.safe = true

variable {s t u : State}

theorem StaysSafe.refl : StaysSafe s s := id

theorem StaysSafe.trans (h : StaysSafe s t) (g : StaysSafe t u) : StaysSafe s u := g ∘ h

theorem StaysSafe.of_key (h : t.key = s.key) : StaysSafe s t := (safe_of_key h).trans

theorem StaysSafe.ite {c : Prop} [Decidable c] (h : StaysSafe s t) (g : StaysSafe s u) : StaysSafe s (if c then t else u) := by split <;> assumption

theorem StaysSafe.foldl {α : Type} {f : State → α → State} {l : List α} (h : ∀ s a, StaysSafe s (f s a)) : StaysSafe s (l.foldl f s) := by
  induction l generalizing s with
  | nil => exact .refl
  | cons a r ih => exact (h s a).trans ih

theorem StaysSafe.modPw {f : Power → Power} : StaysSafe s (s.modPw f) := id

theorem State.imageWrite_staysSafe {core : Bool} {ofs : Nat} {data : BitVec 512} : StaysSafe s (s.imageWrite core ofs data) :=
  .ite (.foldl fun _ _ => .modPw) (.of_key (State.raiseNow_key ..))

theorem State.fwFail_staysSafe {cause : BitVec 4} : StaysSafe s (s.fwFail cause) :=
  .trans (.trans (.foldl fun _ _ => State.imageWrite_staysSafe) (.foldl fun _ _ => State.imageWrite_staysSafe))
    (.of_key ((State.dropImageReads_key _).trans (State.modFw_key ..)))

theorem State.fwInvalid_staysSafe {cause : Nat} : StaysSafe s (s.fwInvalid cause) := .trans State.fwFail_staysSafe (.of_key (State.raiseNow_key ..))

theorem State.fwReadError_staysSafe {why ofs : Nat} : StaysSafe s (s.fwReadError why ofs) :=
  .ite (.trans State.fwFail_staysSafe (.of_key (State.raiseNow_key ..))) .refl

theorem State.imageRead_staysSafe {core : Bool} {ofs : Nat} {data : BitVec 512} : StaysSafe s (s.imageRead core ofs data) := by
  have stored (f : Firmware → Firmware) : StaysSafe s (s.modFw f) := .of_key (State.modFw_key ..)
  have written (t : State) (h : StaysSafe s t) : StaysSafe s (if ofs ≥ 128 then t.imageWrite core ofs data else t) :=
    .ite (h.trans State.imageWrite_staysSafe) h
  unfold State.imageRead
  refine .ite .refl (.ite ?_ (.ite ?_ ?_))
  · exact .trans (written _ (stored _)) State.fwInvalid_staysSafe
  · exact .trans (written _ (stored _)) (.of_key (State.modFw_key ..))
  · exact .trans (written _ (stored _)) (.of_key (State.imageFetch_key ..))

theorem State.domOff_staysSafe {d : Nat} : StaysSafe s (s.domOff d) := by
  unfold State.domOff
  split
  case h_1 => exact .of_key (State.orgOff_key _)
  case h_2 => exact .refl
  case h_3 => exact .of_key ((State.modTst_key ..).trans ((State.healthOff_key _).trans (State.fwReset_key _)))
  case h_4 => exact .trans State.fwReadError_staysSafe .refl
  case h_5 => exact .of_key (State.syncOff_key _)
  case h_6 => exact .of_key (State.combineOff_key _)
  case h_7 => exact .of_key (State.bandOff_key _)
  case h_8 => exact .of_key (State.belvedereOff_key _)
  case h_9 => exact .foldl fun _ _ => .of_key ((State.modPort_key ..).trans (State.portExit_key ..))

theorem State.modDom_staysSafe {d : Nat} {f : Domain → Domain} : StaysSafe s (s.modDom d f) := id

theorem State.startShut_staysSafe {d : Nat} : StaysSafe s (s.startShut d) := .trans State.domOff_staysSafe State.modDom_staysSafe

theorem State.domOn_staysSafe {d : Nat} : StaysSafe s (s.domOn d) := by
  unfold State.domOn
  exact .trans (.ite (.trans State.modDom_staysSafe (.of_key (State.modFw_key ..))) State.modDom_staysSafe) (.of_key (State.driveWin_key _))

theorem State.domFail_staysSafe {d cause : Nat} : StaysSafe s (s.domFail d cause) :=
  .trans (.trans State.domOff_staysSafe State.modDom_staysSafe) (.of_key (State.raiseNow_key ..))

theorem State.shedOne_staysSafe {d : Nat} : StaysSafe s (s.shedOne d) :=
  .ite (.trans State.modDom_staysSafe State.startShut_staysSafe) State.modDom_staysSafe

theorem State.enterPfail_staysSafe {t0 : Tick} : StaysSafe s (s.enterPfail t0) := by
  unfold State.enterPfail
  refine .trans (.trans ?_ (.foldl fun _ _ => .of_key (State.emit_key ..))) (.trans (.ite State.fwFail_staysSafe .refl) (.of_key (State.startJob_key _)))
  exact .trans (.of_key (State.grottoPfail_key s)) (.trans .modPw (.of_key
    ((State.silence_key _).trans ((State.driveWin_key _).trans ((State.lendFall_key ..).trans (State.raise_key ..))))))

theorem State.answered_staysSafe {r : HmReq} {data : BitVec 512} : StaysSafe s (s.answered r data) := by
  unfold State.answered
  split
  case h_9 => exact State.imageRead_staysSafe
  case h_1 => exact .of_key (State.doorbellRead_key ..)
  case h_2 => exact .of_key (State.entryRead_key ..)
  case h_3 => exact .of_key (State.recordWritten_key ..)
  case h_4 => exact .of_key (State.flushProd_key ..)
  case h_5 => exact .of_key (State.flushCons_key ..)
  case h_6 => exact .of_key (State.openHalf_key ..)
  case h_7 => exact .of_key (State.membersRead_key ..)
  case h_8 => exact .of_key (State.flushArea_key _)

theorem State.hmFailed_staysSafe {r : HmReq} {why : Nat} : StaysSafe s (s.hmFailed r why) := by
  unfold State.hmFailed
  split
  · exact State.fwReadError_staysSafe
  · exact .of_key (elim_key (fun _ => (State.readFailed_key ..).trans (State.haltRing_key ..)) rfl)

theorem State.recordFault_staysSafe {r : Report} {promoted : Bool} : StaysSafe s (s.recordFault r promoted) := fun h => by
  rw [recordFault_safe, h, ite_self]

theorem State.collect_staysSafe {r : Report} : StaysSafe s (s.collect r) := fun h => by
  cases hc : s.fc.coalesces (s.fc.classify r) s.tick with
  | true => exact (safe_of_key (s := s.modFc _) (collect_coalesced hc)).trans h
  | false => rw [collect_safe hc, h, ite_self]

/-- What the safe state refuses (R337). -/
theorem StaysSafe.refused : StaysSafe s (if s.fc.safe then s.rpErr else u) := fun h => (congrArg (fun x : State => x.fc.safe) (if_pos h)).trans h

theorem State.writeFcClr_staysSafe {w : Word} : StaysSafe s (s.writeFcClr w) :=
  .trans (.ite (t := (s.modFc _).driveErr) id .refl) (.of_key (State.rpOk_key ..))

/-- R337: of the writes to the window, the safe state accepts FC_CLR and FC_HIST_SEL. -/
theorem State.writeReg_staysSafe {a : Nat} {w : Word} : StaysSafe s (s.writeReg a w) := by
  unfold State.writeReg State.writeFaults
  exact .ite .refused (.ite (.ite State.writeFcClr_staysSafe (.ite id .refused)) .refused)

-- The commands.

/-- A command after which a node in the safe state is still in it. -/
def LeavesSafe (s : State) (r : Result) : Prop := ∀ t, r = .next t → StaysSafe s t

theorem LeavesSafe.next (h : StaysSafe s t) : LeavesSafe s (.next t) := by
  rintro _ ⟨⟩
  exact h

theorem LeavesSafe.fault : LeavesSafe s (.fault .absentUnit) := by
  intro t h
  cases h

theorem whenAlive_leavesSafe {f : State → State} (h : StaysSafe s (f s)) : LeavesSafe s (whenAlive s f) := .next (.ite h .refl)

/-- R337: a node in the safe state refuses the write. -/
theorem onReg_leavesSafe {d : Nat} {f : State → State} : LeavesSafe s (onReg d s f) := by
  refine .next fun h => ?_
  have refuses : s.regOk d = false := by simp only [State.regOk, h, Bool.not_true, Bool.and_false, Bool.false_and]
  rw [refuses]
  exact StaysSafe.ite (.of_key (State.rpErr_key s)) .refl h

theorem execLoad_leavesSafe : LeavesSafe s (execLoad s) := onReg_leavesSafe

theorem execPdEnWrite_leavesSafe {d : BitVec 6} {en : Bool} : LeavesSafe s (execPdEnWrite d en s) := by
  unfold execPdEnWrite
  exact onReg_leavesSafe

theorem execBistGo_leavesSafe {w : Word} : LeavesSafe s (execBistGo w s) := by
  unfold execBistGo
  exact onReg_leavesSafe

theorem execFcInjSelf_leavesSafe {w : Word} : LeavesSafe s (execFcInjSelf w s) := by
  unfold execFcInjSelf
  exact onReg_leavesSafe

theorem onSafeReg_leavesSafe {f : State → State} (h : StaysSafe s (f s)) : LeavesSafe s (onSafeReg s f) :=
  .next (.ite (.ite h (.of_key (State.rpErr_key s))) .refl)

theorem onDom_leavesSafe {d : Nat} {f : State → State} (h : StaysSafe s (f s)) : LeavesSafe s (onDom d s f) := by
  unfold onDom
  split
  · exact whenAlive_leavesSafe h
  · exact .fault

theorem onDomPin_leavesSafe {d : Nat} {f : Domain → Domain} : LeavesSafe s (onDomPin d s fun s => s.modDom d f) := by
  unfold onDomPin
  split
  · exact .next (.ite State.modDom_staysSafe .refl)
  · exact .fault

theorem execFcClr_leavesSafe {w : Word} : LeavesSafe s (execFcClr w s) := by
  unfold execFcClr
  exact onSafeReg_leavesSafe State.writeFcClr_staysSafe

theorem execRegisterWrite_leavesSafe {a : BitVec 18} {w : Word} : LeavesSafe s (execRegisterWrite a w s) := by
  unfold execRegisterWrite
  exact onSafeReg_leavesSafe State.writeReg_staysSafe

/-- A release of a reset that does not stand changes no more than levels of the pins (R45). -/
theorem resetReleases_leaveSafe (hup : s.isUp = true) {k : BitVec 3} :
    LeavesSafe s (execRstColdRelease k s) ∧ LeavesSafe s (execRstWarmRelease s) ∧ LeavesSafe s (execCkXoEdgesCounted s) := by
  simp only [State.isUp, Bool.and_eq_true, beq_iff_eq] at hup
  obtain ⟨powered, out⟩ := hup
  refine ⟨.next ?_, .next ?_, .next ?_⟩
  · simp only [powered, out]
    exact .refl
  · simp only [State.modPins_pins, out]
    exact id
  · simp only [State.modPins_pins, out]
    exact .ite id .refl

theorem execFaultReport_leavesSafe {src : ReportSrc} : LeavesSafe s (execFaultReport src s) := by
  refine whenAlive_leavesSafe ?_
  split
  · exact State.collect_staysSafe
  · split
    next => exact .refl
    next rest _ => exact .trans (t := s.modFc fun f => { f with inbox := rest }) id State.collect_staysSafe

theorem execPwPdAckRise_leavesSafe {d : BitVec 6} : LeavesSafe s (execPwPdAckRise d s) := by
  unfold execPwPdAckRise
  split
  · exact onDomPin_leavesSafe
  · refine onDom_leavesSafe (.ite .refl (.ite State.modDom_staysSafe ?_))
    exact .trans (t := s.modDom d.toNat _) State.modDom_staysSafe (.ite .refl (.ite State.domOn_staysSafe State.modDom_staysSafe))

theorem execPwPdAckFall_leavesSafe {d : BitVec 6} : LeavesSafe s (execPwPdAckFall d s) := by
  unfold execPwPdAckFall
  split
  · exact onDomPin_leavesSafe
  · refine onDom_leavesSafe (.ite .refl ?_)
    exact .trans (t := s.modDom d.toNat _) State.modDom_staysSafe (.ite State.domFail_staysSafe (.ite (.trans State.modDom_staysSafe (.of_key (State.domIsOff_key ..))) .refl))

theorem execHmResponse_leavesSafe {tag : BitVec 6} {err : Bool} {data : BitVec 512} : LeavesSafe s (execHmResponse tag err data s) := by
  refine whenAlive_leavesSafe (.ite .refl ?_)
  split
  · exact .of_key ((State.hmNext_key _).trans (State.modEng_key ..))
  · exact .trans (.trans (.of_key (State.modEng_key ..)) (.ite State.hmFailed_staysSafe State.answered_staysSafe)) (.of_key (State.hmNext_key _))

theorem execHmTimeout_leavesSafe {tag : BitVec 6} : LeavesSafe s (execHmTimeout tag s) := by
  refine whenAlive_leavesSafe ?_
  split
  · exact .refl
  · exact .ite (.trans (.trans (.of_key (State.modEng_key ..)) State.hmFailed_staysSafe) (.of_key (State.hmNext_key _))) .refl

theorem execFwVerifyDone_leavesSafe : LeavesSafe s (execFwVerifyDone s) :=
  whenAlive_leavesSafe (.ite .refl (.ite (.of_key (State.modFw_key ..)) (.trans State.fwFail_staysSafe (.of_key (State.raiseNow_key ..)))))

theorem execPfailAssert_leavesSafe : LeavesSafe s (execPfailAssert s) := by
  refine whenAlive_leavesSafe ?_
  split
  · exact .ite State.enterPfail_staysSafe .refl
  · exact .refl

theorem execPfailRingDrainEnd_leavesSafe : LeavesSafe s (execPfailRingDrainEnd s) := by
  refine whenAlive_leavesSafe (.ite (.trans (t := s.hush.modPw _) ?_ (.ite (.foldl fun _ _ => State.shedOne_staysSafe) .refl)) .refl)
  exact .trans (.of_key (State.hush_key s)) .modPw

end Sys2Proof.Machine
end

section
/-!
The statement of the safe state.
-/

namespace Sys2Proof.Machine

/-- Settles O8: outside `reachesKey` a command leaves the key alone; of the others none but the resets and the loss of the supply leave the safe
state of a node, which the invariant says to be up. -/
theorem onlyResetLeavesSafeState : Obligations.OnlyResetLeavesSafeState := by
  unfold Obligations.OnlyResetLeavesSafeState
  intro c s t hinv hsafe h hleft
  obtain ⟨-, -, -, up, -, -⟩ := hinv
  have releases (k : BitVec 3) := resetReleases_leaveSafe (up hsafe) (k := k)
  have contra {P : Prop} (hl : LeavesSafe s (exec c s)) : P := by
    have stays := hl t h hsafe
    rw [hleft] at stays
    cases stays
  by_cases hc : reachesKey c = false
  · exact contra fun t h => .of_key (exec_still c hc t h)
  cases c with
  | rstAssert k => exact .inl ⟨k, rfl⟩
  | vddGyOff => exact .inr rfl
  | rstColdRelease xo => exact contra (releases xo).1
  | rstWarmRelease => exact contra (releases 0).2.1
  | ckXoEdgesCounted => exact contra (releases 0).2.2
  | pfailAssert => exact contra execPfailAssert_leavesSafe
  | pfailRingDrainEnd => exact contra execPfailRingDrainEnd_leavesSafe
  | hmResponse => exact contra execHmResponse_leavesSafe
  | hmTimeout => exact contra execHmTimeout_leavesSafe
  | fwVerifyDone => exact contra execFwVerifyDone_leavesSafe
  | faultReport => exact contra execFaultReport_leavesSafe
  | collectorSelfFault => exact contra (whenAlive_leavesSafe fun _ => (selfFault_fields s).1)
  | pwPdAckRise => exact contra execPwPdAckRise_leavesSafe
  | pwPdAckFall => exact contra execPwPdAckFall_leavesSafe
  | powerDomainTimeout => exact contra (onDom_leavesSafe (.ite State.domFail_staysSafe .refl))
  | bankClearDone => exact contra (onDom_leavesSafe (.ite (.trans (.foldl fun _ _ => .modPw) State.domOn_staysSafe) .refl))
  | load => exact contra execLoad_leavesSafe
  | pdEnWrite => exact contra execPdEnWrite_leavesSafe
  | bistGo => exact contra execBistGo_leavesSafe
  | fcInjSelf => exact contra execFcInjSelf_leavesSafe
  | fcClr => exact contra execFcClr_leavesSafe
  | registerWrite => exact contra execRegisterWrite_leavesSafe
  | _ => exact absurd rfl hc

end Sys2Proof.Machine
end

section
/-!
SUPPORT. What a reset leaves of the banks, of the ports and of the rings.
-/

namespace Sys2Proof.Machine

/-- A memory that nothing has written or tested reads zero throughout (R352). -/
theorem Power.read_untouched {p : Power} (hm : p.mem = []) (hs : p.scrambled = []) (a : Nat) : p.read a = 0 := by
  simp only [Power.read, Power.unlisted, hm, hs, List.find?_nil, Option.elim_none]

theorem resetOf_read (f : Profile) (a : Nat) : (State.resetOf f).pw.read a = 0 := Power.read_untouched rfl rfl a

/-- R82: no port is enabled. -/
theorem resetOf_ports (f : Profile) : ∀ q ∈ (State.resetOf f).ports, q.st = .disabled ∧ q.en = false := by
  intro q hq
  obtain ⟨-, rfl⟩ := List.mem_replicate.mp hq
  exact ⟨rfl, rfl⟩

/-- R297: no ring is enabled. -/
theorem resetOf_rings (f : Profile) : ∀ r ∈ (State.resetOf f).eng.rings, r.en = false := by
  intro r hr
  obtain ⟨-, rfl⟩ := List.mem_replicate.mp hr
  rfl

end Sys2Proof.Machine
end

section
/-!
The statement of the reset state.
-/

namespace Sys2Proof.Machine

/-- Settles O3: the tables hold copies of an idle entry, the banks hold nothing, and each other field has the value that the reset writes. -/
theorem resetLeavesNothingRunning : Obligations.ResetLeavesNothingRunning := by
  unfold Obligations.ResetLeavesNothingRunning
  exact ⟨rfl, rfl, rfl, List.length_replicate, resetOf_ports .leaf, rfl, rfl, rfl, rfl, rfl, resetOf_rings .leaf, List.length_replicate, rfl, rfl, rfl,
    rfl, rfl, rfl, resetOf_read .leaf, rfl, rfl⟩

end Sys2Proof.Machine
end

section
/-!
SUPPORT. The ends of the resets (R41, R45, R61, R62, R334, R388): by whether ck_xo runs and whether the other reset input is still low.
-/

namespace Sys2Proof.Machine

variable {s t : State} {k : BitVec 3}

/-- The pins of a block whose resets are over. -/
def Pins.released (p : Pins) (valid : Bool) : Pins :=
  { p with rst := .none, edgesOwed := false, hmRunning := true, flHalt := false, flErrP := valid, flErrN := !valid }

theorem State.outOfReset_pins : s.outOfReset.pins = s.pins.released s.fc.valid := rfl

theorem State.coldStart_pins : s.coldStart.pins = s.pins.released s.fc.valid := rfl

/-- R61, R62: what the pins show once a reset is over. -/
theorem released_fields {v : Bool} (hp : s.pins.powered = true) (h : t.pins = s.pins.released v) :
    t.alive = true ∧ t.pins.xoSel = s.pins.xoSel ∧ t.pins.hmRunning = true ∧ t.pins.flHalt = false ∧ t.pins.flErrP = v ∧ t.pins.flErrN = !v := by
  simp [State.alive, h, Pins.released, hp]

/-- R334: a record whose pairs agree is kept. -/
theorem State.warmStart_agrees (h : s.fc.torn = false) : s.warmStart = s.outOfReset := congrArg State.outOfReset (if_neg (ne_true_of_eq_false h))

/-- R334: one whose pairs disagree is lost. -/
theorem State.warmStart_torn (h : s.fc.torn = true) : s.warmStart = State.outOfReset (s.modFc fun f => { f with
    first := cpair 0, firstT := cpair 0, ovf := cpair 0, hist := [], recLost := true }) := congrArg State.outOfReset (if_pos h)

theorem State.endCold_waits (h : s.pins.warmLow = true) : s.endCold = s := if_pos (by rw [h, Bool.or_true])

section

variable (hc : s.pins.coldLow = false) (hw : s.pins.warmLow = false)

include hc hw

theorem State.endCold_starts (hx : s.pins.xoRunning = true) : s.endCold = s.coldStart :=
  (if_neg (by rw [hc, hw]; decide)).trans (if_pos hx)

theorem State.endCold_counts (hx : s.pins.xoRunning = false) : s.endCold = s.modPins fun p => { p with edgesOwed := true } :=
  (if_neg (by rw [hc, hw]; decide)).trans (if_neg (ne_true_of_eq_false hx))

end

/-- The block in the cold reset from which rst_cold_n has risen: the strap is sampled. -/
def State.strapped (s : State) (k : BitVec 3) : State :=
  s.modPins fun p => { p with powered := true, rst := .cold, coldLow := false, xoSel := k, flErrP := false, flErrN := true, flHalt := true }

/-- The block once rst_warm_n has risen. -/
def State.warmRisen (s : State) : State := s.modPins fun p => { p with warmLow := false }

/-- The block whose ck_xo has begun to run. -/
def State.clocked (s : State) : State := s.modPins fun p => { p with xoRunning := true }

theorem execRstColdRelease_held (h : s.pins.rst = .cold) : execRstColdRelease k s = .next (s.strapped k).endCold :=
  congrArg _ (if_pos (by rw [h]; rfl))

theorem execRstWarmRelease_ofCold (hp : s.pins.powered = true) (hr : s.pins.rst = .cold) (hw : s.pins.warmLow = true) :
    execRstWarmRelease s = .next s.warmRisen.endCold :=
  congrArg _ (if_pos (by rw [State.modPins_pins, hp, hr, hw]; rfl))

theorem execRstWarmRelease_held (hp : s.pins.powered = true) (hr : s.pins.rst = .warm) (hx : s.pins.xoRunning = true) :
    execRstWarmRelease s = .next s.warmRisen.warmStart := by
  simp only [execRstWarmRelease, State.modPins_pins, hp, hr, hx]
  rfl

theorem execCkXoEdgesCounted_cold (hp : s.pins.powered = true) (he : s.pins.edgesOwed = true) (hr : s.pins.rst = .cold) :
    execCkXoEdgesCounted s = .next s.clocked.coldStart := by
  simp only [execCkXoEdgesCounted, State.modPins_pins, hp, he, hr]
  rfl

end Sys2Proof.Machine
end

section
/-!
The statement of the releases.
-/

namespace Sys2Proof.Machine

/-- Settles O14: each release by the reset that stands, by the other input and by ck_xo, a warm one by the collector's pairs. -/
theorem resetRelease : Obligations.ResetRelease := by
  unfold Obligations.ResetRelease
  intro s k hp
  refine ⟨fun ⟨hr, hw, hx⟩ => ?_, fun ⟨hr, hw, hx⟩ => ?_, fun ⟨hr, hw⟩ => ?_, fun ⟨hr, hc, hw, hx⟩ => ?_, fun ⟨hr, hx, agrees⟩ => ?_, fun ⟨hr, hx, torn⟩ => ?_,
    fun ⟨hr, he⟩ => ?_⟩
  · have release : execRstColdRelease k s = .next (s.strapped k).coldStart := by
      rw [execRstColdRelease_held hr, State.endCold_starts (s := s.strapped k) rfl hw hx]
    obtain ⟨alive, sel, hm, halt, errP, errN⟩ := released_fields (s := s.strapped k) rfl State.coldStart_pins
    exact ⟨_, release, alive, sel, hm, halt, errP, errN, rfl, rfl, rfl, rfl, rfl⟩
  · have release : execRstColdRelease k s = .next ((s.strapped k).modPins fun p => { p with edgesOwed := true }) := by
      rw [execRstColdRelease_held hr, State.endCold_counts (s := s.strapped k) rfl hw hx]
    exact ⟨_, release, rfl, rfl, rfl, rfl⟩
  · have release : execRstColdRelease k s = .next (s.strapped k) := by
      rw [execRstColdRelease_held hr, State.endCold_waits (s := s.strapped k) hw]
    exact ⟨_, release, rfl, rfl, rfl, rfl, rfl, rfl⟩
  · have release := execRstWarmRelease_ofCold hp hr hw
    rw [State.endCold_starts (s := s.warmRisen) hc rfl hx] at release
    obtain ⟨alive, -, -, halt, -, -⟩ := released_fields (s := s.warmRisen) hp State.coldStart_pins
    exact ⟨_, release, alive, halt, rfl, rfl⟩
  · have release := execRstWarmRelease_held hp hr hx
    rw [State.warmStart_agrees (s := s.warmRisen) agrees] at release
    obtain ⟨alive, sel, -, halt, errP, errN⟩ := released_fields (s := s.warmRisen) hp State.outOfReset_pins
    exact ⟨_, release, alive, sel, halt, errP, errN, rfl, rfl, rfl⟩
  · have release := execRstWarmRelease_held hp hr hx
    rw [State.warmStart_torn (s := s.warmRisen) torn] at release
    obtain ⟨alive, -, -, -, errP, -⟩ := released_fields (s := s.warmRisen.modFc _) hp State.outOfReset_pins
    exact ⟨_, release, alive, rfl, rfl, rfl, rfl, rfl, errP.trans BitVec.getLsbD_zero⟩
  · obtain ⟨alive, sel, -, -, -, -⟩ := released_fields (s := s.clocked) hp State.coldStart_pins
    exact ⟨_, execCkXoEdgesCounted_cold hp he hr, alive, rfl, sel, rfl, rfl⟩

end Sys2Proof.Machine
end

section
/-!
SUPPORT. The lock of the oscillator, the loss of the supply and the commands of a power failure (R39, R42, R57, R349 to R351, R373).
-/

namespace Sys2Proof.Machine

variable {s t : State}

theorem execOscLock_locks (ha : s.alive = true) (hs : s.sun.counting = false) (hx : s.xoOk = true) (hd : s.pdOn 1 = true) :
    execOscLock s = .next { s with sun := { s.sun with counting := true, now := 0 } } :=
  (whenAlive_alive ha).trans (congrArg _ (if_neg (by rw [hs, hx, hd]; decide)))

-- The loss of the supply.

/-- R351: a write that is cut off reaches the flash alone. -/
theorem State.cutFlash_keeps {α : Type} {g : State → α} (hl : ∀ t f, g (State.modLg t f) = g t) (hd : ∀ t, g (State.drew t) = g t) :
    g s.cutFlash = g s := by
  unfold State.cutFlash
  dsimp only
  split <;> split <;> simp only [hl, hd]

theorem State.cutFlash_gate : s.cutFlash.gate = s.gate := State.cutFlash_keeps (g := State.gate) (fun _ _ => rfl) fun _ => rfl

theorem State.cutFlash_pw : s.cutFlash.pw = s.pw := State.cutFlash_keeps (g := State.pw) (fun _ _ => rfl) fun _ => rfl

/-- The domains of an unpowered block: no acknowledgement is high. -/
def Power.noAck (p : Power) : Power := { p with doms := p.doms.map fun x => { x with ack := false } }

/-- R344: in a reset the acknowledgements follow what they were. -/
theorem domsInReset_ack {p : Power} {d : Nat} (h : (p.domsInReset.getD d {}).ack = true) : (p.doms.getD d {}).ack = true := by
  unfold Power.domsInReset at h
  cases hp : p.doms with
  | nil =>
    rw [hp] at h
    exact h
  | cons x r =>
    rw [hp] at h
    cases d with
    | zero => cases h
    | succ d =>
      simp only [List.getD_eq_getElem?_getD, List.getElem?_cons_succ, List.getElem?_map] at h ⊢
      cases hr : r[d]? with
      | none => rw [hr] at h; exact h
      | some y => rw [hr] at h; exact h

theorem noAck_ack {p : Power} {d : Nat} : (p.noAck.doms.getD d {}).ack = false := by
  simp only [Power.noAck, List.getD_eq_getElem?_getD, List.getElem?_map]
  cases p.doms[d]? <;> rfl

/-- R39, R351: the block without its supply. -/
def State.unpowered (s : State) : State :=
  (s.drew.modPw Power.noAck).coldClear (s.pins.unpowered ((Config.anyWord s.freeIx).getLsbD 0))

theorem execVddGyOff_powered (hp : s.pins.powered = true) : execVddGyOff s = .next s.unpowered := congrArg _ (if_pos hp)

theorem State.unpowered_gate : s.unpowered.gate = s.gate.fuses := congrArg Gate.fuses (State.cutFlash_gate (s := s.drew.modPw _))

theorem State.unpowered_ack {d : Nat} : (s.unpowered.dom d).ack = false := by
  cases h : (s.unpowered.dom d).ack with
  | false => rfl
  | true =>
    have low : (s.drew.modPw Power.noAck).cutFlash.pw = s.pw.noAck := State.cutFlash_pw
    have held := domsInReset_ack h
    rw [low, noAck_ack] at held
    cases held

-- Power failure.

theorem execPfailFirstHigh_counting (ha : s.alive = true) (hs : s.sun.counting = true) : execPfailFirstHigh s = .next { s with pins := { s.pins with
    pfail := true, pfailRun := some (s.pins.pfailRun.getD s.tick) } } := (whenAlive_alive ha).trans (congrArg _ (if_neg (by rw [hs]; decide)))

theorem execPwPfailLowSample_alive (ha : s.alive = true) :
    execPwPfailLowSample s = .next { s with pins := { s.pins with pfail := false, pfailRun := none } } := whenAlive_alive ha

theorem execPfailAssert_due {t0 : Tick} (ha : s.alive = true) (hr : s.pins.pfailRun = some t0) (hp : s.pw.pfail = false)
    (hd : tickLe (t0 + BitVec.ofNat 64 (8 * (s.pw.filt.toNat + 1))) s.tick = true) : execPfailAssert s = .next (s.enterPfail t0) := by
  refine (whenAlive_alive ha).trans (congrArg _ ?_)
  rw [hr]
  exact if_pos (by rw [hp]; exact hd)

/-- R350: 100 µs after the assertion, or once everything has been written. -/
theorem execPfailRingDrainEnd_ends (ha : s.alive = true) (hp : s.pw.pfail = true) (hd : s.pw.drained = false) (hs : s.pw.shed = false)
    (h : tickLe (s.pw.pfailAt + 100000) s.tick = true ∨ s.fc.inbox = [] ∧ s.eng.busy = false) :
    execPfailRingDrainEnd s = .next (s.hush.modPw fun p => { p with drained := true }) := by
  have ends : (s.pw.pfail && !s.pw.drained && (s.isDue (s.pw.pfailAt + 100000) || (s.fc.inbox.isEmpty && !s.eng.busy))) = true := by
    rw [hp, hd]
    rcases h with due | ⟨none, idle⟩
    · rw [State.isDue, due]
      rfl
    · rw [none, idle]
      exact Bool.or_true _
  exact (whenAlive_alive ha).trans (congrArg _ ((if_pos ends).trans (if_neg (ne_true_of_eq_false hs))))

/-- R373: the end of a record is the Grotto's own matter. -/
theorem State.recordDone_odo_keeps {α : Type} {g : State → α} (hl : ∀ t f, g (State.modLg t f) = g t) (ho : ∀ t f, g (State.modOut t f) = g t) {pf : Bool} :
    g (s.recordDone (.odo pf)) = g s := by
  have read (addr : Nat) : g (s.lgRead addr) = g s := ho ..
  have erased (x : State) (k : Nat) : g (x.lgErase k) = g x := (ho ..).trans ((ho ..).trans (ho ..))
  unfold State.recordDone State.tookPage
  refine (hl ..).trans (ite_keeps (elim_keeps ?_ fun k => (erased ..).trans ?_) ?_) <;> exact (hl ..).trans (read _)

theorem execPfailCommitDone_commits (ha : s.alive = true) (hp : s.pw.pfail = true) (hj : s.lg.job = some (.odo true)) : execPfailCommitDone s =
    .next (((s.recordDone (.odo true)).modLg fun l => { l with sealed := true }).modPw fun p => { p with committed := true }) :=
  (whenAlive_alive ha).trans (congrArg _ (if_pos (by rw [hp, hj]; rfl)))

end Sys2Proof.Machine
end

section
/-!
The statement of the supply and of the power failure.
-/

namespace Sys2Proof.Machine

/-- Settles O15: each command in the state that it waits for; what the supply takes with it is everything but the fuses and the flash. -/
theorem supplyAndPowerFailure : Obligations.SupplyAndPowerFailure := by
  unfold Obligations.SupplyAndPowerFailure
  refine ⟨fun s => ⟨fun ⟨ha, hs, hx, hd⟩ => execOscLock_locks ha hs hx hd, rfl, fun hp => ⟨_, execVddGyOff_powered hp, rfl, rfl, rfl, rfl, rfl, rfl, rfl, rfl,
      State.unpowered_gate, fun d => State.unpowered_ack, rfl, Power.read_untouched rfl rfl⟩⟩,
    fun s ha => ⟨execPfailFirstHigh_counting ha, execPwPfailLowSample_alive ha, fun t0 => execPfailAssert_due ha,
      fun ⟨hp, hd, hs, h⟩ => execPfailRingDrainEnd_ends ha hp hd hs h, fun ⟨hp, hj⟩ => ⟨_, execPfailCommitDone_commits ha hp hj, rfl, rfl, ?_, ?_, ?_⟩⟩⟩
  · exact congrArg (fun p : Power => { p with committed := true }) (State.recordDone_odo_keeps (g := State.pw) (fun _ _ => rfl) fun _ _ => rfl)
  · exact State.recordDone_odo_keeps (g := State.pins) (fun _ _ => rfl) fun _ _ => rfl
  · exact State.recordDone_odo_keeps (g := State.fc) (fun _ _ => rfl) fun _ _ => rfl

end Sys2Proof.Machine
end

section
/-!
SUPPORT. The handshake of a power domain (R60, R342 to R346): what a change of a domain is, and what each event answers by req, ack and STATE.
-/

namespace Sys2Proof.Machine

variable {s : State} {d : Nat} {f g : Domain → Domain}

theorem State.modDom_modDom : (s.modDom d f).modDom d g = s.modDom d (g ∘ f) :=
  congrArg (fun l => State.modPw s fun p => { p with doms := l }) (List.modify_modify_eq ..)

theorem State.modDom_dom (h : d < s.pw.doms.length) : (s.modDom d f).dom d = f (s.dom d) := by
  simp [State.modDom, State.modPw, State.dom, List.getD_eq_getElem?_getD, h]

/-- A field that the change leaves alone. -/
theorem State.modDom_dom_field {α : Type} {v : Domain → α} (h : ∀ x, v (f x) = v x) : v ((s.modDom d f).dom d) = v (s.dom d) := by
  simp only [State.modDom, State.modPw, State.dom, List.getD_eq_getElem?_getD, List.getElem?_modify_eq]
  cases s.pw.doms[d]? with
  | none => rfl
  | some x => exact h x

/-- A domain beyond the table is OFF. -/
theorem dom_lt_of_held (h : (s.dom d).st ≠ .off) : d < s.pw.doms.length := by
  refine Nat.lt_of_not_le fun beyond => h ?_
  rw [State.dom, List.getD_eq_getElem?_getD, List.getElem?_eq_none beyond]
  rfl

theorem State.domIsOff_off (h : (s.dom d).en = false) : s.domIsOff d = s.modDom d fun x => { x with st := .off } := by
  have still : ((s.modDom d fun x => { x with st := .off }).dom d).en = false :=
    (State.modDom_dom_field (v := Domain.en) (f := fun x => { x with st := .off }) fun _ => rfl).trans h
  exact if_neg (ne_true_of_eq_false still)

/-- R346: a byte is cleared with its bank. -/
theorem foldl_clearBank_read (l : List Nat) (s : State) (a : Nat) : ((l.foldl (fun s k => State.modPw s fun p => p.clearBank k) s).pw.read a) =
    if a / 2 ^ 19 ∈ l then 0 else s.pw.read a := by
  induction l generalizing s with
  | nil => rfl
  | cons k l ih =>
    rw [List.foldl_cons, ih]
    by_cases hl : a / 2 ^ 19 ∈ l
    · rw [if_pos hl, if_pos (List.mem_cons_of_mem k hl)]
    · rw [if_neg hl]
      by_cases hk : a / 2 ^ 19 = k
      · rw [if_pos (List.mem_cons.mpr (.inl hk))]
        exact Power.read_clearBank _ hk
      · rw [if_neg (List.not_mem_cons_of_ne_of_not_mem hk hl)]
        exact Power.read_clearBank_ne _ hk

theorem foldl_clearBank_doms (l : List Nat) (s : State) : (l.foldl (fun s k => State.modPw s fun p => p.clearBank k) s).pw.doms = s.pw.doms :=
  foldl_keeps (g := fun s : State => s.pw.doms) l fun _ _ => rfl

theorem State.domOn_pw : (s.domOn d).pw = (s.modDom d fun x => { x with st := .on, clearing := false, wakes := satInc x.wakes }).pw := by
  unfold State.domOn State.driveWin
  exact ite_keeps (g := State.pw) (ite_keeps rfl rfl) (ite_keeps (g := State.pw) rfl rfl)

theorem State.domOn_dom : (s.domOn d).dom d = (s.modDom d fun x => { x with st := .on, clearing := false, wakes := satInc x.wakes }).dom d := by
  rw [State.dom, State.domOn_pw, State.dom]

-- The events of the handshake.

section Events

variable {d : BitVec 6} (ha : s.alive = true) (hd : s.hasDom d = true)

include hd in
theorem onDom_alive (ha : s.alive = true) {f : State → State} : onDom d.toNat s f = .next (f s) := (if_pos hd).trans (whenAlive_alive ha)

include ha hd

/-- R60: ack rises where req has asked for it. -/
theorem execPwPdAckRise_asked (hack : (s.dom d.toNat).ack = false) (hreq : (s.dom d.toNat).req = true) (hst : (s.dom d.toNat).st = .waking) :
    execPwPdAckRise d s = .next (if (s.domBanks d.toNat).isEmpty then (s.modDom d.toNat fun x => { x with ack := true, since := none }).domOn d.toNat
      else s.modDom d.toNat fun x => { x with ack := true, since := none, clearing := true }) := by
  unfold execPwPdAckRise
  rw [ha, onDom_alive hd ha]
  simp only [hack, hreq, hst, State.modDom_modDom]
  rfl

theorem execPwPdAckRise_late (hack : (s.dom d.toNat).ack = false) (hreq : (s.dom d.toNat).req = false) :
    execPwPdAckRise d s = .next (s.modDom d.toNat Domain.lateAck) := by
  unfold execPwPdAckRise
  rw [ha, onDom_alive hd ha]
  simp only [hack, hreq]
  rfl

/-- R344: ack falls after req. -/
theorem execPwPdAckFall_shut (hack : (s.dom d.toNat).ack = true) (hreq : (s.dom d.toNat).req = false) (hst : (s.dom d.toNat).st = .shutting)
    (hen : (s.dom d.toNat).en = false) : execPwPdAckFall d s = .next (s.modDom d.toNat fun x => { x with ack := false, since := none, st := .off }) := by
  unfold execPwPdAckFall
  rw [ha, onDom_alive hd ha]
  have low : ((s.modDom d.toNat fun x => { x with ack := false, since := none }).dom d.toNat).en = false :=
    (State.modDom_dom_field (v := Domain.en) (f := fun x => { x with ack := false, since := none }) fun _ => rfl).trans hen
  have off := (State.domIsOff_off low).trans State.modDom_modDom
  simp only [hack, hreq, hst, State.modDom_modDom]
  exact congrArg Host.Outcome.next off

/-- R345: ack falls while req is high. -/
theorem execPwPdAckFall_lost (hack : (s.dom d.toNat).ack = true) (hreq : (s.dom d.toNat).req = true) :
    execPwPdAckFall d s = .next ((s.modDom d.toNat fun x => { x with ack := false }).domFail d.toNat 2) := by
  unfold execPwPdAckFall
  rw [ha, onDom_alive hd ha]
  simp only [hack, hreq]
  rfl

theorem execPowerDomainTimeout_due {t : Tick} (hs : (s.dom d.toNat).since = some t) (due : tickLe (t + 1000001) s.tick = true) :
    execPowerDomainTimeout d s = .next (s.domFail d.toNat 1) :=
  (onDom_alive hd ha).trans (congrArg _ (if_pos (by rw [hs, Option.elim_some]; exact due)))

theorem execBankClearDone_clearing (hst : (s.dom d.toNat).st = .waking) (hc : (s.dom d.toNat).clearing = true) : execBankClearDone d s =
    .next (((s.domBanks d.toNat).foldl (fun s k => State.modPw s fun p => p.clearBank k) s).domOn d.toNat) :=
  (onDom_alive hd ha).trans (congrArg _ (if_pos (by rw [hst, hc]; rfl)))

/-- R346: the wake ends with the clear of the group's banks. -/
theorem execBankClearDone_wakes (hst : (s.dom d.toNat).st = .waking) (hc : (s.dom d.toNat).clearing = true) : ∃ t, execBankClearDone d s = .next t ∧
    (t.dom d.toNat).st = .on ∧ (t.dom d.toNat).clearing = false ∧ ∀ a, t.pw.read a = if a / 2 ^ 19 ∈ s.domBanks d.toNat then 0 else s.pw.read a := by
  have inTable : d.toNat < ((s.domBanks d.toNat).foldl (fun s k => State.modPw s fun p => p.clearBank k) s).pw.doms.length := by
    rw [foldl_clearBank_doms]
    exact dom_lt_of_held (by rw [hst]; decide)
  refine ⟨_, execBankClearDone_clearing ha hd hst hc, ?_, ?_, fun a => ?_⟩
  · rw [State.domOn_dom, State.modDom_dom inTable]
  · rw [State.domOn_dom, State.modDom_dom inTable]
  · rw [State.domOn_pw, ← foldl_clearBank_read]
    rfl

end Events

-- The writes of EN and of OWNER.

section Writes

variable (h1 : 1 < d) (hd : d < s.profile.domains) (hf : s.emptyDom d = false)

include h1 hd hf

/-- A write that changes EN of a switched domain, by what the change requires. -/
theorem State.writePdEn_moves {en : Bool} (hen : (s.dom d).en = !en) : s.writePdEn d en =
    if (if en then !((s.domNeeds d).all s.pdOn) else s.domHeld d) then s.rpErr
    else (if en && (s.dom d).st == .off then (s.modDom d fun x => { x with en := en }).startWake d
      else if !en && (s.dom d).st == .on then (s.modDom d fun x => { x with en := en }).startShut d else s.modDom d fun x => { x with en := en }).rpOk := by
  have moves : (decide (d ≤ 1) || s.emptyDom d || (s.dom d).en == en) = false := by
    rw [decide_eq_false h1.not_ge, hf, hen]
    cases en <;> rfl
  refine (if_neg hd.not_ge).trans (if_neg ?_)
  rw [moves]
  decide

/-- R344: the domain is asked to wake. -/
theorem State.writePdEn_wakes (hen : (s.dom d).en = false) (hst : (s.dom d).st = .off) (hn : (s.domNeeds d).all s.pdOn = true) :
    s.writePdEn d true = (s.modDom d fun x => { x with en := true, st := .waking, req := true, since := some s.tick }).rpOk := by
  rw [State.writePdEn_moves h1 hd hf (en := true) hen, hn, hst]
  exact congrArg (fun x : State => x.rpOk) State.modDom_modDom

theorem State.writePdEn_needs (hen : (s.dom d).en = false) (hn : (s.domNeeds d).all s.pdOn = false) : s.writePdEn d true = s.rpErr := by
  rw [State.writePdEn_moves h1 hd hf (en := true) hen, hn]
  rfl

theorem State.writePdEn_held (hen : (s.dom d).en = true) (hh : s.domHeld d = true) : s.writePdEn d false = s.rpErr := by
  rw [State.writePdEn_moves h1 hd hf (en := false) hen, hh]
  rfl

/-- R344: the domain is reset and asked to fall. -/
theorem State.writePdEn_shuts (hen : (s.dom d).en = true) (hst : (s.dom d).st = .on) (hh : s.domHeld d = false) :
    s.writePdEn d false = ((s.modDom d fun x => { x with en := false }).startShut d).rpOk := by
  rw [State.writePdEn_moves h1 hd hf (en := false) hen, hh, hst]
  rfl

end Writes

/-- R355: a bank that nothing holds takes each owner of the table. -/
theorem State.writeOwner_taken {b : Nat} {c : BitVec 4} (hb : b < s.profile.banks) (ho : s.pw.owners.getD b 0 = 0 ∨ s.pw.owners.getD b 0 = 1)
    (hc : c.toNat ≤ 9) : s.writeOwner b c = ({ s with pw := { s.pw with owners := s.pw.owners.set b c } } : State).rpOk := by
  have named : c ≠ 0xF := by
    rintro rfl
    exact absurd hc (by decide)
  refine if_neg ?_
  simp only [decide_eq_false hb.not_ge, decide_eq_false named, decide_eq_false hc.not_gt]
  rcases ho with ho | ho <;> rw [ho] <;> simp

theorem State.writeOwner_refused {b : Nat} {c : BitVec 4} (h : s.profile.banks ≤ b ∨ (9 < c.toNat ∧ c.toNat < 15) ∨ s.pw.owners.getD b 0 = 8) :
    s.writeOwner b c = s.rpErr := by
  refine if_pos ?_
  rcases h with h | ⟨above, below⟩ | h
  · rw [decide_eq_true h, Bool.true_or, Bool.true_or, Bool.true_or, Bool.true_or, Bool.true_or, Bool.true_or]
  · have unnamed : (c != 0xF) = true := by
      rw [bne_iff_ne]
      rintro rfl
      exact absurd below (by decide)
    rw [decide_eq_true above, unnamed, Bool.and_self, Bool.or_true, Bool.true_or, Bool.true_or, Bool.true_or]
  · rw [h]
    simp only [decide_true, Bool.or_true, Bool.true_or]

end Sys2Proof.Machine
end

section
/-!
The statement of the power domains.
-/

namespace Sys2Proof.Machine

/-- Settles O16: each event by req, ack and STATE of its domain; a write of EN by what the domain requires or holds; a bank by its owner. -/
theorem powerDomains : Obligations.PowerDomains := by
  unfold Obligations.PowerDomains
  refine ⟨fun s d ha hd => ⟨fun ⟨hack, hreq, hst, noBanks⟩ => ?_, fun ⟨hack, hreq, hst, banks⟩ => ?_,
      fun ⟨hack, hreq, hst, hen⟩ => execPwPdAckFall_shut ha hd hack hreq hst hen, fun ⟨hack, hreq⟩ => execPwPdAckFall_lost ha hd hack hreq,
      fun t => execPowerDomainTimeout_due ha hd, fun ⟨hack, hreq⟩ => execPwPdAckRise_late ha hd hack hreq, fun ⟨hst, hc, _⟩ => ?_⟩,
    fun s d b c hw => ?writes⟩
  · refine (execPwPdAckRise_asked ha hd hack hreq hst).trans (congrArg _ (if_pos ?_))
    rw [noBanks]
    rfl
  · refine (execPwPdAckRise_asked ha hd hack hreq hst).trans (congrArg _ (if_neg ?_))
    rwa [List.isEmpty_iff]
  · obtain ⟨t, done, on, ends, read⟩ := execBankClearDone_wakes ha hd hst hc
    exact ⟨t, done, on, ends, fun a ha => (read a).trans (if_pos ha), fun a ha => (read a).trans (if_neg ha)⟩
  case writes =>
    have write (en : Bool) : execPdEnWrite d en s = .next (s.writePdEn d.toNat en) := onReg_writable hw
    have owner : execBankOwnerWrite b c s = .next (s.writeOwner b.toNat c) := onReg_writable hw
    exact ⟨fun ⟨h1, hd, hf, hen, hst, hn⟩ => (write true).trans (congrArg _ (State.writePdEn_wakes h1 hd hf hen hst hn)),
      fun ⟨h1, hd, hf, hen, hn⟩ => (write true).trans (congrArg _ (State.writePdEn_needs h1 hd hf hen hn)),
      fun ⟨h1, hd, hf, hen, hh⟩ => (write false).trans (congrArg _ (State.writePdEn_held h1 hd hf hen hh)),
      fun ⟨h1, hd, hf, hen, hst, hh⟩ => (write false).trans (congrArg _ (State.writePdEn_shuts h1 hd hf hen hst hh)),
      fun ⟨hb, ho, hc⟩ => owner.trans (congrArg _ (State.writeOwner_taken hb ho hc)), fun h => owner.trans (congrArg _ (State.writeOwner_refused h))⟩

end Sys2Proof.Machine
end

section
/-!
SUPPORT. The states of a port (R75, R82, R83, R89): what each event does to the state of its port.
-/

namespace Sys2Proof.Machine

variable {s : State} {p : PortNo}

/-- R82: without the word of the partner CALIBRATE goes on. -/
theorem State.tryUp_waits (h : (s.port p).partnerCal = false) : s.tryUp p = s := if_neg (by rw [h, Bool.and_false]; decide)

/-- R99: only a port in UP is lost. -/
theorem State.portLost_idle {reason : Nat} {dest : LinkSt} {nd : Byte} {f : BitVec 16} (hu : (s.port p).st ≠ .up) :
    s.portLost p reason dest nd f = s := if_pos (by rw [bne_iff_ne.mpr hu]; rfl)

theorem State.measurePath_partnerCal : ((s.measurePath p).port p).partnerCal = (s.port p).partnerCal := by
  unfold State.measurePath
  exact State.modPort_see s.drew p p (fun q => { q with latTx := _, latRx := _, calAt := _ }) Port.partnerCal fun _ => rfl

section

variable (ha : s.alive = true) (hp : s.hasPort p = true)

include ha hp

theorem onPort_named {f : State → State} : onPort p s f = .next (f s) := onPort_alive (hasPort_iff.mp hp) ha

theorem execBlockLock_locks {h : BitVec 128} (hst : (s.port p).st = .train) (hl : headersLock h = true) :
    execBlockLock (p, h) s = .next (s.modPort p fun q => { q with st := .align, since := s.tick }) :=
  (onPort_named ha hp).trans (congrArg _ (if_pos (by rw [hst, hl]; rfl)))

theorem execBlockLock_idle {h : BitVec 128} (hn : (s.port p).st ≠ .train ∨ headersLock h = false) : execBlockLock (p, h) s = .next s := by
  refine (onPort_named ha hp).trans (congrArg _ (if_neg ?_))
  rw [Bool.and_eq_true, beq_iff_eq]
  rintro ⟨train, locks⟩
  rcases hn with hn | hn
  · exact hn train
  · rw [hn] at locks
    cases locks

theorem execFlitLock_locks {l : List (BitVec 64)} {k : Nat} (hst : (s.port p).st = .align) (hk : flitPhase l = some k) :
    execFlitLock (p, l) s = .next ((s.modPort p fun q => { q with
      negDone := false, partnerNeg := false, partnerCal := false, lockPhase := BitVec.ofNat 2 k }).enterSt p .negotiate) := by
  refine (onPort_named ha hp).trans (congrArg _ ?_)
  rw [hk]
  exact if_pos (beq_iff_eq.mpr hst)

theorem execLinkStateTimeout_due {n : Nat} (hn : (s.port p).st.limit = some n) (due : tickLe ((s.port p).since + BitVec.ofNat 64 n) s.tick = true) :
    execLinkStateTimeout p s = .next ((s.modPort p Port.clearLink).enterSt p .train) := by
  refine (onPort_named ha hp).trans (congrArg _ ?_)
  dsimp only
  rw [hn]
  exact if_pos due

theorem execLostHoldEnd_due (hst : (s.port p).st = .lost) (due : tickLe ((s.port p).since + 10000) s.tick = true) :
    execLostHoldEnd p s = .next (s.modPort p fun q => { q with st := .train, since := s.tick }) :=
  (onPort_named ha hp).trans (congrArg _ (if_pos (by rw [hst, due]; rfl)))

theorem execDownHeldEnd_due (hst : (s.port p).st = .downHeld) (due : tickLe ((s.port p).lastNodeDown + 512) s.tick = true) :
    execDownHeldEnd p s = .next (s.modPort p fun q => { q with st := .train, since := s.tick }) :=
  (onPort_named ha hp).trans (congrArg _ (if_pos (by rw [hst, due]; rfl)))

theorem execCalibrateDone_waits (hst : (s.port p).st = .calibrate) (hc : (s.port p).partnerCal = false) :
    execCalibrateDone p s = .next ((s.measurePath p).modPort p fun q => { q with calDone := true }) := by
  have waits : (((s.measurePath p).modPort p fun q => { q with calDone := true }).port p).partnerCal = false :=
    (State.modPort_see _ p p (fun q => { q with calDone := true }) Port.partnerCal fun _ => rfl).trans ((State.measurePath_partnerCal).trans hc)
  exact (onPort_named ha hp).trans (congrArg _ ((if_pos (beq_iff_eq.mpr hst)).trans (State.tryUp_waits waits)))

theorem execPhyRecal_due (hu : (s.port p).st = .up) (due : tickLe ((s.port p).calAt + 1000000000) s.tick = true) :
    execPhyRecal p s = .next (s.measurePath p) :=
  (onPort_named ha hp).trans (congrArg _ ((if_pos due).trans (recalibrate_up hu)))

/-- R44: the port leaves UP by its loss or else in order, and its partner is forgotten. -/
theorem execRstLinkAssert_leaves {t u : State} (ht : (s.linkLevel p true).portLost p 6 .disabled = t)
    (hu : (if (t.port p).st == .up then t.portExit p else t) = u) (now : u.tick = s.tick) :
    execRstLinkAssert p s = .next (u.modPort p fun q => { q.clearPartner with st := .disabled, since := s.tick }) := by
  rw [← now]
  subst ht hu
  exact onPort_named (s := s.linkLevel p true) ha hp

/-- R44: a port that is not in UP has nothing to lose. -/
theorem execRstLinkAssert_idle (hu : (s.port p).st ≠ .up) : execRstLinkAssert p s =
    .next ((s.linkLevel p true).modPort p fun q => { q.clearPartner with st := .disabled, since := s.tick }) :=
  execRstLinkAssert_leaves ha hp (State.portLost_idle (s := s.linkLevel p true) hu) (if_neg (mt beq_iff_eq.mp hu)) rfl

theorem execRstLinkRelease_trains (hen : (s.port p).en = true) (hst : (s.port p).st = .disabled) (hm : s.mute = false) : execRstLinkRelease p s =
    .next ((s.linkLevel p false).modPort p fun q => { q with st := .train, since := s.tick }) :=
  (onPort_named (s := s.linkLevel p false) ha hp).trans (congrArg _ (if_pos (by
    rw [show ((s.linkLevel p false).port p).en = true from hen, show ((s.linkLevel p false).port p).st = .disabled from hst,
      show (s.linkLevel p false).mute = false from hm]
    rfl)))

end

end Sys2Proof.Machine
end

section
/-!
The statement of the states of a port.
-/

namespace Sys2Proof.Machine

/-- Settles O21: each event by the state of its port and by what it brings, a timer by its limit. -/
theorem linkStates : Obligations.LinkStates := by
  unfold Obligations.LinkStates
  refine ⟨fun s p ha hp => ⟨fun h => execBlockLock_locks ha hp, fun h => execBlockLock_idle ha hp, fun l k => execFlitLock_locks ha hp,
    fun n => execLinkStateTimeout_due ha hp, fun ⟨hst, due⟩ => execLostHoldEnd_due ha hp hst due, fun ⟨hst, due⟩ => execDownHeldEnd_due ha hp hst due,
    fun ⟨hst, hc⟩ => execCalibrateDone_waits ha hp hst hc, fun ⟨hu, due⟩ => execPhyRecal_due ha hp hu due, rfl, execRstLinkAssert_idle ha hp,
    fun ⟨hen, hst, hm⟩ => execRstLinkRelease_trains ha hp hen hst hm⟩, rfl, rfl, rfl, rfl, fun st hst => ?_⟩
  cases st with
  | train | align | negotiate | calibrate => exact absurd hst (by decide)
  | disabled | up | lost | downHeld | revFail => rfl

end Sys2Proof.Machine
end

section
/-!
SUPPORT. What leaves the states of the ports alone: all that a node tells its neighbours when a port is gone (R118, R127, R129, R142).
-/

namespace Sys2Proof.Machine

/-- The state of each port. -/
def State.portSts (s : State) : List LinkSt := s.ports.map Port.st

variable {s t : State} {p : PortNo}

theorem Queues.portSts (h : Queues s t) : t.portSts = s.portSts := by
  obtain ⟨f, rfl, hf⟩ := h
  exact hf s.ports

theorem port_st_of_portSts (h : t.portSts = s.portSts) : (t.port p).st = (s.port p).st := by
  have read (x : State) : (x.port p).st = x.portSts.getD p.toNat .disabled := by
    rw [State.port, State.portSts, List.getD_eq_getElem?_getD, List.getD_eq_getElem?_getD, List.getElem?_map]
    exact (Option.getD_map Port.st _ _).symm
  rw [read, read, h]

theorem State.enterHoldover_portSts : s.enterHoldover.portSts = s.portSts := by
  unfold State.enterHoldover
  split <;> rfl

theorem State.runSelection_portSts : s.runSelection.portSts = s.portSts := by
  unfold State.runSelection
  refine ite_keeps rfl ?_
  split
  · rfl
  · exact ite_keeps rfl rfl

theorem State.sendClaim_portSts : s.sendClaim.portSts = s.portSts := ite_keeps (State.sendExcept_queues ..).portSts rfl

theorem State.sendOffers_portSts : s.sendOffers.portSts = s.portSts := ite_keeps (State.sendExcept_queues ..).portSts rfl

theorem State.setRoot_portSts (r : NodeId) : (s.setRoot r).portSts = s.portSts := by
  have lost : s.stateLost.portSts = s.portSts := ite_keeps rfl rfl
  exact ite_keeps rfl ((State.sendExcept_queues ..).portSts.trans (ite_keeps (g := State.portSts) lost rfl))

theorem State.modNode_portSts (h : BitVec 64) (f : NodeRow → NodeRow) : (s.modNode h f).portSts = s.portSts := by
  unfold State.modNode
  dsimp only
  split
  · exact (State.mirror_queues _).portSts
  · rfl

theorem State.sendAssign_portSts (r : NodeRow) : (s.sendAssign r).portSts = s.portSts := by
  unfold State.sendAssign State.forwardAssign
  split
  · exact ite_keeps (State.send_queues ..).portSts rfl
  · rfl

theorem State.reassignBelow_portSts (r : NodeRow) : (s.reassignBelow r).portSts = s.portSts :=
  foldl_keeps _ fun _ _ => (State.sendAssign_portSts _).trans (State.modNode_portSts ..)

theorem State.takeReport_portSts (d : DelayMsg) (a : AnnounceMsg) : (s.takeReport d a).portSts = s.portSts := by
  unfold State.takeReport
  dsimp only
  split
  · exact (State.reassignBelow_portSts _).trans ((State.sendAssign_portSts _).trans (State.mirror_queues _).portSts)
  · have placed {t : State} {c : Prop} [Decidable c] {x : NodeRow} (h : t.portSts = s.portSts) : (if c then t.sendAssign x else t).portSts = s.portSts :=
      ite_keeps ((State.sendAssign_portSts _).trans h) h
    have moved := State.modNode_portSts (s := s.modFab fun b => { b with delays := assocSet (d.node, d.port) d.delay b.delays }) a.hwid
    exact ite_keeps (ite_keeps rfl rfl) (ite_keeps ((State.reassignBelow_portSts _).trans (placed (moved _))) (placed (moved _)))

theorem State.reportChild_portSts (q : PortNo) : (s.reportChild q).portSts = s.portSts := by
  unfold State.reportChild
  refine ite_keeps rfl (ite_keeps (State.takeReport_portSts ..) ?_)
  split
  · exact (State.sendPair_queues ..).portSts
  · rfl

theorem State.reportAnew_portSts : s.reportAnew.portSts = s.portSts :=
  ite_keeps (foldl_keeps (g := State.portSts) _ fun _ _ => State.reportChild_portSts _) rfl

theorem State.mirrorAll_portSts : s.mirrorAll.portSts = s.portSts := by
  have mirrors {α : Type} (l : List α) (f : State → α → MirrorMsg) (t : State) : (l.foldl (fun s x => s.mirror (f s x)) t).portSts = t.portSts :=
    foldl_keeps l fun _ _ => (State.mirror_queues _).portSts
  unfold State.mirrorAll
  refine (mirrors _ _ _).trans ((foldl_keeps _ fun t p => ?_).trans (mirrors _ _ _))
  exact (mirrors _ _ _).trans ((mirrors _ _ _).trans (mirrors _ (fun _ m => m) t))

theorem State.chooseStandby_portSts : s.chooseStandby.portSts = s.portSts := by
  unfold State.chooseStandby
  split
  · exact State.mirrorAll_portSts.trans (State.send_queues ..).portSts
  · rfl

theorem State.takeRoot_portSts : s.takeRoot.portSts = s.portSts := by
  unfold State.takeRoot
  refine State.reportAnew_portSts.trans (State.chooseStandby_portSts.trans (State.sendOffers_portSts.trans (State.sendClaim_portSts.trans
    (State.runSelection_portSts.trans (ite_keeps (State.enterHoldover_portSts.trans ?_) ?_)))))
  all_goals exact (State.setRoot_portSts _).trans (ite_keeps (g := State.portSts) rfl rfl)

theorem State.setParent_portSts (q : PortNo) : (s.setParent q).portSts = s.portSts := by
  unfold State.setParent
  split
  · rfl
  · exact State.sendOffers_portSts

theorem State.loseParent_portSts : s.loseParent.portSts = s.portSts := by
  unfold State.loseParent
  dsimp only
  split
  · exact (State.setParent_portSts _).trans State.enterHoldover_portSts
  · refine State.sendClaim_portSts.trans ((State.sendExcept_queues ..).portSts.trans ?_)
    exact (List.map_map (l := s.enterHoldover.ports)).trans State.enterHoldover_portSts

theorem State.takeOver_portSts : s.takeOver.portSts = s.portSts :=
  ite_keeps State.takeRoot_portSts (ite_keeps State.loseParent_portSts rfl)

theorem State.sendDelay_portSts (m : DelayMsg) : (s.sendDelay m).portSts = s.portSts := by
  have taken : (s.takeDelay m).portSts = s.portSts := by
    unfold State.takeDelay
    refine ite_keeps ?_ (foldl_keeps (g := State.portSts) _ fun _ _ => State.modNode_portSts ..)
    split
    · exact State.modNode_portSts ..
    · rfl
  have checked : (s.checkMargins (s.takeDelay m)).portSts = (s.takeDelay m).portSts := by
    unfold State.checkMargins
    exact foldl_keeps _ fun _ _ => foldl_keeps _ fun _ _ => ite_keeps rfl rfl
  unfold State.sendDelay
  refine ite_keeps (checked.trans taken) ?_
  split
  · exact (State.send_queues ..).portSts
  · rfl

theorem State.portGone_portSts (atOnce lost : Bool) : (s.portGone p atOnce lost).portSts = s.portSts := by
  have counted (f : Odo → Odo) : (s.odoCount f).portSts = s.portSts := ite_keeps rfl rfl
  have standby {x : State} {c : Prop} [Decidable c] (h : x.portSts = s.portSts) : (if c then x.chooseStandby else x).portSts = s.portSts :=
    ite_keeps (State.chooseStandby_portSts.trans h) h
  have root {x : State} {c d : Prop} [Decidable c] [Decidable d] {f : Elect → Elect} (h : x.portSts = s.portSts) :
      (if c then (if d then x.takeOver else x.modElect f) else x).portSts = s.portSts := ite_keeps (ite_keeps (State.takeOver_portSts.trans h) h) h
  have parent {x : State} {c : Prop} [Decidable c] (h : x.portSts = s.portSts) : (if c then x.loseParent else x).portSts = s.portSts :=
    ite_keeps (State.loseParent_portSts.trans h) h
  unfold State.portGone
  refine ite_keeps (ite_keeps (counted _) (counted _)) (ite_keeps ((State.sendDelay_portSts _).trans ?_) ?_)
  all_goals exact parent (root (standby (counted _)))

end Sys2Proof.Machine
end

section
/-!
SUPPORT. The loss of a port in UP (R44, R75, R82, R83, R96, R99, R102): what it is, and each event that brings it.
-/

namespace Sys2Proof.Machine

variable {s : State} {p : PortNo}

/-- A change of a port is what it makes of the port. -/
theorem State.modPort_congr {f g : Port → Port} (h : f (s.port p) = g (s.port p)) : s.modPort p f = s.modPort p g := by
  refine congrArg (fun l => { s with ports := l }) (List.ext_getElem? fun i => ?_)
  rw [List.getElem?_modify, List.getElem?_modify]
  by_cases hi : p.toNat = i
  · subst hi
    rw [State.port, List.getD_eq_getElem?_getD] at h
    cases hq : s.ports[p.toNat]? with
    | none => rfl
    | some q =>
      rw [hq] at h
      exact congrArg some (by simpa using h)
  · simp only [if_neg hi]

theorem tick_of_hall {t : State} (h : t.hall = s.hall) : t.tick = s.tick := by
  have now : t.sun.now = s.sun.now := congrArg Prod.fst h
  rw [State.tick, State.tick, now]

/-- R99: what the loss leaves of its port. -/
def Port.lost (q : Port) (reason : Nat) (st : LinkSt) (now : Tick) : Port :=
  { q.clearLink with
    st := st, since := now, loss := true, gasp := q.gasp || reason == 2, ndown := q.ndown || reason == 3
    losses := satInc q.losses, retrain := satInc q.retrain, returned := true, lastNodeDown := now }

/-- R99, R329: the port, its fault and what the node's other functions do. -/
theorem State.portLost_up {reason : Nat} {dest : LinkSt} {nd : Byte} {f : BitVec 16} (hu : (s.port p).st = .up) (hm : s.mute = false) :
    s.portLost p reason dest nd f =
      (((s.modPort p fun q => q.lost reason (if (s.port p).exiting = 0 then dest else .disabled) s.tick).raiseNow (uc 0x03 0x03) (portLoc p)
        (s.partOnPort p) (detail [(24, 1, reason), (25, 1, nd.toNat), (26, 3, (s.port p).partnerNode.toNat), (30, 2, f.toNat)])).portGone p
          (reason == 2 || reason == 3) true) := by
  refine (if_neg (by rw [hu, hm]; decide)).trans ?_
  refine congrArg (fun x : State => (x.raiseNow _ _ _ _).portGone p _ true) (State.modPort_congr ?_)
  rfl

theorem State.portLost_tick {reason : Nat} {dest : LinkSt} {nd : Byte} {f : BitVec 16} (hu : (s.port p).st = .up) (hm : s.mute = false) :
    (s.portLost p reason dest nd f).tick = s.tick := by
  rw [State.portLost_up hu hm]
  exact tick_of_hall (State.portGone_now ..)

section

variable (ha : s.alive = true) (hp : s.hasPort p = true) (hu : (s.port p).st = .up)

include hp hu in
/-- R82: a port that is lost is not in UP, but where the loss would leave it there. -/
theorem State.portLost_st {reason : Nat} {dest : LinkSt} {nd : Byte} {f : BitVec 16} (hm : s.mute = false) (hd : dest ≠ .up) :
    ((s.portLost p reason dest nd f).port p).st ≠ .up := by
  rw [State.portLost_up hu hm, port_st_of_portSts (State.portGone_portSts ..)]
  refine ne_of_eq_of_ne (congrArg Port.st (State.modPort_port _ (hasPort_iff.mp hp))) ?_
  show (if (s.port p).exiting = 0 then dest else .disabled) ≠ .up
  split
  · exact hd
  · decide

include ha hp

theorem execBeatTimeout_due {t : HT80} (ht : (s.port p).lastBeat = some t)
    (due : htLe (htAdd t (if (s.port p).rev = 4 then 1024 else 512)) s.stamp = true) : execBeatTimeout p s = .next (s.portLost p 1 .lost) := by
  refine (onPort_named ha hp).trans (congrArg _ ?_)
  dsimp only
  rw [ht]
  exact if_pos due

theorem execFlitLockLost_fails {w : BitVec 64} {b : Bool} (h : lockFails w = true ∨ b = true) :
    execFlitLockLost (p, w, b) s = .next (s.portLost p 4 .lost) :=
  (onPort_named ha hp).trans (congrArg _ (if_pos ((Bool.or_eq_true ..).mpr h)))

theorem execFlitLockLost_holds {w : BitVec 64} (h : lockFails w = false) : execFlitLockLost (p, w, false) s = .next s :=
  (onPort_named ha hp).trans (congrArg _ (if_neg (ne_true_of_eq_false (Bool.or_eq_false_iff.mpr ⟨h, rfl⟩))))

theorem execForcedRetrain_due (hr : (s.port p).replay ≠ []) (h : 8 ≤ (s.port p).sameStart ∨ tickLe ((s.port p).ackAt + 16000) s.tick = true) :
    execForcedRetrain p s = .next (s.portLost p 5 .lost) := by
  refine (onPort_named ha hp).trans (congrArg _ (if_pos ?_))
  rw [List.isEmpty_eq_false_iff.mpr hr]
  exact (Bool.or_eq_true ..).mpr (h.imp_left fun h => decide_eq_true h)

include hu

/-- R101: a LAST_GASP. -/
theorem execLastGaspRx_loses {m : LastGaspMsg} (hr : (s.port p).rev ≠ 4) (hm : s.mute = false) :
    execLastGaspRx p m s = .next ((s.traced s.arrival 0 p (lastGaspHead m)).drew.portLost p 2 .lost) := by
  refine (onFlit_up ha hp hu).trans (congrArg _ ?_)
  rw [State.traced_drew_mute, hm, State.traced_drew_port, if_neg hr]
  rfl

/-- R100: a NODE_DOWN. -/
theorem execNodeDownRx_loses {m : NodeDownMsg} : execNodeDownRx p m s =
    .next ((s.traced s.arrival 0 p (nodeDownHead m)).drew.portLost p 3 .downHeld m.reason (if m.reason = 2 then m.fault else 0)) := by
  refine (onFlit_up ha hp hu).trans (congrArg _ ?_)
  dsimp only
  rw [State.traced_drew_port, hu]
  rfl

/-- R44: the link reset is a loss. -/
theorem execRstLinkAssert_loses (hm : s.mute = false) : execRstLinkAssert p s = .next (((s.linkLevel p true).portLost p 6 .disabled).modPort p
    fun q => { q.clearPartner with st := .disabled, since := s.tick }) := by
  refine execRstLinkAssert_leaves ha hp rfl (if_neg (mt beq_iff_eq.mp (State.portLost_st (s := s.linkLevel p true) hp hu hm (by decide)))) ?_
  exact State.portLost_tick (s := s.linkLevel p true) hu hm

/-- R100, R101: a node that sends nothing declares no loss. -/
theorem execRstLinkAssert_exits (hm : s.mute = true) : execRstLinkAssert p s = .next (((s.linkLevel p true).portExit p).modPort p
    fun q => { q.clearPartner with st := .disabled, since := s.tick }) := by
  have silent : (s.linkLevel p true).portLost p 6 .disabled = s.linkLevel p true := if_pos ((Bool.or_eq_true ..).mpr (.inr hm))
  exact execRstLinkAssert_leaves ha hp silent (if_pos (beq_iff_eq.mpr hu)) (tick_of_hall (State.portExit_now (s.linkLevel p true) p))

end

end Sys2Proof.Machine
end

section
/-!
The statement of the losses of a port.
-/

namespace Sys2Proof.Machine

/-- Settles O22: the loss as one change of the port, its fault and what follows; each event by what its port holds. -/
theorem portLoss : Obligations.PortLoss := by
  unfold Obligations.PortLoss
  exact ⟨fun s p reason dest nd f hu hm => State.portLost_up hu hm, fun s p ha hp hu => ⟨fun t => execBeatTimeout_due ha hp,
    fun m => execLastGaspRx_loses ha hp hu, fun m => execNodeDownRx_loses ha hp hu, fun w b => execFlitLockLost_fails ha hp,
    fun w => execFlitLockLost_holds ha hp, fun ⟨hr, h⟩ => execForcedRetrain_due ha hp hr h, execRstLinkAssert_loses ha hp hu, execRstLinkAssert_exits ha hp hu⟩⟩

end Sys2Proof.Machine
end

section
/-!
SUPPORT. The outputs of the Bandstand (R56, R58, R59, R201, R216, R219, R222, R347): the windows, a forced refresh, the load target and lending.
-/

namespace Sys2Proof.Machine

variable {s : State}

/-- R58: two neighbouring levels differ in one pin. -/
theorem gray_succ : ∀ v : BitVec 4, v ≠ 15 → ∃ i < 4, gray v ^^^ gray (v + 1) = 1 <<< i := by decide

theorem State.driveWin_open (h : s.fc.safe = false) : s.driveWin = { s with pins := { s.pins with mcWin := s.mcWinNow } } :=
  if_neg (ne_true_of_eq_false h)

theorem State.activeTag_none (h : s.activeSlot = none) : s.activeTag = none := by rw [State.activeTag, h]; rfl

/-- R347: the condition of an episode is gone, and no insertion has cut it short. -/
theorem State.lendFall_ends (hl : s.pins.lend = true) (hh : s.lendHolds = false) : s.lendFall false =
    (s.modPins fun p => { p with lend := false }).modBand fun b => { b with lastFall := some s.tick } := if_pos (by rw [hl, hh]; rfl)

theorem State.lendFall_holds (h : s.pins.lend = false ∨ s.lendHolds = true) : s.lendFall false = s := by
  refine if_neg ?_
  rcases h with h | h <;> simp [h]

section

variable (hr : s.bandRuns = true)

include hr

theorem bandRuns_on : s.pdOn 7 = true ∧ s.fc.safe = false := by
  simp only [State.bandRuns, Bool.and_eq_true, Bool.not_eq_true'] at hr
  obtain ⟨⟨⟨-, on⟩, out⟩, -⟩ := hr
  exact ⟨on, out⟩

theorem onLeaf_runs {f : State → State} : onLeaf s f = .next (f s) := onLeaf_alive (bandRuns_up hr).1 (bandRuns_up hr).2

theorem execWindowOpen_turn {w : BitVec 4} (has : (s.sched w.toNat).has (s.band.opened.getD w.toNat 0) = true)
    (closed : s.band.openW.getLsbD w.toNat = false)
    (turn : s.edgeTurn ((s.sched w.toNat).openTick (s.band.opened.getD w.toNat 0)) (actionRank .windowOpen) w.toNat = true) : execWindowOpen w s =
    .next (((s.modBand fun b => { b with opened := b.opened.set w.toNat (s.band.opened.getD w.toNat 0 + 1), openW := setBit b.openW w.toNat }).askWindow
      w.toNat (s.band.opened.getD w.toNat 0 + 1)).driveWin) :=
  (onLeaf_runs hr).trans (congrArg _ (if_pos (by rw [has, closed, turn]; rfl)))

theorem execWindowClose_turn {w : BitVec 4} (opened : s.band.openW.getLsbD w.toNat = true)
    (turn : s.edgeTurn ((s.sched w.toNat).closeTick (s.band.opened.getD w.toNat 0 - 1)) (actionRank .windowClose) w.toNat = true) :
    execWindowClose w s = .next ((s.modBand fun b => { b with openW := setBit b.openW w.toNat false }).driveWin) :=
  (onLeaf_runs hr).trans (congrArg _ (if_pos (by rw [opened, turn]; rfl)))

/-- R219: a forced refresh outside a context. -/
theorem execMcForcedEdge_free {m : BitVec 4} {stamp : HT80} (hm : s.pins.mcPresent.getLsbD m.toNat = true) (hn : s.activeSlot = none) :
    execMcForcedEdge m stamp s =
      .next ((s.modBand fun b => { b with forced := satInc b.forced, lastMc := m, lastInside := s.pins.mcWin.getLsbD m.toNat }).raise {
        code := ce 0x09 0x06, loc := 0, partV := false, ptag := 0, stamp := stamp
        detail := detail [(24, 1, m.toNat), (25, 1, if s.pins.mcWin.getLsbD m.toNat then 1 else 0)] }) := by
  obtain ⟨on, -⟩ := bandRuns_on hr
  have slot (f : Band → Band) : (s.modBand f).activeSlot = none := hn
  refine (onLeaf_runs hr).trans (congrArg _ ((if_pos (by rw [on, hm]; rfl)).trans ?_))
  simp only [slot, State.activeTag_none (slot _)]
  rfl

/-- R222: the target is another level than the present one, and 32 ns have passed. -/
theorem execLoadLevelChange_moves (hn : s.loadTarget ≠ s.band.level.toNat) (near : s.loadTarget ≤ s.band.level.toNat + 1)
    (due : tickLe (s.band.lastChange + 32) s.tick = true) {n : BitVec 4}
    (next : BitVec.ofNat 4 (if s.loadTarget > s.band.level.toNat then s.band.level.toNat + 1 else s.band.level.toNat - 1) = n) : execLoadLevelChange s =
    .next ((s.modBand fun b => { b with level := n, lastChange := s.tick, compressing := false }).modPins fun p => { p with loadTarget := gray n }) := by
  obtain ⟨on, out⟩ := bandRuns_on hr
  subst next
  have moves : (s.pdOn 7 && !s.fc.safe && s.loadTarget != s.band.level.toNat && tickLe (s.band.lastChange + 32) s.tick) = true := by
    rw [on, out, bne_iff_ne.mpr hn, due]
    rfl
  refine (onLeaf_runs hr).trans (congrArg _ ((if_pos moves).trans ?_))
  simp only [decide_eq_false near.not_gt, Bool.and_false, Bool.false_and]
  rfl

theorem execLoadLevelChange_up (ht : s.loadTarget = s.band.level.toNat + 1) (due : tickLe (s.band.lastChange + 32) s.tick = true) :
    execLoadLevelChange s = .next ((s.modBand fun b => { b with level := b.level + 1, lastChange := s.tick, compressing := false }).modPins
      fun p => { p with loadTarget := gray (s.band.level + 1) }) := by
  refine execLoadLevelChange_moves hr (by omega) ht.le due ?_
  rw [if_pos (by omega)]
  exact BitVec.eq_of_toNat_eq (by simp [BitVec.toNat_add])

theorem execLoadLevelChange_down (ht : s.loadTarget < s.band.level.toNat) (due : tickLe (s.band.lastChange + 32) s.tick = true) :
    execLoadLevelChange s = .next ((s.modBand fun b => { b with level := b.level - 1, lastChange := s.tick, compressing := false }).modPins
      fun p => { p with loadTarget := gray (s.band.level - 1) }) := by
  refine execLoadLevelChange_moves hr ht.ne (by omega) due ?_
  rw [if_neg (by omega)]
  have small := s.band.level.isLt
  exact BitVec.eq_of_toNat_eq (by simp [BitVec.toNat_sub]; omega)

theorem execLoadLevelChange_idle (h : s.loadTarget = s.band.level.toNat ∨ tickLe (s.band.lastChange + 32) s.tick = false) :
    execLoadLevelChange s = .next s := by
  refine (onLeaf_runs hr).trans (congrArg _ (if_neg ?_))
  rcases h with h | h
  · rw [h, bne_self_eq_false, Bool.and_false, Bool.false_and]
    decide
  · rw [h, Bool.and_false]
    decide

theorem execPwLendRise_rises {a : Bool} (ha : s.lendRise = some a) : execPwLendRise s =
    .next ((s.modPins fun p => { p with lend := true }).modBand fun b => { b with lendCaseA := a, lendEpisodes := satInc b.lendEpisodes }) := by
  refine (onLeaf_runs hr).trans (congrArg _ ?_)
  rw [ha]

theorem execPwLendFall_runs : execPwLendFall s = .next (s.lendFall false) := onLeaf_runs hr

end

end Sys2Proof.Machine
end

section
/-!
The statement of the Bandstand's outputs.
-/

namespace Sys2Proof.Machine

/-- Settles O32: each event by whether its turn or its condition has come; the levels by the four bits of the code. -/
theorem bandstandOutputs : Obligations.BandstandOutputs := by
  unfold Obligations.BandstandOutputs
  exact ⟨fun s w hr => ⟨fun ⟨has, closed, turn⟩ => execWindowOpen_turn hr has closed turn, fun ⟨opened, turn⟩ => execWindowClose_turn hr opened turn,
      State.driveWin_open⟩,
    fun s hr => ⟨fun m stamp => execMcForcedEdge_free hr, fun ⟨ht, _, due⟩ => execLoadLevelChange_up hr ht due,
      fun ⟨ht, due⟩ => execLoadLevelChange_down hr ht due, execLoadLevelChange_idle hr, fun a => execPwLendRise_rises hr,
      fun ⟨hl, hh⟩ => (execPwLendFall_runs hr).trans (congrArg _ (State.lendFall_ends hl hh)),
      fun h => (execPwLendFall_runs hr).trans (congrArg _ (State.lendFall_holds h))⟩, gray_succ⟩

end Sys2Proof.Machine
end

section
/-!
SUPPORT. What the halt of a ring and its start leave in the rings (R302, R303): EN, the state and ERR of a ring do not change as records are written,
held and lost.
-/

namespace Sys2Proof.Machine

variable {s : State} {n : Nat}

/-- What starts, stops and halts a ring. -/
def Ring.mark (r : Ring) : Bool × RingSt × BitVec 2 := (r.en, r.st, r.err)

/-- The marks of all rings. -/
def State.marks (s : State) : List (Bool × RingSt × BitVec 2) := s.eng.rings.map Ring.mark

theorem map_modify_keeps {α β : Type} {g : α → β} {f : α → α} (l : List α) (n : Nat) (h : ∀ a, g (f a) = g a) : (l.modify n f).map g = l.map g := by
  induction l generalizing n with
  | nil => cases n <;> rfl
  | cons a l ih =>
    cases n with
    | zero => exact congrArg (· :: l.map g) (h a)
    | succ n => exact congrArg (g a :: ·) (ih n)

theorem State.ring_mark (n : Nat) : (s.ring n).mark = s.marks.getD n ({} : Ring).mark := by
  unfold State.ring State.marks
  rw [List.getD_eq_getElem?_getD, List.getD_eq_getElem?_getD, List.getElem?_map]
  cases s.eng.rings[n]? <;> rfl

/-- Two states with the same marks agree on each ring. -/
theorem mark_of_marks {s t : State} (h : t.marks = s.marks) (n : Nat) : (t.ring n).mark = (s.ring n).mark := by
  rw [State.ring_mark, h, ← State.ring_mark]

theorem State.modRing_ring {f : Ring → Ring} (h : n < s.eng.rings.length) : (s.modRing n f).ring n = f (s.ring n) := by
  unfold State.modRing State.ring State.modEng
  rw [List.getD_eq_getElem?_getD, List.getElem?_modify_eq, List.getD_eq_getElem?_getD, List.getElem?_eq_getElem h]
  rfl

theorem State.modRing_modRing (f g : Ring → Ring) : (s.modRing n f).modRing n g = s.modRing n fun r => g (f r) :=
  congrArg (fun l => s.modEng fun e => { e with rings := l }) (List.modify_modify_eq f g n s.eng.rings)

theorem State.modRing_marks {f : Ring → Ring} (n : Nat) (h : ∀ r, (f r).mark = r.mark) : (s.modRing n f).marks = s.marks :=
  map_modify_keeps s.eng.rings n h

theorem State.hmIssue_marks (r : HmReq) : (s.hmIssue r).marks = s.marks := by
  unfold State.hmIssue
  refine ite_keeps rfl ?_
  split
  · exact ite_keeps rfl rfl
  · rfl

theorem State.writeGroup_marks (n : BitVec 3) (g : List (BitVec 256)) (num : Option Nat) : (s.writeGroup n g num).marks = s.marks :=
  foldl_keeps _ fun _ _ => (State.hmIssue_marks _).trans (State.modRing_marks _ fun _ => rfl)

theorem State.readDoorbell_marks (n : Nat) : (s.readDoorbell n).marks = s.marks := by
  unfold State.readDoorbell
  exact ite_keeps rfl ((State.hmIssue_marks _).trans (State.modRing_marks _ fun _ => rfl))

theorem State.loseGroup_marks (n : BitVec 3) (g : List (BitVec 256)) (num : Option Nat) : (s.loseGroup n g num).marks = s.marks := by
  unfold State.loseGroup
  have dropped := State.modRing_marks (s := s) (f := fun x => { x with drop := satInc x.drop g.length, ovf := n = 2 || n = 3 }) n.toNat fun _ => rfl
  exact ite_keeps dropped (ite_keeps dropped dropped)

theorem State.loseHeld_marks (n : Nat) : (s.loseHeld n).marks = s.marks := by
  unfold State.loseHeld
  exact ite_keeps ((foldl_keeps _ fun _ _ => State.loseGroup_marks ..).trans (State.modRing_marks _ fun _ => rfl)) rfl

theorem State.putGroup_marks (n : BitVec 3) (g : List (BitVec 256)) (num : Option Nat) : (s.putGroup n g num).marks = s.marks := by
  have held (g : List (BitVec 256)) := State.modRing_marks (s := s) (f := fun x => { x with held := x.held ++ [(g, num)], ovf := false }) n.toNat fun _ => rfl
  unfold State.putGroup
  refine ite_keeps rfl (ite_keeps (State.modRing_marks _ fun _ => rfl) (ite_keeps ?_ (ite_keeps (ite_keeps (held _) ?_) (State.loseGroup_marks ..))))
  · exact (State.writeGroup_marks ..).trans (State.modRing_marks _ fun _ => rfl)
  · exact (State.readDoorbell_marks _).trans (held _)

theorem State.drainHeld_marks (n : BitVec 3) : (s.drainHeld n).marks = s.marks :=
  foldl_keeps _ fun _ _ => ite_keeps ((State.writeGroup_marks ..).trans (State.modRing_marks _ fun _ => rfl)) rfl

theorem State.pumpDump_marks (k : Nat) : (s.pumpDump k).marks = s.marks := by
  induction k generalizing s with
  | zero => rfl
  | succ k ih =>
    unfold State.pumpDump
    split
    · rfl
    · split
      · rfl
      · exact ite_keeps rfl (ih.trans (State.writeGroup_marks ..))

/-- R303: the ring that halts is HALTED with its ERR, if no read of a descriptor waits for a tag. -/
theorem State.haltRing_mark {err : BitVec 2} (cause : Nat) (hn : n < s.eng.rings.length) (hst : (s.ring n).st ≠ .halted) (hq : s.eng.hmQ = []) :
    ((s.haltRing n err cause).ring n).mark = ((s.ring n).en, .halted, err) := by
  have run : ((s.ring n).st == .halted) = false := by simpa using hst
  unfold State.haltRing
  dsimp only
  generalize hr : s.raiseNow (uc 0x0D 0x01) 0 (soleTag s.standing) (detail [(24, 1, n), (25, 1, cause)]) = t
  have eng : t.eng = s.eng := hr ▸ rfl
  have ring : t.ring n = s.ring n := congrArg (fun e => e.rings.getD n {}) eng
  rw [run, eng, hq]
  refine (congrArg (fun x : State => (x.ring n).mark) (if_neg Bool.false_ne_true)).trans ?_
  refine (mark_of_marks (State.putGroup_marks ..) n).trans ?_
  refine (mark_of_marks (State.loseHeld_marks (s := t.modRing n fun r => { r with st := .halted, err := err, fetched := [] }) n) n).trans ?_
  rw [State.modRing_ring (eng ▸ hn), ring]
  rfl

/-- R302: EN of a ring that is off, written as 1: both indices start at RING_CONS, and nothing is fetched. -/
def Ring.started (now : Tick) (r : Ring) : Ring :=
  { r with en := true, st := .running, prod := r.cons, next := r.cons, full := false, fetched := [], fence := none, lastPoll := now, consOut := r.cons }

theorem State.setRingEn_host (hoff : (s.ring n).en = false) (hh : hostRing n = true) :
    s.setRingEn n true = (s.dropReads n).modRing n (Ring.started s.tick) := by
  unfold State.setRingEn
  dsimp only
  rw [hoff]
  exact if_pos hh

theorem State.setRingEn_block (hoff : (s.ring n).en = false) (hh : hostRing n = false) :
    (s.setRingEn n true).marks = ((s.dropReads n).modRing n (Ring.started s.tick)).marks := by
  unfold State.setRingEn
  dsimp only
  rw [hoff]
  exact (congrArg State.marks (if_neg (ne_true_of_eq_false hh))).trans ((State.pumpDump_marks _).trans (State.drainHeld_marks _))

theorem State.setRingEn_off (hon : (s.ring n).en = true) (hst : (s.ring n).st = .running) : s.setRingEn n false =
    (s.modRing n fun r => { r with en := false, st := if s.eng.ofRing n = [] then .stopped else .stopping, fetched := [] }).loseHeld n := by
  unfold State.setRingEn
  dsimp only
  rw [hon, hst]
  refine congrArg (fun st => (s.modRing n fun r => { r with en := false, st := st, fetched := [] }).loseHeld n) ?_
  refine (if_neg RingSt.noConfusion).trans ?_
  simp only [List.isEmpty_iff]

section
variable {w : Word}

/-- RING_CTL with its POLL and its CLASS as written. -/
def State.setPoll (s : State) (n : Nat) (w : Word) : State := s.modRing n fun r => { r with poll := w.getLsbD 1, cls := w.getLsbD 2 }

theorem State.setPoll_ring (hn : n < s.eng.rings.length) : (s.setPoll n w).ring n = { s.ring n with poll := w.getLsbD 1, cls := w.getLsbD 2 } :=
  State.modRing_ring hn

/-- What RING_CTL does with EN as `b`, unless it is refused. -/
theorem State.writeRingCtl_setBit (b : Bool) (h : b = true → (!s.isLeaf && (n = 4 || n = 5)) = false ∧ s.fwReady = true) :
    s.writeRingCtl n (setBit w 0 b) = ((s.setPoll n w).setRingEn n b).rpOk := by
  have refused : ((setBit w 0 b).getLsbD 0 && ((!s.isLeaf && (n = 4 || n = 5)) || !s.fwReady)) = false := by
    rw [getLsbD_setBit_zero]
    cases b with
    | false => rfl
    | true => obtain ⟨h, hf⟩ := h rfl; rw [h, hf]; rfl
  unfold State.writeRingCtl
  rw [refused, getLsbD_setBit_zero, getLsbD_setBit _ 0 1 b (by decide), getLsbD_setBit _ 0 2 b (by decide)]
  rfl

/-- R296, R396: without the firmware, or at a Hub for a ring of the Leaf alone, no ring starts. -/
theorem State.writeRingCtl_refused (h : ((!s.isLeaf && (n = 4 || n = 5)) || !s.fwReady) = true) : s.writeRingCtl n (setBit w 0) = s.rpErr := by
  refine if_pos ?_
  rw [getLsbD_setBit_zero, h]
  rfl

end

/-- A fold over a range in which one index alone does something. -/
theorem foldl_range_one {α : Type} (f : α → α) (a : α) (n m : Nat) :
    (List.range m).foldl (fun a k => if k = n then f a else a) a = if n < m then f a else a := by
  induction m with
  | zero => rfl
  | succ m ih =>
    rw [List.range_succ, List.foldl_append, ih]
    rcases Nat.lt_trichotomy n m with h | h | h
    · simp [h, Nat.lt_succ_of_lt h, Nat.ne_of_gt h]
    · simp [h]
    · simp [Nat.not_lt_of_gt h, show ¬n < m + 1 by omega, Nat.ne_of_lt h]

/-- R301: a nudge that names one ring. -/
theorem State.nudge_one (hn : n < 8) : s.nudge ((1 <<< n : Nat) : Word) = (s.readDoorbell n).rpOk := by
  have named (k : Nat) : ((1 <<< n : Nat) : Word).getLsbD k = true ↔ k = n := by
    rw [BitVec.natCast_eq_ofNat, BitVec.getLsbD_ofNat, Nat.one_shiftLeft, Nat.testBit_two_pow, Bool.and_eq_true, decide_eq_true_iff, decide_eq_true_iff]
    omega
  unfold State.nudge
  refine congrArg State.rpOk (Eq.trans ?_ ((foldl_range_one (fun s => s.readDoorbell n) s n 8).trans (if_pos hn)))
  refine congrArg (fun f => (List.range 8).foldl f s) (funext fun s => funext fun k => ?_)
  by_cases h : k = n
  · subst h; rw [if_pos rfl, if_pos ((named k).mpr rfl)]
  · rw [if_neg h, if_neg (mt (named k).mp h)]

end Sys2Proof.Machine
end

section
/-!
The statement of the commands of the rings.
-/

namespace Sys2Proof.Machine

section

variable {s : State} {n : BitVec 3}

section

variable (ha : s.alive = true)

include ha

/-- R301: a poll that is due reads the doorbell block. -/
theorem execDoorbellPoll_due (hp : (s.ring n.toNat).poll = true) (hw : s.wantsPoll n.toNat = true)
    (due : tickLe ((s.ring n.toNat).lastPoll + (s.pollNs n.toNat).setWidth 64) s.tick = true) : execDoorbellPoll n s = .next (s.readDoorbell n.toNat) := by
  refine (whenAlive_alive ha).trans (congrArg _ (if_pos ?_))
  rw [hp, hw, due]
  rfl

theorem execDoorbellPoll_off (hp : (s.ring n.toNat).poll = false) (hh : hostRing n.toNat = true) : execDoorbellPoll n s = .next s := by
  refine (whenAlive_alive ha).trans (congrArg _ (if_neg ?_))
  rw [hp, hh]
  exact Bool.false_ne_true

theorem execRingStopped_done (hst : (s.ring n.toNat).st = .stopping) (hnone : s.eng.ofRing n.toNat = []) :
    execRingStopped n s = .next (s.modRing n.toNat fun r => { r with st := .stopped }) := by
  refine (whenAlive_alive ha).trans (congrArg _ (if_pos ?_))
  rw [hst, hnone]
  rfl

theorem execRingStopped_waits (h : (s.ring n.toNat).st ≠ .stopping ∨ s.eng.ofRing n.toNat ≠ []) : execRingStopped n s = .next s := by
  refine (whenAlive_alive ha).trans (congrArg _ (if_neg fun both => ?_))
  simp only [Bool.and_eq_true, beq_iff_eq, List.isEmpty_iff] at both
  obtain ⟨hst, hnone⟩ := both
  exact h.elim (absurd hst) (absurd hnone)

section

variable {tag : BitVec 6} {x : BitVec 6 × HmReq × Tick} (hm : s.pins.hmRunning = true) (hx : s.eng.hm.find? (fun x => x.1 == tag) = some x)

include hm hx

/-- R50: a request that host memory answers. -/
theorem execHmResponse_found {err : Bool} {data : BitVec 512} : execHmResponse tag err data s =
    .next (if err then (s.modEng fun e => { e with hm := e.hm.filter fun y => y.1 != tag }).hmFailed x.2.1 1
      else (s.modEng fun e => { e with hm := e.hm.filter fun y => y.1 != tag }).answered x.2.1 data).hmNext := by
  refine (whenAlive_alive ha).trans ?_
  rw [hm, hx]
  rfl

/-- R51: a request whose 100 µs have passed. -/
theorem execHmTimeout_due (due : s.isDue (x.2.2 + 100001) = true) : execHmTimeout tag s = .next ((State.hmFailed (s.modEng fun e => { e with
    hm := e.hm.filter fun y => y.1 != tag, dead := e.dead ++ [tag] }) x.2.1 2).hmNext) := by
  refine (whenAlive_alive ha).trans ?_
  rw [hx]
  refine congrArg _ (if_pos ?_)
  rw [hm, due]
  rfl

end

end

/-- R301: a nudge of one ring reads its doorbell block, whatever POLL says. -/
theorem execDbNudge_one (hw : s.writable 4 = true) :
    ∃ t, execDbNudge ((1 <<< n.toNat : Nat) : Word) s = .next t ∧ t = (s.readDoorbell n.toNat).rpOk :=
  ⟨_, onReg_writable hw, State.nudge_one n.isLt⟩

/-- R300, R305: what a read of a host ring's doorbell block brings, while the ring runs: PROD, or a halt if it lies further ahead than the ring is long. -/
theorem State.doorbellRead_host {data : BitVec 512} (hr : s.ringRuns n.toNat = true) (hh : hostRing n.toNat = true) : s.doorbellRead n data =
    if (data.extractLsb' 0 32 - (s.ring n.toNat).cons).toNat > (s.ring n.toNat).size then s.haltRing n.toNat 2 3
    else (s.modRing n.toNat fun r => { r with prod := data.extractLsb' 0 32 }).fetchMore n.toNat 8 := by
  unfold State.doorbellRead
  dsimp only
  rw [hr, hh]
  rfl

variable {w : Word} (hw : s.writable 4 = true)

include hw

theorem execRingEnSet_accepted (hl : s.isLeaf = true ∨ (n ≠ 4 ∧ n ≠ 5)) (hf : s.fwReady = true) :
    execRingEnSet n w s = .next ((s.setPoll n.toNat w).setRingEn n.toNat true).rpOk := by
  refine (onReg_writable hw).trans (congrArg _ (State.writeRingCtl_setBit true fun _ => ⟨?_, hf⟩))
  rcases hl with hl | ⟨h4, h5⟩
  · rw [hl]; rfl
  · simp [show n.toNat ≠ 4 from fun h => h4 (BitVec.eq_of_toNat_eq h), show n.toNat ≠ 5 from fun h => h5 (BitVec.eq_of_toNat_eq h)]

theorem execRingEnSet_refused (h : ((!s.isLeaf && (n.toNat = 4 || n.toNat = 5)) || !s.fwReady) = true) : execRingEnSet n w s = .next s.rpErr :=
  (onReg_writable hw).trans (congrArg _ (State.writeRingCtl_refused (s := s) h))

/-- R302: a host ring that starts runs from RING_CONS with nothing fetched, and nothing outside the ring engine changes but the answer of the port. -/
theorem execRingEnSet_host (hl : s.isLeaf = true ∨ (n ≠ 4 ∧ n ≠ 5)) (hf : s.fwReady = true) (hh : hostRing n.toNat = true)
    (hoff : (s.ring n.toNat).en = false) (hn : n.toNat < s.eng.rings.length) :
    ∃ t, execRingEnSet n w s = .next t ∧ t.ring n.toNat = Ring.started s.tick { s.ring n.toNat with poll := w.getLsbD 1, cls := w.getLsbD 2 } ∧
      t.rp.err = false ∧ t.fc = s.fc ∧ t.ports = s.ports := by
  have inside : n.toNat < (s.setPoll n.toNat w).eng.rings.length := (List.length_modify ..).symm ▸ hn
  have polled := State.setPoll_ring (w := w) hn
  have off : ((s.setPoll n.toNat w).ring n.toNat).en = false := by rw [polled]; exact hoff
  refine ⟨_, execRingEnSet_accepted hw hl hf, ?_, rfl, ?_⟩
  · rw [State.setRingEn_host off hh]
    refine Eq.trans (State.modRing_ring (s := (s.setPoll n.toNat w).dropReads n.toNat) inside) ?_
    exact congrArg (Ring.started s.tick) polled
  · rw [State.setRingEn_host off hh]
    exact ⟨rfl, rfl⟩

/-- R302: a ring that the block writes has its EN, and hands out the records that waited. -/
theorem execRingEnSet_block (hl : s.isLeaf = true ∨ (n ≠ 4 ∧ n ≠ 5)) (hf : s.fwReady = true) (hh : hostRing n.toNat = false)
    (hoff : (s.ring n.toNat).en = false) (hn : n.toNat < s.eng.rings.length) :
    ∃ t, execRingEnSet n w s = .next t ∧ (t.ring n.toNat).en = true ∧ t.rp.err = false := by
  have inside : n.toNat < (s.setPoll n.toNat w).eng.rings.length := (List.length_modify ..).symm ▸ hn
  have off : ((s.setPoll n.toNat w).ring n.toNat).en = false := by rw [State.setPoll_ring hn]; exact hoff
  refine ⟨_, execRingEnSet_accepted hw hl hf, ?_, rfl⟩
  refine Eq.trans (congrArg Prod.fst (mark_of_marks (State.setRingEn_block off hh) n.toNat)) ?_
  rw [State.modRing_ring (s := (s.setPoll n.toNat w).dropReads n.toNat) inside]
  rfl

/-- R302: a running ring that is stopped waits for its requests, or stops at once without any. -/
theorem execRingEnClear_running (hon : (s.ring n.toNat).en = true) (hst : (s.ring n.toNat).st = .running) (hn : n.toNat < s.eng.rings.length) :
    execRingEnClear n w s = .next ((State.loseHeld (s.modRing n.toNat fun r => { r with
      poll := w.getLsbD 1, cls := w.getLsbD 2, en := false, st := if s.eng.ofRing n.toNat = [] then .stopped else .stopping, fetched := [] }) n.toNat).rpOk) := by
  have polled := State.setPoll_ring (w := w) hn
  refine (onReg_writable hw).trans (congrArg _ ((State.writeRingCtl_setBit false Bool.noConfusion).trans (congrArg State.rpOk ?_)))
  refine (State.setRingEn_off (by rw [polled]; exact hon) (by rw [polled]; exact hst)).trans (congrArg (State.loseHeld · n.toNat) ?_)
  exact State.modRing_modRing ..

end

/-- Settles O42: the polls, the answers of host memory and its failures, and the start and the stop of a ring. -/
theorem ringCommands : Obligations.RingCommands := by
  unfold Obligations.RingCommands
  refine ⟨fun s n ha => ⟨fun ⟨hp, hw, due⟩ => execDoorbellPoll_due ha hp hw due, fun ⟨hp, hh⟩ => execDoorbellPoll_off ha hp hh,
      execDbNudge_one, fun ⟨hst, hnone⟩ => execRingStopped_done ha hst hnone, execRingStopped_waits ha,
      fun tag x data hm hx => ⟨execHmResponse_found ha hm hx, execHmResponse_found ha hm hx, execHmTimeout_due ha hm hx⟩,
      fun data hr hh => ⟨fun near => (State.doorbellRead_host hr hh).trans (if_neg (Nat.not_lt.mpr near)),
        fun far => (State.doorbellRead_host hr hh).trans (if_pos far)⟩,
      fun err cause _ hn hst hq => ?halt⟩,
    fun s n w hw => ⟨fun ⟨hf, hl, hh, hoff, hn⟩ => ?host, fun ⟨hf, hl, hh, hoff, hn⟩ => ?block, fun hf => ?noFirmware, fun ⟨hl, h⟩ => ?hub,
      fun _ hon hst hn => execRingEnClear_running hw hon hst hn⟩⟩
  case halt =>
    have mark := State.haltRing_mark (err := err) cause hn hst hq
    exact ⟨congrArg (·.2.1) mark, congrArg (·.2.2) mark⟩
  case host =>
    obtain ⟨t, ht, ring, answer, fc, ports⟩ := execRingEnSet_host (w := w) hw hl hf hh hoff hn
    rw [Ring.started] at ring
    refine ⟨t, ht, ?_⟩
    rw [ring]
    exact ⟨rfl, rfl, rfl, rfl, rfl, rfl, rfl, answer, fc, ports⟩
  case block =>
    refine execRingEnSet_block hw (hl.imp_right fun h4 => ⟨h4, ?_⟩) hf hh hoff hn
    rintro rfl
    cases hh
  case noFirmware => exact execRingEnSet_refused hw (by rw [hf]; exact Bool.or_true _)
  case hub =>
    refine execRingEnSet_refused hw ?_
    rcases h with rfl | rfl <;> rw [hl] <;> rfl

end Sys2Proof.Machine
end

section
/-!
SUPPORT. What the register port does at the offsets of each page (R47, R337, R404, R405), and the reads that capture (R25, R406, R413).
-/

namespace Sys2Proof.Machine

variable {s : State} {a : Nat} {w : Word}

theorem wordAlign_le (x : BitVec 18) : wordAlign x ≤ x.toNat := Nat.div_mul_le_self ..

theorem le_wordAlign {x : BitVec 18} {k : Nat} (hk : k % 4 = 0) (h : k ≤ x.toNat) : k ≤ wordAlign x := by
  unfold wordAlign
  omega

/-- R337: in the safe state the Fault page alone takes a write. -/
theorem State.writeReg_safe (hs : s.fc.safe = true) (h : a < 0x2000 ∨ 0x2400 ≤ a) : s.writeReg a w = s.rpErr := by
  unfold State.writeReg
  rw [hs]
  by_cases low : a < 0x100
  · exact (if_pos low).trans (if_pos rfl)
  · exact (if_neg low).trans ((if_neg (by omega)).trans (if_pos rfl))

theorem State.writeReg_faults (h : 0x2000 ≤ a) (k : a < 0x2400) : s.writeReg a w = s.writeFaults a w :=
  (if_neg (by omega)).trans (if_pos ⟨h, k⟩)

section

variable (hs : s.fc.safe = false)

include hs

/-- R404: the Identity page is read-only. -/
theorem State.writeReg_identity (h : a < 0x100) : s.writeReg a w = s.rpOk :=
  (if_pos h).trans (if_neg (ne_true_of_eq_false hs))

/-- Nothing lies beyond the sync window. -/
theorem State.writeReg_beyond (h : 0x20000 ≤ a) : s.writeReg a w = s.rpErr := by
  unfold State.writeReg
  simp only [hs, Bool.false_eq_true, if_false]
  repeat rw [if_neg (by omega)]

/-- Between the Partitions page and the sync window all pages are reserved. -/
theorem State.writeReg_reserved (h : 0x8100 ≤ a) (k : a < 0x10000) : s.writeReg a w = s.rpErr := by
  unfold State.writeReg
  simp only [hs, Bool.false_eq_true, if_false]
  repeat rw [if_neg (by omega)]
  exact if_pos k

/-- A register of port `p`. -/
theorem State.writeReg_link {p k : Nat} (hp : p < s.ports.length) (h64 : p < 64) (hk : k < 0x40) :
    s.writeReg (0x1000 + 0x40 * p + k) w = s.writeLink (BitVec.ofNat 6 p) k w := by
  have port : (0x1000 + 0x40 * p + k - 0x1000) / 0x40 = p := by omega
  have offset : (0x1000 + 0x40 * p + k) % 0x40 = k := by omega
  unfold State.writeReg
  simp only [hs, Bool.false_eq_true, if_false]
  repeat rw [if_neg (by omega)]
  rw [if_pos (by omega), port, offset]
  exact if_pos hp

theorem State.writeFaults_mask : s.writeFaults 0x2024 w = (s.modFc fun f => { f with mask := cpair w }).rpOk :=
  if_neg (ne_true_of_eq_false hs)

theorem State.writeFaults_promote : s.writeFaults 0x2028 w = (s.modFc fun f => { f with promote := cpair w }).rpOk :=
  if_neg (ne_true_of_eq_false hs)

end

/-- R405: TL_ASYM of a port that the block has. -/
theorem State.writeLink_asym {p : PortNo} (hp : p.toNat < s.ports.length) :
    s.writeLink p 0x08 w = (s.modPort p fun q => { q with asym := w.extractLsb' 0 16 }).rpOk :=
  if_neg (Nat.not_le.mpr hp)

section

variable (hx : s.xoOk = true)

include hx

theorem State.readWord_now : s.readWord 0x804 = some (s.stamp.extractLsb' 0 32) := by
  unfold State.readWord
  rw [hx]
  rfl

/-- R25: a read of SUN_NOW_LO captures the whole time. -/
theorem State.readReg_now : s.readReg 0x804 = (s.modSun fun u => { u with snap := s.stamp }).rpOk (s.stamp.extractLsb' 0 32) := by
  unfold State.readReg
  rw [State.readWord_now hx]
  rfl

theorem State.readWord_capTs {n : Nat} (hn : n < 8) : s.readWord (0xC14 + 0x20 * n) = s.inDom 2 (tsWord (s.capIn n).fifo.head? 0) := by
  have input : (0xC14 + 0x20 * n - 0xC00) / 0x20 = n := by omega
  have offset : (0xC14 + 0x20 * n) % 0x20 = 0x14 := by omega
  unfold State.readWord
  rw [hx, if_neg (by omega), if_neg (c := (!true) = true) Bool.false_ne_true]
  repeat rw [if_neg (by omega)]
  rw [if_pos (by omega)]
  unfold State.readCapture
  rw [if_pos (by omega), input, offset]
  rfl

/-- R413: a read of CAPn_TS_LO takes the oldest stamp, where the inputs' domain is ON. -/
theorem State.readReg_capTs {n : Nat} (hn : n < 8) (hd : s.pdOn 2 = true) : s.readReg (0xC14 + 0x20 * n) = s.readCapTs n := by
  have input : (0xC14 + 0x20 * n - 0xC00) / 0x20 = n := by omega
  unfold State.readReg
  rw [State.readWord_capTs hx hn, State.inDom, if_pos hd]
  dsimp only
  rw [if_neg (by omega), if_pos (by omega), input]

theorem State.readReg_capTs_off {n : Nat} (hn : n < 8) (hd : s.pdOn 2 = false) : s.readReg (0xC14 + 0x20 * n) = s.rpErr := by
  unfold State.readReg
  rw [State.readWord_capTs hx hn, State.inDom, if_neg (ne_true_of_eq_false hd)]

end

/-- R406: a read of the lowest word of the ledger's wide value captures both words. -/
theorem State.readReg_ledger (h : s.readWord 0x3808 = some w) : s.readReg 0x3808 = (s.modRp fun r => { r with
    snaps := assocSet 0x3808 [w, (s.readWord 0x380C).getD 0] r.snaps }).rpOk w := by
  have row : (snapTable.find? fun x => x.1 = 0x3808) = some (0x3808, [0x3808, 0x380C]) := by decide
  have banks : s.profile.banks ≤ 32 := by cases s.profile <;> decide
  unfold State.readReg
  rw [h]
  dsimp only
  rw [if_neg (by decide), if_neg (by decide), if_neg (by omega), if_neg (by decide), if_neg (by decide), if_neg (by decide)]
  rw [row]
  dsimp only [List.map]
  rw [h]
  rfl

end Sys2Proof.Machine
end

section
/-!
The statement of the register port and the reads with effects.
-/

namespace Sys2Proof.Machine

section

variable {s : State} {x : BitVec 18} {w : Word}

/-- R39, R43: without a supply or a host clock nothing answers. -/
theorem execRegisterWrite_still (h : s.pins.powered = false ∨ s.pins.hmRunning = false) : execRegisterWrite x w s = .next s := by
  refine congrArg _ (if_neg ?_)
  rcases h with h | h <;> simp [h]

/-- R46: in reset a write completes with rp_err. -/
theorem execRegisterWrite_inReset (hp : s.pins.powered = true) (hm : s.pins.hmRunning = true) (ha : s.alive = false) :
    execRegisterWrite x w s = .next s.rpErr := by
  unfold execRegisterWrite onSafeReg
  rw [hp, hm, ha]
  rfl

section

variable (hp : s.pins.powered = true) (hm : s.pins.hmRunning = true) (ha : s.alive = true)

include hp hm ha

theorem execRegisterWrite_open (hx : s.xoOk = true) : execRegisterWrite x w s = .next (s.writeReg (wordAlign x) w) := onSafeReg_open hp hm ha hx

theorem execSunNowRead_open : execSunNowRead s = .next (s.readReg 0x804) := onRead_open hp hm ha

theorem execCapTsRead_open {n : BitVec 3} : execCapTsRead n s = .next (s.readReg (0xC14 + 0x20 * n.toNat)) := onRead_open hp hm ha

theorem execSnapshotRead_open : execSnapshotRead x s = .next (s.readReg (wordAlign x)) := onRead_open hp hm ha

end

/-- Offset 0x1008 of port `p`. -/
theorem wordAlign_asym (p : BitVec 3) : wordAlign (0x1008 + 0x40 * p.setWidth 18) = 0x1000 + 0x40 * p.toNat + 0x08 := by
  have small := p.isLt
  have offset : (0x1008 + 0x40 * p.setWidth 18 : BitVec 18).toNat = 0x1008 + 0x40 * p.toNat := by bv_omega
  rw [wordAlign, offset]
  omega

end

/-- Settles O50: who answers a write, what each page makes of it, and the reads that capture. -/
theorem registerPortAndReads : Obligations.RegisterPortAndReads := by
  unfold Obligations.RegisterPortAndReads
  refine ⟨fun s x w => ⟨execRegisterWrite_still, execRegisterWrite_inReset, fun hp hm ha hx => ?_⟩, fun s hp hm ha hx => ?_⟩
  · have answers (x : BitVec 18) : exec (.registerWrite x w) s = .next (s.writeReg (wordAlign x) w) := execRegisterWrite_open hp hm ha hx
    simp only [answers]
    have below := wordAlign_le x
    refine ⟨fun hs h => congrArg _ (State.writeReg_safe hs ?_), fun hs h => congrArg _ (State.writeReg_beyond hs (le_wordAlign rfl h)),
      fun hs h k => congrArg _ (State.writeReg_reserved hs (le_wordAlign rfl h) (by omega)), fun hs h => congrArg _ (State.writeReg_identity hs (by omega)),
      fun hs => congrArg _ ?mask, fun hs => congrArg _ ?promote, fun p hs h => congrArg _ ?asym⟩
    · exact h.imp (fun h => by omega) (le_wordAlign rfl)
    case mask => exact (State.writeReg_faults (by decide) (by decide)).trans (State.writeFaults_mask hs)
    case promote => exact (State.writeReg_faults (by decide) (by decide)).trans (State.writeFaults_promote hs)
    case asym =>
      have named : (p.setWidth 6).toNat = p.toNat := by bv_omega
      have port : BitVec.ofNat 6 p.toNat = p.setWidth 6 := by bv_omega
      rw [wordAlign_asym, State.writeReg_link hs h (by omega) (by decide), port]
      exact State.writeLink_asym (named.symm ▸ h)
  · exact ⟨(execSunNowRead_open hp hm ha).trans (congrArg _ (State.readReg_now hx)),
      fun n hd => (execCapTsRead_open hp hm ha).trans (congrArg _ (State.readReg_capTs hx n.isLt hd)),
      fun n hd => (execCapTsRead_open hp hm ha).trans (congrArg _ (State.readReg_capTs_off hx n.isLt hd)),
      fun w h => (execSnapshotRead_open hp hm ha).trans (congrArg _ (State.readReg_ledger h))⟩

end Sys2Proof.Machine
end

section
/-!
SUPPORT. The fields of CAP_CTL and BV_CTL as they read (R411, R414), the settling of an edge (R64, R293, R412, R413) and the registers of the Test
page (R408, R416).
-/

namespace Sys2Proof.Machine

theorem getLsbD_bit (b : Bool) : (bit b).getLsbD 0 = b := by cases b <;> rfl

section

variable (c : Capture)

theorem Capture.ctl_en : c.ctl.getLsbD 0 = c.en := by
  simp only [Capture.ctl, BitVec.getLsbD_append]
  exact getLsbD_bit _

theorem Capture.ctl_winMode : c.ctl.getLsbD 3 = c.winMode := by
  simp only [Capture.ctl, BitVec.getLsbD_append]
  exact getLsbD_bit _

/-- The three bits that command read as 0. -/
theorem Capture.ctl_commands {i : Nat} (h : i = 4 ∨ i = 5 ∨ i = 7) : c.ctl.getLsbD i = false := by
  rcases h with rfl | rfl | rfl <;> simp only [Capture.ctl, BitVec.getLsbD_append] <;> rfl

theorem Capture.ctl_slope : c.ctl.extractLsb' 1 2 = c.slope :=
  (BitVec.extractLsb'_append_eq_of_le (by decide)).trans BitVec.extractLsb'_append_eq_right

end

section

variable (b : Trace)

theorem Trace.ctl_en : b.ctl.getLsbD 0 = b.en := by
  simp only [Trace.ctl, BitVec.getLsbD_append]
  exact getLsbD_bit _

theorem Trace.ctl_stopOnFault : b.ctl.getLsbD 3 = b.stopOnFault := by
  simp only [Trace.ctl, BitVec.getLsbD_append]
  exact getLsbD_bit _

theorem Trace.ctl_src : b.ctl.extractLsb' 1 2 = b.src :=
  (BitVec.extractLsb'_append_eq_of_le (by decide)).trans BitVec.extractLsb'_append_eq_right

theorem Trace.ctl_port : b.ctl.extractLsb' 4 6 = b.port :=
  (BitVec.extractLsb'_append_eq_of_le (by decide)).trans ((BitVec.extractLsb'_append_eq_of_le (by decide)).trans
    ((BitVec.extractLsb'_append_eq_of_le (by decide)).trans BitVec.extractLsb'_append_eq_right))

end

variable {s : State}

section

variable {n : Nat}

/-- A write of a capture input that leaves its record as it is. -/
theorem State.modCapIn_same {f : Capture → Capture} (h : f (s.capIn n) = s.capIn n) : s.modCapIn n f = s := by
  refine congrArg (fun l => s.modCap fun _ => l) (?_ : s.cap.modify n f = s.cap)
  refine List.ext_getElem? fun i => ?_
  rw [List.getElem?_modify]
  by_cases e : n = i
  · subst e
    rw [State.capIn, List.getD_eq_getElem?_getD] at h
    cases hc : s.cap[n]? with
    | none => rfl
    | some c => rw [hc] at h; exact congrArg some ((if_pos rfl).trans h)
  · cases s.cap[i]? with
    | none => rfl
    | some c => exact congrArg some (if_neg e)

variable (accepted : s.fw.tdcOk = true ∨ (s.capIn n).en = false) (slope : (s.capIn n).slope ≠ 0)

include accepted slope

/-- R411, R412: CAP_CTL with its RW fields as they stand and one bit that commands. -/
theorem State.writeCapCtl_command {i : Nat} (hi : i = 4 ∨ i = 5 ∨ i = 7) : s.writeCapCtl n (setBit (s.capIn n).ctl i) =
    if i = 4 then (s.stopWindow n true).rpOk else if i = 5 then (s.stopWindow n false).rpOk
    else (s.modCapIn n fun c => { c with fifo := [], dead := 0, ovf := 0 }).rpOk := by
  have en : (setBit (s.capIn n).ctl i).getLsbD 0 = (s.capIn n).en := (getLsbD_setBit _ i 0 true (by decide)).trans ((if_neg (by omega)).trans (Capture.ctl_en _))
  have mode : (setBit (s.capIn n).ctl i).getLsbD 3 = (s.capIn n).winMode :=
    (getLsbD_setBit _ i 3 true (by decide)).trans ((if_neg (by omega)).trans (Capture.ctl_winMode _))
  have edges : (setBit (s.capIn n).ctl i).extractLsb' 1 2 = (s.capIn n).slope := (extractLsb'_setBit _ i true (by omega) (by decide)).trans (Capture.ctl_slope _)
  have command {j : Nat} (hj : j = 4 ∨ j = 5 ∨ j = 7) : (setBit (s.capIn n).ctl i).getLsbD j = decide (i = j) := by
    rw [getLsbD_setBit _ i j true (by omega), Capture.ctl_commands _ hj]
    by_cases h : i = j <;> simp [h]
  have same : (s.modCapIn n fun c => { c with en := (s.capIn n).en, slope := if (s.capIn n).slope = 0 then 1 else (s.capIn n).slope, winMode := (s.capIn n).winMode }) = s :=
    State.modCapIn_same (by rw [if_neg slope])
  have calibrated : ((s.capIn n).en && !s.fw.tdcOk) = false := by rcases accepted with h | h <;> simp [h]
  unfold State.writeCapCtl
  dsimp only
  rw [en, mode, edges, command (.inl rfl), command (.inr (.inl rfl)), command (.inr (.inr rfl)), same, calibrated]
  rcases hi with rfl | rfl | rfl <;> rfl

end

/-- R64, R411: a calibrated TDC is needed to keep an input enabled. -/
theorem State.writeCapCtl_uncalibrated {n i : Nat} (hi : i ≠ 0) (tdc : s.fw.tdcOk = false) (en : (s.capIn n).en = true) :
    s.writeCapCtl n (setBit (s.capIn n).ctl i) = s.rpErr := by
  refine if_pos ?_
  rw [getLsbD_setBit _ i 0 true (by decide), if_neg hi, Capture.ctl_en, en, tdc]
  rfl

section

variable {n : BitVec 3} {falling : Bool} {stamp : HT80}

theorem State.takeEdge_outside (hm : (s.capIn n.toNat).winMode = true) (ho : (s.capIn n.toNat).winOpen = false) : s.takeEdge n falling stamp = s :=
  if_pos (by rw [hm, ho]; rfl)

variable (hw : (s.capIn n.toNat).winMode = false ∨ (s.capIn n.toNat).winOpen = true)

include hw

/-- R64, R293, R412: an edge that no stop window keeps out. -/
theorem State.takeEdge_inside : s.takeEdge n falling stamp =
    if s.liveIgnored n then s.modSync fun y => { y with liveIgn := satInc y.liveIgn }
    else if (s.capIn n.toNat).deadTime stamp then s.modCapIn n.toNat fun c => { c with dead := satInc c.dead }
    else (s.modCapIn n.toNat fun c => { (c.push { t := stamp, falling := falling, injected := false }) with lastEdge := some stamp }).foldEdge n falling stamp :=
  if_neg (by rcases hw with h | h <;> simp [h])

/-- R413: an edge that is stamped. -/
theorem State.takeEdge_stamped (live : s.liveIgnored n = false) (dead : (s.capIn n.toNat).deadTime stamp = false) : s.takeEdge n falling stamp =
    (s.modCapIn n.toNat fun c => { (c.push { t := stamp, falling := falling, injected := false }) with lastEdge := some stamp }).foldEdge n falling stamp :=
  (State.takeEdge_inside hw).trans ((if_neg (ne_true_of_eq_false live)).trans (if_neg (ne_true_of_eq_false dead)))

end

section

variable {n : BitVec 3} {falling : Bool} {stamp : HT80}

/-- R282: outside a context, and for an input not in CAP_MASK, an edge folds into no digest. -/
theorem State.foldEdge_outside (h : s.activeSlot = none ∨ s.sync.capMask.getLsbD n.toNat = false) : s.foldEdge n falling stamp = s := by
  unfold State.foldEdge
  rcases h with h | h
  · rw [h]
  · rw [h]
    cases s.activeSlot <;> rfl

theorem State.foldEdge_masked {k : Bool} (hk : s.activeSlot = some k) (hm : s.sync.capMask.getLsbD n.toNat = true) :
    s.foldEdge n falling stamp = s.modCtx k fun c => c.note stamp (.edge n falling) := by
  unfold State.foldEdge
  rw [hk]
  exact if_pos hm

end

/-- R408, R414: BV_CTL with its RW fields as they stand and CLR. -/
theorem State.writeBvCtl_clr (hp : s.bv.port.toNat < s.ports.length) (hl : s.bv.src = 2 → s.isLeaf = true) (ho : s.traceOpen = true) :
    s.writeBvCtl (setBit s.bv.ctl 10) = (s.modBv fun b => { b with buf := [], wrapped := false, stopped := false }).rpOk := by
  have en : (setBit s.bv.ctl 10).getLsbD 0 = s.bv.en := (getLsbD_setBit _ 10 0 true (by decide)).trans (Trace.ctl_en _)
  have stop : (setBit s.bv.ctl 10).getLsbD 3 = s.bv.stopOnFault := (getLsbD_setBit _ 10 3 true (by decide)).trans (Trace.ctl_stopOnFault _)
  have clr : (setBit s.bv.ctl 10).getLsbD 10 = true := (getLsbD_setBit _ 10 10 true (by decide)).trans (if_pos rfl)
  have src : (setBit s.bv.ctl 10).extractLsb' 1 2 = s.bv.src := (extractLsb'_setBit _ 10 true (by decide) (by decide)).trans (Trace.ctl_src _)
  have port : (setBit s.bv.ctl 10).extractLsb' 4 6 = s.bv.port := (extractLsb'_setBit _ 10 true (by decide) (by decide)).trans (Trace.ctl_port _)
  have leaf : (decide (s.bv.src = 2) && !s.isLeaf) = false := by
    by_cases h : s.bv.src = 2
    · rw [hl h]; exact Bool.and_false _
    · rw [decide_eq_false h]; rfl
  unfold State.writeBvCtl
  dsimp only
  rw [en, stop, clr, src, port, ho, leaf, bne_self_eq_false, bne_self_eq_false, decide_eq_false (Nat.not_le.mpr hp), Bool.or_self, Bool.and_false]
  rfl

theorem State.writeBvCtl_closed {w : Word} (ho : s.traceOpen = false) : s.writeBvCtl w = s.rpErr := if_pos (by rw [ho]; rfl)

/-- R416: a byte outside the bank under test reads as before. -/
theorem Power.read_scrambleBank_ne (p : Power) {k a : Nat} (draw : Nat) (h : a / 2 ^ 19 ≠ k) : (p.scrambleBank k draw).read a = p.read a := by
  have unlisted : (p.scrambleBank k draw).unlisted a = (p.clearBank k).unlisted a := by
    simp only [Power.scrambleBank, Power.clearBank, Power.unlisted]
    generalize a / 2 ^ 19 = j at h ⊢
    simp [Ne.symm h]
  refine Eq.trans ?_ (Power.read_clearBank_ne p h)
  unfold Power.read
  rw [unlisted]
  rfl

section

variable {w : Word}

/-- What TST_BIST_CTL with GO needs. -/
def State.bistFree (s : State) (b : Nat) : Bool := b < s.profile.banks && s.pdOn (bankDom b) && s.pw.owners.getD b 0 == 0xF && !s.tst.busy

/-- R416: TST_BIST_CTL with GO. -/
theorem State.writeBistCtl_go : s.writeBistCtl (setBit w 8) = if s.testPageOpen && s.bistFree (w.extractLsb' 0 5).toNat then
      (((s.modTst fun x => { x with bank := w.extractLsb' 0 5, alg := w.getLsbD 9 }).drew.modPw fun p => p.scrambleBank (w.extractLsb' 0 5).toNat s.freeIx).modTst
        fun x => { x with busy := true, pass := false, fail := false, firstFail := 0 }).rpOk
    else s.rpErr := by
  have bank : (setBit w 8).extractLsb' 0 5 = w.extractLsb' 0 5 := extractLsb'_setBit _ 8 true (by decide) (by decide)
  have go : (setBit w 8).getLsbD 8 = true := (getLsbD_setBit _ 8 8 true (by decide)).trans (if_pos rfl)
  have alg : (setBit w 8).getLsbD 9 = w.getLsbD 9 := getLsbD_setBit _ 8 9 true (by decide)
  have refused (b : Nat) : (!s.testPageOpen || (true && (b ≥ s.profile.banks || !s.pdOn (bankDom b) || s.pw.owners.getD b 0 != 0xF || s.tst.busy))) =
      !(s.testPageOpen && s.bistFree b) := by
    simp only [State.bistFree, Bool.not_and, Bool.true_and, Bool.not_not, bne, ge_iff_le, ← decide_not, Nat.not_lt]
  unfold State.writeBistCtl
  dsimp only
  rw [bank, go, alg, refused]
  cases s.testPageOpen && s.bistFree (w.extractLsb' 0 5).toNat <;> rfl

theorem State.writeCoreCtl_refused (h : s.testPageOpen = false ∨ s.loading = true) : s.writeCoreCtl w = s.rpErr :=
  if_pos (by rcases h with h | h <;> simp [h])

section

variable (ho : s.testPageOpen = true) (hl : s.loading = false)

include ho hl

/-- R390, R416: without a running firmware no core moves. -/
theorem State.writeCoreCtl_idle (hf : s.fw.st ≠ .running) :
    s.writeCoreCtl w = (s.modTst fun x => { x with halt0 := w.getLsbD 0, halt1 := w.getLsbD 1 }).rpOk := by
  have idle (core : Bool) : s.coreHasCode core = false := by
    rw [State.coreHasCode, beq_eq_false_iff_ne.mpr hf]
    rfl
  unfold State.writeCoreCtl
  rw [ho, hl, idle, idle]
  rfl

/-- R416: core 0 alone is halted, with a step: it stands at another instruction, which the manual does not give. -/
theorem State.writeCoreCtl_step0 (hf : s.fw.st = .running) (hi : s.fw.idle0 = false) (h0 : w.getLsbD 0 = true) (h1 : w.getLsbD 1 = false)
    (h2 : w.getLsbD 2 = true) :
    s.writeCoreCtl w = ((s.drew).modTst fun x => { x with halt0 := true, halt1 := false, pc0 := Config.corePc s.freeIx }).rpOk := by
  have runs : s.coreHasCode false = true := by
    rw [State.coreHasCode, hf]
    simp [hi]
  unfold State.writeCoreCtl
  rw [ho, hl, runs, h0, h1, h2, Bool.and_false, Bool.false_and, Bool.or_true]
  rfl

end

end

end Sys2Proof.Machine
end

section
/-!
The statement of the capture inputs, the trace and the Test page.
-/

namespace Sys2Proof.Machine

section

variable {s : State} {n : BitVec 3} {w : Word}

section

variable {falling : Bool} {stamp : HT80} (ha : s.alive = true)

include ha

theorem execCapInEdge_ignored (h : s.pdOn 2 = false ∨ (s.capIn n.toNat).takes falling = false) : execCapInEdge n falling stamp s = .next s := by
  refine (whenAlive_alive ha).trans (congrArg _ (if_neg ?_))
  rcases h with h | h <;> simp [h]

/-- R413: an edge that EN and SLOPE take waits for the end of its tick. -/
theorem execCapInEdge_taken (hd : s.pdOn 2 = true) (ht : (s.capIn n.toNat).takes falling = true) : execCapInEdge n falling stamp s =
    .next (s.modCapIn n.toNat fun c => { c with edges := c.edges ++ [(falling, stamp)] }) := by
  refine (whenAlive_alive ha).trans (congrArg _ (if_pos ?_))
  rw [hd, ht]
  rfl

theorem execCheckerPatternLock_locks (hc : s.tst.check = true) (hp : s.tst.pattern ≠ 0) (hl : s.laneOn s.tst.port = true) :
    execCheckerPatternLock s = .next (s.modTst fun x => { x with plock := true }) := by
  refine (whenAlive_alive ha).trans (congrArg _ (if_pos ?_))
  rw [hc, hl, bne_iff_ne.mpr hp]
  rfl

theorem execCheckerPatternLock_off (h : s.tst.check = false ∨ s.tst.pattern = 0) : execCheckerPatternLock s = .next s := by
  refine (whenAlive_alive ha).trans (congrArg _ (if_neg ?_))
  rcases h with h | h <;> simp [h]

theorem execBistDone_busy {e : Option (BitVec 16)} (hb : s.tst.busy = true) : execBistDone e s =
    .next (s.modTst fun x => { x with busy := false, pass := e.isNone, fail := e.isSome, firstFail := e.getD 0 }) :=
  (whenAlive_alive ha).trans (congrArg _ (if_pos hb))

theorem execBistDone_idle {e : Option (BitVec 16)} (hb : s.tst.busy = false) : execBistDone e s = .next s :=
  (whenAlive_alive ha).trans (congrArg _ (if_neg (ne_true_of_eq_false hb)))

end

section

variable (hw : s.writable 2 = true) (accepted : s.fw.tdcOk = true ∨ (s.capIn n.toNat).en = false) (slope : (s.capIn n.toNat).slope ≠ 0)

include hw

theorem execCapClr_refused (tdc : s.fw.tdcOk = false) (en : (s.capIn n.toNat).en = true) : execCapClr n s = .next s.rpErr :=
  (onReg_writable hw).trans (congrArg _ (State.writeCapCtl_uncalibrated (by decide) tdc en))

include accepted slope

theorem execWinOpenNow_accepted : execWinOpenNow n s = .next ((s.stopWindow n.toNat true).rpOk) :=
  (onReg_writable hw).trans (congrArg _ (State.writeCapCtl_command accepted slope (.inl rfl)))

theorem execWinCloseNow_accepted : execWinCloseNow n s = .next ((s.stopWindow n.toNat false).rpOk) :=
  (onReg_writable hw).trans (congrArg _ (State.writeCapCtl_command accepted slope (.inr (.inl rfl))))

theorem execCapClr_accepted : execCapClr n s = .next ((s.modCapIn n.toNat fun c => { c with fifo := [], dead := 0, ovf := 0 }).rpOk) :=
  (onReg_writable hw).trans (congrArg _ (State.writeCapCtl_command accepted slope (.inr (.inr rfl))))

end

section

variable (hw : s.writable 8 = true)

include hw

theorem execBvClr_open (hp : s.bv.port.toNat < s.ports.length) (hl : s.bv.src = 2 → s.isLeaf = true) (ho : s.traceOpen = true) :
    execBvClr s = .next ((s.modBv fun b => { b with buf := [], wrapped := false, stopped := false }).rpOk) :=
  (onReg_writable hw).trans (congrArg _ (State.writeBvCtl_clr hp hl ho))

theorem execBvClr_closed (ho : s.traceOpen = false) : execBvClr s = .next s.rpErr := (onReg_writable hw).trans (congrArg _ (State.writeBvCtl_closed ho))

end

section

variable (hw : s.writable 3 = true)

include hw

theorem execCoreHalt_writable : execCoreHalt w s = .next (s.writeCoreCtl (w &&& 3)) := onReg_writable hw

theorem execCoreStep_writable : execCoreStep w s = .next (s.writeCoreCtl w) := onReg_writable hw

end

theorem Capture.push_room {c : Capture} {e : CapEnt} (h : c.fifo.length < 64) : c.push e = { c with fifo := c.fifo ++ [e] } := if_neg (Nat.not_le.mpr h)

theorem Capture.push_full {c : Capture} {e : CapEnt} (h : 64 ≤ c.fifo.length) : c.push e = { c with ovf := satInc c.ovf } := if_pos h

section

variable (hw : s.writable 0 = true)

include hw

theorem execBistGo_refused (h : s.testPageOpen = false ∨ s.bistFree (w.extractLsb' 0 5).toNat = false) : execBistGo w s = .next s.rpErr := by
  refine (onReg_writable hw).trans (congrArg _ ((State.writeBistCtl_go (s := s)).trans (if_neg ?_)))
  rcases h with h | h <;> rw [h]
  · exact Bool.false_ne_true
  · rw [Bool.and_false]; exact Bool.false_ne_true

/-- R416: the test has the bank, and every byte outside it stays. -/
theorem execBistGo_accepted (ho : s.testPageOpen = true) (hf : s.bistFree (w.extractLsb' 0 5).toNat = true) : ∃ t, execBistGo w s = .next t ∧
    t.tst.busy = true ∧ t.tst.pass = false ∧ t.tst.fail = false ∧ t.tst.bank = w.extractLsb' 0 5 ∧ t.tst.alg = w.getLsbD 9 ∧ t.rp.err = false ∧
    ∀ a, a / 2 ^ 19 ≠ (w.extractLsb' 0 5).toNat → t.pw.read a = s.pw.read a :=
  ⟨_, (onReg_writable hw).trans (congrArg _ ((State.writeBistCtl_go (s := s)).trans (if_pos (by rw [ho, hf]; rfl)))),
    rfl, rfl, rfl, rfl, rfl, rfl, fun _ h => Power.read_scrambleBank_ne s.pw s.freeIx h⟩

end

/-- What keeps a bank from a test. -/
theorem bistFree_false {b : Nat} (h : s.profile.banks ≤ b ∨ s.pw.owners.getD b 0 ≠ 0xF ∨ s.tst.busy = true) : s.bistFree b = false := by
  unfold State.bistFree
  rcases h with h | h | h
  · simp [Nat.not_lt.mpr h]
  · simp only [beq_eq_false_iff_ne.mpr h, Bool.and_false, Bool.false_and]
  · simp [h]

theorem bistFree_true {b : Nat} (hb : b < s.profile.banks) (hd : s.pdOn (9 + b / 4) = true) (own : s.pw.owners.getD b 0 = 0xF) (idle : s.tst.busy = false) :
    s.bistFree b = true := by
  unfold State.bistFree bankDom
  rw [decide_eq_true hb, hd, own, idle]
  rfl

end

/-- Settles O60: an edge as it comes and as it is settled, the commands of a capture input and of the trace, and those of the Test page. -/
theorem captureAndTestCommands : Obligations.CaptureAndTestCommands := by
  unfold Obligations.CaptureAndTestCommands
  refine ⟨fun s n falling stamp => ⟨fun ha => ⟨execCapInEdge_ignored ha, execCapInEdge_taken ha⟩, State.takeEdge_outside, fun hw => ?settled,
      fun c e => ⟨Capture.push_room, Capture.push_full⟩,
      fun hw accepted slope => ⟨execWinOpenNow_accepted hw accepted slope, execWinCloseNow_accepted hw accepted slope, execCapClr_accepted hw accepted slope⟩,
      execCapClr_refused, fun hw hp hl => ⟨execBvClr_open hw hp hl, execBvClr_closed hw⟩⟩,
    fun s w => ⟨fun ha => ⟨execCheckerPatternLock_locks ha, execCheckerPatternLock_off ha, fun _ => execBistDone_busy ha, fun _ => execBistDone_idle ha⟩,
      fun hw => ⟨fun ho => execBistGo_refused hw (.inl ho), fun _ h => execBistGo_refused hw (.inr (bistFree_false h)),
        fun ho hb hd own idle => execBistGo_accepted hw ho (bistFree_true hb hd own idle)⟩, fun hw => ?cores⟩⟩
  case settled =>
    refine ⟨fun live => (State.takeEdge_inside hw).trans (if_pos live),
      fun live dead => (State.takeEdge_inside hw).trans ((if_neg (ne_true_of_eq_false live)).trans (if_pos dead)),
      fun live dead h => (State.takeEdge_stamped hw live dead).trans (State.foldEdge_outside h),
      fun k live dead hk hm => (State.takeEdge_stamped hw live dead).trans (State.foldEdge_masked hk hm)⟩
  case cores =>
    have halt0 : (w &&& 3).getLsbD 0 = w.getLsbD 0 := by rw [BitVec.getLsbD_and]; exact Bool.and_true _
    have halt1 : (w &&& 3).getLsbD 1 = w.getLsbD 1 := by rw [BitVec.getLsbD_and]; exact Bool.and_true _
    refine ⟨fun ho => ⟨?haltClosed, ?stepClosed⟩, fun _ hl => ?loading, fun ho hl hf => ⟨?haltIdle, ?stepIdle⟩, fun ho hl hf hi h0 h1 h2 => ?step⟩
    case haltClosed => rw [← State.writeCoreCtl_refused (.inl ho)]; exact execCoreHalt_writable hw
    case stepClosed => rw [← State.writeCoreCtl_refused (.inl ho)]; exact execCoreStep_writable hw
    case loading => rw [← State.writeCoreCtl_refused (.inr hl)]; exact execCoreHalt_writable hw
    case haltIdle => rw [← halt0, ← halt1, ← State.writeCoreCtl_idle ho hl hf]; exact execCoreHalt_writable hw
    case stepIdle => rw [← State.writeCoreCtl_idle ho hl hf]; exact execCoreStep_writable hw
    case step => rw [← State.writeCoreCtl_step0 ho hl hf hi h0 h1 h2]; exact execCoreStep_writable hw

end Sys2Proof.Machine
end
